-- ==== Sys2Proof/Word.lean ====
section
/-! DEFINITION. Word.lean: the bit-vector types of the UH-9648 and the sparse table that holds
like things by number. The operations on them stand in Sys2Proof/Machine/. -/

namespace Sys2Proof

/-- One byte. -/
abbrev Byte := BitVec 8

/-- A 32-bit register or packet word (Table 0-7: registers are 32 bits wide). -/
abbrev Word := BitVec 32

/-- A 64-bit counter, cookie or short time (R9, R10). -/
abbrev DWord := BitVec 64

/-- A sparse table: entries by number, strictly rising. A unit the device always has and that is
not listed holds its reset value; an object class lists exactly the objects that exist. -/
abbrev Tbl (α : Type) := List (Nat × α)

end Sys2Proof
end

