-- ==== Sys2Proof/Syntax.lean ====
section
/-! DEFINITION. Syntax.lean: the commands and events of the UH-9648, one constructor of Instr per
row of spec/opcode_table.json, with the data each one carries into the device. -/

namespace Sys2Proof

/-- One Edham command as its packet carries it (Table 3-5), with the ring set that submitted it.
The opcode is the constructor's (or, in a fetched packet, the field beside it). `dma` is what the
device reads from host memory on the command's behalf (Table 4-8 MODE 0 and its like); it is
empty for every command that reads nothing there. -/
structure Cmd where
  rs       : Nat
  version  : Nat := 3
  flags    : Byte := 0
  tag      : Word := 0
  handle   : Word := 0x01000000
  paramLen : Nat := 0
  leaseId  : Nat := 0
  execAt   : DWord := 0
  cookie   : DWord := 0
  params   : List Byte := []
  dma      : List Byte := []
deriving DecidableEq, Repr

/-- What COMMAND_FETCH reads from the submission ring: the packet at the head of the ring, or a
DMA fault in reading it (HPI_RS_STATUS.ERR 3). -/
structure Packet where
  opcode   : Nat
  cmd      : Cmd
  dmaFault : Bool := false
deriving DecidableEq, Repr

/-- The ring-set descriptor of Table 3-3. -/
structure RingDesc where
  set        : Nat
  op         : Nat
  sqBase     : Nat := 0
  rplBase    : Nat := 0
  evtBase    : Nat := 0
  sqSlots    : Nat := 0
  rplSlots   : Nat := 0
  evtSlots   : Nat := 0
  shadowBase : Nat := 0
deriving DecidableEq, Repr

/-- What an edge domain finds at an instant (R25–R29): the edge domain, the user (Table 2-1 row), by how
many of its clock cycles before the instant the entry was complete (none: never loaded), the clock
period in ps, how late an entry completed afterwards in ns, whether the edge clock is stopped. -/
structure Deadline where
  edge     : Nat
  user     : Nat := 0
  lead     : Option Int := some 16
  periodPs : Nat := 1000
  lateNs   : Nat := 0
  stopped  : Bool := false
deriving DecidableEq, Repr

/-- A flue item (Table 5-1): the 64-bit header word of Table 5-2 and the payload. -/
structure Item where
  hdr     : DWord
  payload : List Byte := []
deriving DecidableEq, Repr

/-- A DRAM request as it reaches its channel (R126–R134): region and byte offset, requester, the bytes
to write or the count to read, requester hint (R131), the bank and row it falls in, whether another
request to that row is queued, how long it waited, and what the inline ECC finds: 0 clean, 1 one byte
in error, 2 uncorrectable; `linkEcc` counts the link-ECC corrections of the transfer. -/
structure DramReq where
  region    : Nat
  offset    : Nat
  requester : Nat
  write     : Option (List Byte)
  count     : Nat := 64
  hint      : Nat := 0
  bank      : Nat := 0
  row       : Nat := 0
  rowQueued : Bool := false
  waitNs    : Nat := 0
  ecc       : Nat := 0
  linkEcc   : Nat := 0
deriving DecidableEq, Repr

/-- The RTP header of a packet after decryption, its SRTP index, and whether it authenticates under the present and under the
held generation of its key (R166, R170). -/
structure RtpView where
  ssrc      : Nat := 0
  seq       : Nat := 0
  timestamp : Nat := 0
  payload   : Nat := 0
  marker    : Bool := false
  index     : Nat := 0
  authOk    : Bool := true
  authOld   : Bool := false
deriving DecidableEq, Repr

/-- What a video packet's headers and descriptor say: its layer, the picture's number in the stream, whether it is the
picture's first and last packet, whether the picture is a key picture, the pictures it references, whether one of them is
missing by Table 11-4, and the picture's size in samples (0 not told) (R253, R291). -/
structure VideoView where
  spatial  : Nat := 0
  temporal : Nat := 0
  frame    : Nat := 0
  first    : Bool := true
  last     : Bool := true
  key      : Bool := false
  refs     : List Nat := []
  missing  : Bool := false
  size     : Nat := 0
deriving DecidableEq, Repr

/-- A packet of a compound RTCP packet (R286, R292): congestion-control feedback as (sequence number, arrival in µs or lost),
a receiver report's loss in 1/256, PLI and FIR with the SSRC they name, a generic NACK, any other. -/
inductive RtcpItem where
  | ccfb (reports : List (Nat × Option Int))
  | report (loss : Nat)
  | pli (ssrc : Nat)
  | fir (ssrc : Nat)
  | nack
  | other
deriving DecidableEq, Repr

/-- A PTP or 802.1AS message as a domain takes it (R346): message type, domain, grandmaster identity
and quality, logarithmic interval, the offset and rate its servo estimates from it, path delay. -/
structure PtpView where
  kind      : Nat := 0
  domain    : Nat := 0
  gmId      : Nat := 0
  quality   : Nat := 0
  logInt    : Int := 0
  offset    : Int := 0
  rate      : Int := 0
  pathDelay : Nat := 0
  predErr   : Nat := 0
deriving DecidableEq, Repr

/-- A received frame as the parser and its clients act on it (R151–R166). Addresses are 16 bytes, an IPv4 one in the first
four. `length` counts the frame without its tags, `codewords` the FEC codewords corrected in it, `cells` the packet-buffer
cells it takes. With `macsec` the frame carries a SecTAG of that SCI, AN and packet number, whose check value is right or not;
the rest is the frame within. `control` is 1 for ARP and neighbour discovery, 2 for other ICMP, IGMP and MLD; `second` is the
second byte of the UDP payload; ports of an ICMP exchange are its identifier. `stun` is order 6's test of the payload;
`toRouter` that it is sent to the router's MAC address. `data` are its bytes, the UDP payload from `udpAt` on. -/
structure Frame where
  iface     : Nat
  length    : Nat := 64
  fcsOk     : Bool := true
  fecOk     : Bool := true
  codewords : Nat := 0
  pause     : Bool := false
  tags      : Nat := 0
  vlan      : Nat := 0
  etherType : Nat := 0x0800
  toRouter  : Bool := false
  srcMac    : List Byte := []
  macsec    : Option (Nat × Nat × Nat × Bool) := none
  v6        : Bool := false
  proto     : Nat := 17
  control   : Nat := 0
  src       : List Byte := []
  dst       : List Byte := []
  srcPort   : Nat := 0
  dstPort   : Nat := 0
  ttl       : Nat := 64
  dscp      : Nat := 0
  tcpFin    : Bool := false
  tcpRst    : Bool := false
  stun      : Bool := false
  second    : Nat := 0
  cells     : Nat := 1
  rtp       : RtpView := {}
  video     : VideoView := {}
  rtcp      : List RtcpItem := []
  ptp       : PtpView := {}
  udpAt     : Nat := 0
  data      : List Byte := []
deriving DecidableEq, Repr

/-- A cipher operation as it reaches a pipe (R169–R173): slot, authenticated bytes, for a receive
operation its index and whether it authenticates under the present and under the held generation, for
SRTCP the flag, and whether it is still in flight when the step ends. -/
structure CipherOp where
  slot    : Nat
  bytes   : Nat := 64
  rtcp    : Bool := false
  index   : Nat := 0
  authNew : Bool := true
  authOld : Bool := false
  lingers : Bool := false
deriving DecidableEq, Repr

/-- A leg's contribution as it reaches the mixer for a block: whether it is complete (R205), its 48
samples (Q1.31) per channel, and its level after trim in 0.25 dBFS (R189 step 1). -/
structure LegInput where
  leg      : Nat
  complete : Bool := true
  samples  : List Int := []
  level    : Int := -3072
deriving DecidableEq, Repr

/-- What a VCA engine finds of a frame of a leg (R179, R184, R187): whether its packet is there, its
length in 0.5 ms units, whether the engine has headroom for a shorter one, whether the next packet's FEC
serves, whether the gap is DTX. -/
structure VoiceFrame where
  leg      : Nat
  length   : Nat := 40
  headroom : Bool := true
  fec      : Bool := false
  dtx      : Bool := false
deriving DecidableEq, Repr

/-- A frame at an audio port (R240–R244): the port, its period in ps, the bits it had, the received
sample of each enabled channel, the transmit samples placed for it, and whether the transmit entry was
late. -/
structure AudioFrame where
  port    : Nat
  period  : Nat := 20833333
  bits    : Nat := 1024
  samples : List Int := []
  mixed   : List Int := []
  late    : Bool := false
deriving DecidableEq, Repr

/-- What a decode engine finds in the picture it decodes (R251–R257): the engine, size, bit depth, whether its
kind is one R249 excludes, its temporal layer, whether it is a key picture or random-access point,
whether its references never count as missing (key, IRAP, switch frame, all refreshed after the gap),
the numbers of the pictures it references, whether Table 11-4 finds a reference missing, whether a
syntax error was met, whether no later picture references it, and how long the decode takes in µs. -/
structure PicFacts where
  engine   : Nat
  w        : Nat := 1280
  h        : Nat := 720
  bit10    : Bool := false
  excluded : Bool := false
  temporal : Nat := 0
  key      : Bool := false
  exempt   : Bool := false
  refs     : List Nat := []
  absent   : Bool := false
  syntaxError : Bool := false
  unref    : Bool := false
  takesUs  : Nat := 1000
deriving DecidableEq, Repr

/-- What an encode engine finds in the picture it codes (R275–R277): the engine; per spatial layer and row
the estimate, the bytes of normal coding and the bytes of floor coding; how long it takes in µs. -/
structure EncFacts where
  engine  : Nat
  rows    : List (List (Nat × Nat × Nat)) := []
  takesUs : Nat := 1000
deriving DecidableEq, Repr

/-- A picture of a source as LFW sees it come to a leg's entry (Table 12-7): the stream of a simulcast
group (or 0), its temporal layer, whether it is a key picture, the spatial layers it is a switch point
of, whether it ends a taint, its RTP timestamp, and whether it is of the source that the entry should
change to. -/
structure SrcPicture where
  stream   : Nat := 0
  temporal : Nat := 0
  key      : Bool := false
  switch_  : List Nat := []
  endsTaint : Bool := false
  ts       : Nat := 0
  ofNext   : Bool := false
deriving DecidableEq, Repr


/-- One MPDU of a received PPDU: its TID, its sequence number and the frame that it carries to the packet engine. -/
structure Mpdu where
  tid : Nat := 0
  seq : Nat := 0
  msdu : Option Frame := none
deriving DecidableEq, Repr

/-- What a received PPDU carries besides data (R304–R318): the end of an authentication (stage 0 SAE, 1 EAP),
an association or reassociation with the station's capabilities, the end of a 4-way handshake, a deauthentication or
disassociation, a block-ack agreement, a TWT request or teardown, a WUR mode request, a power-save change, a PS-Poll or
trigger, the parent's beacon, a refusal by the peer in the station roles. -/
inductive MgmtFrame where
  | none
  | auth (bss stage : Nat) (ok : Bool)
  | assoc (reassoc : Bool) (links listen : Nat) (mld emlsr eht twtCap : Bool) (deliv : Nat)
  | handshake (ok : Bool)
  | deauth (reason : Nat)
  | addba (tid size : Nat)
  | delba (tid : Nat)
  | twtSet (id flags wakeUs spUs : Nat)
  | twtEnd (id : Nat)
  | wurMode (on : Bool) (onUs periodMs : Nat)
  | powerSave (on : Bool)
  | poll
  | beacon
  | refused (status : Nat)
deriving DecidableEq, Repr

/-- A PPDU received on a radio: preamble and FCS, receiver and transmitter address (a station's own or MLD address), whether
it is trigger-based, what it carries, its rate in Mbit/s and as RATE of Table 16-3, its RSSI, whether it needs an immediate response and for
which kind (1 U-APSD, 2 PS-Poll, 3 TWT SP; 0 not to a power-saving station), and its bytes. -/
structure Ppdu where
  radio      : Nat
  preambleOk : Bool := true
  fcsOk      : Bool := true
  ra         : List Byte := []
  ta         : List Byte := []
  tb         : Bool := false
  kind       : MgmtFrame := .none
  mpdus      : List Mpdu := []
  rate       : Nat := 0
  rateCode   : Nat := 0
  rssi       : Int := -60
  response   : Bool := true
  psKind     : Nat := 0
  data       : List Byte := []
deriving DecidableEq, Repr

/-- A user of a won downlink TXOP as it was served (R301, R307): the station, its airtime in µs, the MPDUs sent, whether
they were acknowledged. -/
structure TxopUser where
  sta     : Nat
  airUs   : Nat
  frames  : Nat := 1
  acked   : Bool := true
deriving DecidableEq, Repr

/-- A BSS that a scan found (SCAN_START). -/
structure ScanEntry where
  bssid    : List Byte := []
  channel  : Nat := 0
  band     : Nat := 0
  mld      : List Byte := []
  rssi     : Int := -80
  security : Nat := 0
  width    : Nat := 0
  ssid     : List Byte := []
deriving DecidableEq, Repr

/-- What a chain measured on a PPDU (R328, R337): the chain of the radio, its power in 0.25 dBm, its return loss in
0.25 dB, and what the reflection phase shows (1 open, 2 short, 3 mismatch). -/
structure ChainMeas where
  chain : Nat
  power : Int := 0
  rl    : Nat := 80
  sign  : Nat := 3
deriving DecidableEq, Repr

/-- What a lock or a calibration interval found: chains whose tuner read-back stayed wrong with the register, calibrations that failed
their check by bit and chain, and what a band profile measured by chain: mean and best return loss in 0.25 dB, whether
an open or short shows. -/
structure CalFacts where
  tuners  : List (Nat × Nat) := []
  fails   : List (Nat × Nat) := []
  profile : List (Nat × Nat × Nat × Bool) := []
  temp    : Int := 100
deriving DecidableEq, Repr

/-- How a DRAM channel trains at boot (R124, R125, R136): GiB fitted and ranks, as the memory's mode registers give them; whether
the bytes are swapped and the CA lines reversed (none: as the lane-map record says); the read and write eyes of each attempt of
R137 in % of a unit interval, 0 where no order of the lines trains. -/
structure ChanFit where
  gib   : Nat := 8
  ranks : Nat := 2
  swap  : Option Bool := none
  rev   : Option Bool := none
  eyes  : List (Nat × Nat) := [(50, 50)]
deriving DecidableEq, Repr

/-- What kindling finds while it boots (Table 4-3): the voltages of HLT_VMON that are not nominal, by index in mV; whether the
regulator asserts PGOOD; whether XO_IN qualifies, and if not the cause; the PCIe links that train as (port, lanes, generation); the
SRAM rows that fail by bank; the DRAM channels, the unlisted ones fitted as by default; the memories' temperature; the slots whose
flash read fails; the canary rates and headroom of the margin plan; the ms the sequence takes. -/
structure BootFacts where
  vmon     : List (Nat × Nat) := []
  pgood    : Bool := true
  xoOk     : Bool := true
  xoCause  : Nat := 0
  links    : List (Nat × Nat × Nat) := []
  badRows  : List (Nat × Nat) := []
  chans    : List (Nat × ChanFit) := []
  memTemp  : Int := 25
  flashBad : List Nat := []
  rates    : List (List Nat) := []
  floorRate : Nat := 0
  headroom : Nat := 0
  ms       : Nat := 0
deriving DecidableEq, Repr

/-- The commands, events and protocol steps of the device: one constructor per row of the table. -/
inductive Instr where
  /-- COMMAND_FETCH (R52). -/
  | commandFetch (p : Packet)
  /-- TIMED_COMMAND_START (R60). -/
  | timedCommandStart
  /-- DEV_INFO (R78). -/
  | devInfo (c : Cmd)
  /-- DEV_REG_WRITE (R81). -/
  | devRegWrite (c : Cmd)
  /-- DEV_ABORT (R71). -/
  | devAbort (c : Cmd)
  /-- QUERY_PROGRESS (R73). -/
  | queryProgress (c : Cmd)
  /-- LEASE_ACQUIRE (R65). -/
  | leaseAcquire (c : Cmd)
  /-- LEASE_RENEW (R67). -/
  | leaseRenew (c : Cmd)
  /-- LEASE_RELEASE (R66). -/
  | leaseRelease (c : Cmd)
  /-- LEASE_BREAK (R68). -/
  | leaseBreak (c : Cmd)
  /-- DEV_EVENT_ROUTE (R75). -/
  | devEventRoute (c : Cmd)
  /-- DEV_PORT_PRIV (R64). -/
  | devPortPriv (c : Cmd)
  /-- DEV_REG_READ (R81). -/
  | devRegRead (c : Cmd)
  /-- DEV_ECHO (R78). -/
  | devEcho (c : Cmd)
  /-- DEV_RESET (R83). -/
  | devReset (c : Cmd)
  /-- COMMAND_RESET_START (R83). -/
  | commandResetStart
  /-- RING_SET_ENABLE (R50). -/
  | ringSetEnable (writer port addr : Nat) (d : RingDesc)
  /-- RING_SET_DISABLE (R50). -/
  | ringSetDisable (writer port addr : Nat) (d : RingDesc)
  /-- RING_SET_DRAINED (R50). -/
  | ringSetDrained (rs : Nat)
  /-- SQ_TAIL_DOORBELL (R53). -/
  | sqTailDoorbell (port rs tail : Nat)
  /-- RPL_HEAD_DOORBELL (R53). -/
  | rplHeadDoorbell (port rs head : Nat)
  /-- EVT_HEAD_DOORBELL (R76). -/
  | evtHeadDoorbell (port rs head : Nat)
  /-- HPI_RS_INT_MASK_WRITE (R412). -/
  | hpiRsIntMaskWrite (rs : Nat) (value : Word)
  /-- HPI_RS_INT_STATUS_CLEAR (R412). -/
  | hpiRsIntStatusClear (rs : Nat) (value : Word)
  /-- INT_HOLDOFF_EXPIRY (R412). -/
  | intHoldoffExpiry (rs vec : Nat)
  /-- DEV_ALARM_CLEAR (R77). -/
  | devAlarmClear (value : Word)
  /-- OTP_RESET_CAUSE_CLEAR (R82). -/
  | otpResetCauseClear (value : Word)
  /-- FAB_MISS_SUM_CLEAR (R27). -/
  | fabMissSumClear (index : Nat) (value : Word)
  /-- DSX_C_HIST_CLEAR (R115). -/
  | dsxCHistClear (value : Word)
  /-- TMU_Q_FLAGS_CLEAR (R354). -/
  | tmuQFlagsClear (queue : Nat) (value : Word)
  /-- SELECT_REGISTER_WRITE (R80). -/
  | selectRegisterWrite (offset : Nat) (value : Word)
  /-- IGNORED_DIRECT_WRITE (R80). -/
  | ignoredDirectWrite (port offset : Nat) (value : Word)
  /-- RC_REGISTER_READ (R8). -/
  | rcRegisterRead (offset : Nat)
  /-- LATCHING_WORD_READ (R9). -/
  | latchingWordRead (offset : Nat)
  /-- BAR2_ACCESS (R142). -/
  | bar2Access (port offset : Nat) (write : Bool) (data : List Byte) (count : Nat)
  /-- BAR2_MAP_SWITCH (R142). -/
  | bar2MapSwitch (port : Nat)
  /-- LEASE_EXPIRED (R67). -/
  | leaseExpired (id : Nat)
  /-- LEG_CREATE (R12). -/
  | legCreate (c : Cmd)
  /-- LEG_START (R13). -/
  | legStart (c : Cmd)
  /-- LEG_MODIFY (R17). -/
  | legModify (c : Cmd)
  /-- LEG_HOLD (R13). -/
  | legHold (c : Cmd)
  /-- LEG_RESUME (R13). -/
  | legResume (c : Cmd)
  /-- LEG_CLOSE (R14). -/
  | legClose (c : Cmd)
  /-- LEG_DRAIN_COMPLETE (R14). -/
  | legDrainComplete (leg : Nat)
  /-- LEG_QUERY (R415). -/
  | legQuery (c : Cmd)
  /-- CONF_CREATE (R20). -/
  | confCreate (c : Cmd)
  /-- CONF_JOIN (R414). -/
  | confJoin (c : Cmd)
  /-- CONF_LEAVE (R414). -/
  | confLeave (c : Cmd)
  /-- CONF_CLOSE (R13). -/
  | confClose (c : Cmd)
  /-- CONF_QUERY (R415). -/
  | confQuery (c : Cmd)
  /-- MIX_PLAN_SET (R193). -/
  | mixPlanSet (c : Cmd)
  /-- MIX_ROLE_SET (R193). -/
  | mixRoleSet (c : Cmd)
  /-- MIX_ROUTE_SET (R203). -/
  | mixRouteSet (c : Cmd)
  /-- MIX_PARAM_LOAD (R204). -/
  | mixParamLoad (c : Cmd)
  /-- MIX_QUERY (R184). -/
  | mixQuery (c : Cmd)
  /-- BLOCK_BOUNDARY (R177). -/
  | blockBoundary (inputs : List LegInput)
  /-- JB_RELEASE (R182). -/
  | jbRelease (leg : Nat)
  /-- JB_TARGET_RECOMPUTE (R183). -/
  | jbTargetRecompute (leg : Nat)
  /-- VOICE_DECODE_FRAME (R179). -/
  | voiceDecodeFrame (v : VoiceFrame)
  /-- VOICE_ENCODE_FRAME (R195). -/
  | voiceEncodeFrame (conf cls : Nat) (member : Option Nat)
  /-- ASP_CONFIG (R236). -/
  | aspConfig (c : Cmd)
  /-- ASP_START (R237). -/
  | aspStart (c : Cmd)
  /-- ASP_STOP (R239). -/
  | aspStop (c : Cmd)
  /-- ASP_MASK_SET (R242). -/
  | aspMaskSet (c : Cmd)
  /-- ASP_TRIGGER_ARM (R237). -/
  | aspTriggerArm (c : Cmd)
  /-- ASP_QUERY (R243). -/
  | aspQuery (c : Cmd)
  /-- ASP_START_INSTANT (R238). -/
  | aspStartInstant (port : Nat)
  /-- ASP_FRAME (R240). -/
  | aspFrame (f : AudioFrame)
  /-- ASP_CLOCK_LOST (R244). -/
  | aspClockLost (port : Nat)
  /-- ASP_HOLD_FADE (R244). -/
  | aspHoldFade (port : Nat)
  /-- ASP_RATE_CHANGE (R244). -/
  | aspRateChange (port : Nat)
  /-- ASP_CONVERGED (R245). -/
  | aspConverged (port : Nat)
  /-- ASP_NO_CLOCK (R238). -/
  | aspNoClock (port : Nat)
  /-- ASP_STOP_COMPLETE (R239). -/
  | aspStopComplete (port : Nat)
  /-- ASP_PIN_FAULT (R246). -/
  | aspPinFault (port pin cause : Nat)
  /-- ASP_PIN_RETRY (R246). -/
  | aspPinRetry (port pin : Nat) (clear : Bool)
  /-- TRIG_IN_EDGE (R237). -/
  | trigInEdge (input edge : Nat)
  /-- DSP_LOAD (R229). -/
  | dspLoad (c : Cmd)
  /-- DSP_TASK_CREATE (R224). -/
  | dspTaskCreate (c : Cmd)
  /-- DSP_TASK_BIND (R226). -/
  | dspTaskBind (c : Cmd)
  /-- DSP_TASK_PARAM (R229). -/
  | dspTaskParam (c : Cmd)
  /-- DSP_TASK_DELETE (R224). -/
  | dspTaskDelete (c : Cmd)
  /-- DSP_QUERY (R229). -/
  | dspQuery (c : Cmd)
  /-- TASK_DISPATCH (R112). -/
  | taskDispatch (target : Nat) (loads : List Nat)
  /-- BUNDLE_ISSUE (R216). -/
  | bundleIssue (core : Nat)
  /-- SP_GO_POP (R222). -/
  | spGoPop (core slot : Nat)
  /-- SP_GO_PUSH (R222). -/
  | spGoPush (core slot : Nat)
  /-- STREAM_COMMAND_COMPLETE (R222). -/
  | streamCommandComplete (core : Nat)
  /-- CORE_MIGRATION (R228). -/
  | coreMigration (core : Nat)
  /-- PUSH (R99). -/
  | push (flue producer : Nat) (item : Item) (copyB : List Nat)
  /-- ABANDON (R104). -/
  | abandon (flue producer : Nat) (copyB : List Nat)
  /-- POP (R101). -/
  | pop (flue consumer : Nat) (copyB : List Nat)
  /-- PEEK (R101). -/
  | peek (flue consumer : Nat) (copyB : List Nat)
  /-- DROP_REMAINDER (R105). -/
  | dropRemainder (flue consumer : Nat) (copyB : List Nat)
  /-- COMMIT (R102). -/
  | commit (flue consumer : Nat) (copyB : List Nat)
  /-- REWIND (R102). -/
  | rewind (flue consumer : Nat) (copyB : List Nat)
  /-- FLUE_RESET_COMPLETE (R106). -/
  | flueResetComplete (flue : Nat)
  /-- FLUE_OPEN_TIMEOUT (R104). -/
  | flueOpenTimeout (flue : Nat)
  /-- FLUE_CREATE (R98). -/
  | flueCreate (c : Cmd)
  /-- FLUE_DELETE (R116). -/
  | flueDelete (c : Cmd)
  /-- FLUE_QUERY (R116). -/
  | flueQuery (c : Cmd)
  /-- MEM_POOL_ASSIGN (R119). -/
  | memPoolAssign (c : Cmd)
  /-- DRAM_REGION_CREATE (R140). -/
  | dramRegionCreate (c : Cmd)
  /-- DRAM_REGION_DELETE (R147). -/
  | dramRegionDelete (c : Cmd)
  /-- DRAM_TRAIN (R136). -/
  | dramTrain (c : Cmd)
  /-- DRAM_QUERY (R138). -/
  | dramQuery (c : Cmd)
  /-- DBG_WINDOW_SET (R123). -/
  | dbgWindowSet (c : Cmd)
  /-- SRAM_WORD_ACCESS (R120). -/
  | sramWordAccess (bank offset : Nat) (write : Option DWord) (badBits : Nat)
  /-- SRAM_SCRUB (R121). -/
  | sramScrub (bank row : Nat) (corrected : Nat) (uncorrectable : Option Nat)
  /-- DRAM_REQUEST (R133). -/
  | dramRequest (r : DramReq)
  /-- ROW_IDLE_CLOSE (R131). -/
  | rowIdleClose (ch bank : Nat)
  /-- PER_BANK_REFRESH (R135). -/
  | perBankRefresh (ch bank : Nat) (burst : Bool)
  /-- PATROL_SCRUB (R127). -/
  | patrolScrub (ch region offset ecc : Nat)
  /-- WCK_TRACKING (R136). -/
  | wckTracking (ch drift : Nat) (temp : Int) (linkEcc : Nat)
  /-- RETRAIN_SLICE (R136). -/
  | retrainSlice (ch : Nat) (last caOk : Bool) (readEye writeEye : Nat)
  /-- DRAM_SETPOINT (R129). -/
  | dramSetpoint (ch sp stallNs : Nat)
  /-- DRAM_MIRROR_RESTORED (R141). -/
  | dramMirrorRestored (region slot copyMs : Nat)
  /-- PORT_CONFIG (R148). -/
  | portConfig (c : Cmd)
  /-- PORT_QUERY (R148). -/
  | portQuery (c : Cmd)
  /-- FLOW_INSTALL (R416). -/
  | flowInstall (c : Cmd)
  /-- FLOW_MODIFY (R160). -/
  | flowModify (c : Cmd)
  /-- FLOW_REMOVE (R160). -/
  | flowRemove (c : Cmd)
  /-- FLOW_QUERY (R159). -/
  | flowQuery (c : Cmd)
  /-- ROUTE_SET (R161). -/
  | routeSet (c : Cmd)
  /-- NAT_SET (R163). -/
  | natSet (c : Cmd)
  /-- ACL_SET (R162). -/
  | aclSet (c : Cmd)
  /-- FLOW_REHASH_END (R158). -/
  | flowRehashEnd
  /-- ROUTE_CHANGE_DRAIN (R160). -/
  | routeChangeDrain (flow : Nat)
  /-- ETH_FRAME_RECEIVE (R155). -/
  | ethFrameReceive (f : Frame)
  /-- CONN_EXPIRY (R164). -/
  | connExpiry (flow : Nat)
  /-- ETH_LINK (R152). -/
  | ethLink (iface : Nat) (up : Bool) (cause lanes : Nat)
  /-- KEY_WRITE (R176). -/
  | keyWrite (c : Cmd)
  /-- KEY_ERASE (R169). -/
  | keyErase (c : Cmd)
  /-- KEY_QUERY (R168). -/
  | keyQuery (c : Cmd)
  /-- MACSEC_SA_SET (R154). -/
  | macsecSaSet (c : Cmd)
  /-- CIP_QUERY (R173). -/
  | cipQuery (c : Cmd)
  /-- KEY_GENERATION_ZEROISE (R169). -/
  | keyGenerationZeroise (slot gen : Nat)
  /-- KEY_HOLD_END (R170). -/
  | keyHoldEnd (slot : Nat)
  /-- CIPHER_OPERATION (R171). -/
  | cipherOperation (o : CipherOp)
  /-- DEC_CREATE (R250). -/
  | decCreate (c : Cmd)
  /-- DEC_MODIFY (R250). -/
  | decModify (c : Cmd)
  /-- DEC_DELETE (R250). -/
  | decDelete (c : Cmd)
  /-- DEC_QUERY (R250). -/
  | decQuery (c : Cmd)
  /-- PICTURE_DECODE (R251). -/
  | pictureDecode (v : PicFacts)
  /-- REORDER_TIMEOUT (R253). -/
  | reorderTimeout (stream : Nat)
  /-- KEY_REQUEST_SEND (R258). -/
  | keyRequestSend (leg slot : Nat)
  /-- FIR_REPEAT (R258). -/
  | firRepeat (stream : Nat)
  /-- DEC_NO_KEY (R258). -/
  | decNoKey (stream : Nat)
  /-- CMP_CREATE (R261). -/
  | cmpCreate (c : Cmd)
  /-- CMP_LAYOUT_SET (R265). -/
  | cmpLayoutSet (c : Cmd)
  /-- CMP_TILE_SET (R265). -/
  | cmpTileSet (c : Cmd)
  /-- CMP_OVERLAY_SET (R268). -/
  | cmpOverlaySet (c : Cmd)
  /-- CMP_DELETE (R261). -/
  | cmpDelete (c : Cmd)
  /-- CMP_QUERY (R266). -/
  | cmpQuery (c : Cmd)
  /-- COMPOSITION_INSTANT (R262). -/
  | compositionInstant (comp takesUs : Nat)
  /-- CMP_SOURCE_LOST (R264). -/
  | cmpSourceLost (comp tile : Nat)
  /-- ENC_CREATE (R273). -/
  | encCreate (c : Cmd)
  /-- ENC_MODIFY (R273). -/
  | encModify (c : Cmd)
  /-- ENC_KEY_PICTURE (R278). -/
  | encKeyPicture (c : Cmd)
  /-- ENC_DELETE (R273). -/
  | encDelete (c : Cmd)
  /-- ENC_QUERY (R273). -/
  | encQuery (c : Cmd)
  /-- ENCODE_PICTURE (R275). -/
  | encodePicture (v : EncFacts)
  /-- FWD_POLICY_SET (R287). -/
  | fwdPolicySet (c : Cmd)
  /-- FWD_SET_MODIFY (R283). -/
  | fwdSetModify (c : Cmd)
  /-- FWD_QUERY (R282). -/
  | fwdQuery (c : Cmd)
  /-- BWE_QUERY (R287). -/
  | bweQuery (c : Cmd)
  /-- BWE_EVALUATION (R287). -/
  | bweEvaluation
  /-- LAYER_SWITCH (R290). -/
  | layerSwitch (leg entry : Nat) (p : SrcPicture)
  /-- PACING_SEND (R293). -/
  | pacingSend (leg : Nat)
  /-- FWD_BACKLOG (R294). -/
  | fwdBacklog (leg : Nat)
  /-- FWD_WAIT_KEY (R290). -/
  | fwdWaitKey (leg entry : Nat)
  /-- SENDER_REPORT (R285). -/
  | senderReport (leg : Nat)
  /-- WLAN_ROLE_SET (R297). -/
  | wlanRoleSet (c : Cmd)
  /-- BSS_CREATE (R299). -/
  | bssCreate (c : Cmd)
  /-- BSS_DELETE (R303). -/
  | bssDelete (c : Cmd)
  /-- STA_ADMIT (R305). -/
  | staAdmit (c : Cmd)
  /-- STA_REMOVE (R306). -/
  | staRemove (c : Cmd)
  /-- STA_QUERY (R304). -/
  | staQuery (c : Cmd)
  /-- TWT_SET (R308). -/
  | twtSet (c : Cmd)
  /-- WUR_SET (R316). -/
  | wurSet (c : Cmd)
  /-- SCAN_START (R318). -/
  | scanStart (c : Cmd)
  /-- WLAN_PPDU_RECEIVE (R311). -/
  | wlanPpduReceive (p : Ppdu)
  /-- REORDER_HOLD_TIMEOUT (R313). -/
  | reorderHoldTimeout (sta tid : Nat)
  /-- STA_PROGRESS_TIMEOUT (R305). -/
  | staProgressTimeout (sta : Nat)
  /-- STA_REQUEST_TIMEOUT (R306). -/
  | staRequestTimeout (sta : Nat)
  /-- STA_IDLE_PROBE (R306). -/
  | staIdleProbe (sta : Nat) (acked : Bool)
  /-- STA_LEAVE (R306). -/
  | staLeave (sta : Nat)
  /-- DL_TXOP_SCHEDULE (R307). -/
  | dlTxopSchedule (radio ac : Nat) (served : List TxopUser)
  /-- TWT_SERVICE_PERIOD (R309). -/
  | twtServicePeriod (sta id : Nat) (frame : Option Int)
  /-- UNREACH_HOLD_EXPIRY (R310). -/
  | unreachHoldExpiry (sta : Nat)
  /-- CHANNEL_SWITCH_MOVE (R303). -/
  | channelSwitchMove (radio : Nat)
  /-- BSS_COLOUR_CHANGE (R303). -/
  | bssColourChange (bss radio colour : Nat)
  /-- HANDSHAKE_RETRY (R314). -/
  | handshakeRetry (sta : Nat)
  /-- GTK_REKEY (R315). -/
  | gtkRekey (bss : Nat)
  /-- BEACON_TRANSMIT (R324). -/
  | beaconTransmit (bss radio : Nat)
  /-- WUR_BEACON (R316). -/
  | wurBeacon
  /-- WUR_WAKE_SEND (R317). -/
  | wurWakeSend (sta : Nat) (answered : Bool)
  /-- WUR_WAKE_FAIL (R317). -/
  | wurWakeFail (sta : Nat)
  /-- BEACON_LOSS (R318). -/
  | beaconLoss (sta radio : Nat)
  /-- RADIO_STATE_SET (R320). -/
  | radioStateSet (c : Cmd)
  /-- RADIO_CHANNEL_SET (R326). -/
  | radioChannelSet (c : Cmd)
  /-- RADIO_POWER_SET (R328). -/
  | radioPowerSet (c : Cmd)
  /-- RADIO_CAL (R333). -/
  | radioCal (c : Cmd)
  /-- FEM_CONFIG (R335). -/
  | femConfig (c : Cmd)
  /-- RADIO_QUERY (R320). -/
  | radioQuery (c : Cmd)
  /-- SYNTH_LOCK (R320). -/
  | synthLock (radio : Nat) (v : CalFacts)
  /-- TRANSMIT_REQUEST (R323). -/
  | transmitRequest (radio earliest latest kind index : Nat)
  /-- TRANSMIT_END (R320). -/
  | transmitEnd (radio : Nat) (m : List ChainMeas)
  /-- SYNTH_UNLOCK (R325). -/
  | synthUnlock (radio : Nat)
  /-- CLEARING (R332). -/
  | clearing (radio : Nat) (free : Bool) (temp : Int)
  /-- CALIBRATION_COMPLETE (R334). -/
  | calibrationComplete (radio : Nat) (v : CalFacts)
  /-- AERIAL_PROBE (R337). -/
  | aerialProbe (chain rl : Nat)
  /-- BIAS_FAULT (R339). -/
  | biasFault (chain : Nat)
  /-- BIAS_RETRY (R339). -/
  | biasRetry (chain : Nat) (ok : Bool)
  /-- WUR_FRAME_ACCEPT (R342). -/
  | wurFrameAccept (fcsOk : Bool) (id : Nat) (rssi : Int)
  /-- TIME_DOMAIN_SET (R346). -/
  | timeDomainSet (c : Cmd)
  /-- TIME_SELECT (R347). -/
  | timeSelect (c : Cmd)
  /-- TIME_STEP (R350). -/
  | timeStep (c : Cmd)
  /-- TS_QUEUE_READ (R354). -/
  | tsQueueRead (c : Cmd)
  /-- PPS_CONFIG (R356). -/
  | ppsConfig (c : Cmd)
  /-- TIME_QUERY (R344). -/
  | timeQuery (c : Cmd)
  /-- DOMAIN_TIMEOUT (R346). -/
  | domainTimeout (dom : Nat) (announce : Bool)
  /-- DOMAIN_TAKEOVER (R347). -/
  | domainTakeover (dom : Nat)
  /-- SLEW_COMPLETE (R348). -/
  | slewComplete
  /-- REFCLK_LOST (R351). -/
  | refclkLost (cause : Nat)
  /-- REFCLK_RESTORED (R352). -/
  | refclkRestored
  /-- PPS_OUT_EDGE (R356). -/
  | ppsOutEdge
  /-- PPS_IN_EDGE (R356). -/
  | ppsInEdge
  /-- TS_QUEUE_INSERT (R354). -/
  | tsQueueInsert (queue id port flags : Nat)
  /-- CAP_SESSION_CREATE (R358). -/
  | capSessionCreate (c : Cmd)
  /-- CAP_FILTER_SET (R361). -/
  | capFilterSet (c : Cmd)
  /-- CAP_TRIGGER_SET (R369). -/
  | capTriggerSet (c : Cmd)
  /-- CAP_START (R367). -/
  | capStart (c : Cmd)
  /-- CAP_STOP (R359). -/
  | capStop (c : Cmd)
  /-- CAP_READOUT (R366). -/
  | capReadout (c : Cmd)
  /-- REPLAY_LOAD (R371). -/
  | replayLoad (c : Cmd)
  /-- REPLAY_START (R375). -/
  | replayStart (c : Cmd)
  /-- REPLAY_STOP (R375). -/
  | replayStop (c : Cmd)
  /-- CAP_QUERY (R359). -/
  | capQuery (c : Cmd)
  /-- CAPTURE_TRIGGER_INSTANT (R369). -/
  | captureTriggerInstant (session : Nat)
  /-- REPLAY_PREFETCH (R372). -/
  | replayPrefetch (session : Nat)
  /-- REPLAY_RECORD_SEND (R372). -/
  | replayRecordSend (session : Nat) (missed radioRefused : Bool) (delayUs : Nat)
  /-- FW_LOAD (R92). -/
  | fwLoad (c : Cmd)
  /-- FW_ACTIVATE (R93). -/
  | fwActivate (c : Cmd)
  /-- FW_ACCEPT_UNTESTED (R91). -/
  | fwAcceptUntested (c : Cmd)
  /-- FW_QUERY (R93). -/
  | fwQuery (c : Cmd)
  /-- OTP_READ (R95). -/
  | otpRead (c : Cmd)
  /-- OTP_PROGRAM (R95). -/
  | otpProgram (c : Cmd)
  /-- RESET_PIN (R82). -/
  | resetPin (lowNs : Nat)
  /-- POWER_ON (R82). -/
  | powerOn
  /-- BROWN_OUT (R82). -/
  | brownOut (rail us : Nat)
  /-- WATCHDOG (R82). -/
  | watchdog (stuckMs : Nat)
  /-- KINDLING_BOOT (R84). -/
  | kindlingBoot (v : BootFacts)
  /-- SUPPLY_RECHECK (R398). -/
  | supplyRecheck (vmon : List (Nat × Nat))
  /-- PORT_LINK (R52). -/
  | portLink (port : Nat) (up : Bool) (lanes gen : Nat)
  /-- DEADLINE_RELEASE (R25). -/
  | deadlineRelease (d : Deadline)
  /-- FAB_LINK_FAULT (R40). -/
  | fabLinkFault (junction dir link cause : Nat)
  /-- FAB_JUNCTION_FAULT (R42). -/
  | fabJunctionFault (junction : Nat)
  /-- FAB_REROUTE_DONE (R41). -/
  | fabRerouteDone (junctions ns : Nat)
  /-- FAB_DAMPER_LONG (R39). -/
  | fabDamperLong (junction vc : Nat)
  /-- PWR_STATE_SET (R381). -/
  | pwrStateSet (c : Cmd)
  /-- PWR_WAKE_SET (R383). -/
  | pwrWakeSet (c : Cmd)
  /-- PWR_QUERY (R385). -/
  | pwrQuery (c : Cmd)
  /-- HLT_QUERY (R390). -/
  | hltQuery (c : Cmd)
  /-- HLT_MARGIN_QUERY (R389). -/
  | hltMarginQuery (c : Cmd)
  /-- HLT_SPARE_QUERY (R392). -/
  | hltSpareQuery (c : Cmd)
  /-- ENTRY_STEP_COMPLETE (R381). -/
  | entryStepComplete (fault : Bool)
  /-- DRAIN_TIMEOUT (R381). -/
  | drainTimeout
  /-- PWR_WAKE_EVENT (R383). -/
  | pwrWakeEvent (source : Nat)
  /-- WAKE_STEP_READY (R386). -/
  | wakeStepReady (lostBanks : List Nat) (memTemp : Int)
  /-- WAKE_STEP_TIMEOUT (R386). -/
  | wakeStepTimeout
  /-- THERMAL_HIGH (R387). -/
  | thermalHigh (sensor : Nat) (reading : Int)
  /-- THERMAL_TRIP (R387). -/
  | thermalTrip (sensor : Nat) (reading : Int)
  /-- MARGIN_PLAN (R388). -/
  | marginPlan (rates : List (List Nat)) (floorRate headroom : Nat)
  /-- CANARY_MEASURE (R388). -/
  | canaryMeasure (rates : List Nat)
  /-- ENGINE_SELFTEST (R390). -/
  | engineSelftest (subsys engine : Nat) (pass : Bool)
  /-- ENGINE_MIGRATED (R392). -/
  | engineMigrated (subsys engine cause takeoverUs : Nat)
  /-- SUPPLY_FAULT (R399). -/
  | supplyFault (rail mv us : Nat)
  /-- SYNTH_RELOCK_TIMEOUT (R325). -/
  | synthRelockTimeout (radio : Nat)
  /-- SCAN_DONE (R318). -/
  | scanDone (radio : Nat) (found : List ScanEntry)
deriving DecidableEq, Repr

end Sys2Proof
end

