-- ==== Sys2Proof/Decode.lean ====
section
/-! DEFINITION. Decode.lean: the commands that words of the opcode table spell. -/

namespace Sys2Proof

/-- The command a word of the table spells. Every row of spec/opcode_table.json has an empty list of
fields: the device takes packets, register writes and events, not instruction words. -/
def decodeTableWord (_nbits _w : Nat) : Option Instr := none

end Sys2Proof
end

