-- ==== Sys2Proof/Machine/Operands.lean ====
section
/-! DEFINITION. Machine/Operands.lean: the fields of packets. Multi-byte fields are little-endian
(R6); bit ranges are written [msb:lsb] as the spec writes them. -/

namespace Sys2Proof.Machine

/-- The byte at offset `o` of a parameter block; a missing byte reads zero, which the PARAM_LEN
check of R409 keeps from mattering. -/
def u8 (p : List Byte) (o : Nat) : Nat := (p.getD o 0).toNat

/-- `n` bytes from offset `o` as a little-endian number (R6). -/
def uN (p : List Byte) (o : Nat) : Nat → Nat
  | 0 => 0
  | n + 1 => u8 p o + 256 * uN p (o + 1) n

/-- The 2-byte field at `o`. -/
def u16 (p : List Byte) (o : Nat) : Nat := uN p o 2

/-- The 4-byte field at `o`. -/
def u32 (p : List Byte) (o : Nat) : Nat := uN p o 4

/-- The 8-byte field at `o`. -/
def u64 (p : List Byte) (o : Nat) : Nat := uN p o 8

/-- `x`, a number of `bits` bits, read as two's complement. -/
def signed (bits x : Nat) : Int :=
  if x % 2 ^ bits < 2 ^ (bits - 1) then (x % 2 ^ bits : Nat) else ((x % 2 ^ bits : Nat) : Int) - (2 ^ bits : Nat)

/-- The signed 1-byte field at `o`. -/
def i8 (p : List Byte) (o : Nat) : Int := signed 8 (u8 p o)

/-- The signed 2-byte field at `o`. -/
def i16 (p : List Byte) (o : Nat) : Int := signed 16 (u16 p o)

/-- The signed 4-byte field at `o`. -/
def i32 (p : List Byte) (o : Nat) : Int := signed 32 (u32 p o)

/-- The signed 8-byte field at `o`. -/
def i64 (p : List Byte) (o : Nat) : Int := signed 64 (u64 p o)

/-- `v` in two's complement of `bits` bits. -/
def toTwos (bits : Nat) (v : Int) : Nat := (v % (2 ^ bits : Nat)).toNat

/-- Bits [hi:lo] of `x`. -/
def bits (x hi lo : Nat) : Nat := x / 2 ^ lo % 2 ^ (hi - lo + 1)

/-- Bit `n` of `x`. -/
def bit (x n : Nat) : Bool := x / 2 ^ n % 2 == 1

/-- One bit as a number. -/
def b2n (b : Bool) : Nat := if b then 1 else 0

/-- `x` as `n` little-endian bytes (R6). -/
def leN (x : Nat) : Nat → List Byte
  | 0 => []
  | n + 1 => BitVec.ofNat 8 x :: leN (x / 256) n

/-- The bytes `o … o + n − 1` of a block. -/
def slice (p : List Byte) (o n : Nat) : List Byte := (p.drop o).take n

/-- `p` cut or filled with zero bytes to `n` bytes. -/
def fit (p : List Byte) (n : Nat) : List Byte := (p ++ List.replicate (n - p.length) 0).take n

/-- The class [31:24] of an object handle (Table 3-6). -/
def hCls (h : Word) : Nat := bits h.toNat 31 24

/-- The index [23:0] of an object handle. -/
def hIdx (h : Word) : Nat := bits h.toNat 23 0

/-- The handle of object `idx` of class `cls` (Table 3-6). -/
def mkH (cls idx : Nat) : Word := BitVec.ofNat 32 (cls * 2 ^ 24 + idx % 2 ^ 24)

/-- The index that asks the device to choose one (R16). -/
def idxChoose : Nat := 0xFFFFFF

/-- The device object, 0x0100_0000 (R78). -/
def devH : Word := 0x01000000

/-- Round `n` up to a multiple of 8 (R409, R48). -/
def up8 (n : Nat) : Nat := (n + 7) / 8 * 8

/-- One byte into a CRC-32 register, bit by bit (IEEE 802.3, reflected). -/
def crcStep (c : Nat) : Nat → Nat
  | 0 => c
  | n + 1 => crcStep (if c % 2 = 1 then Nat.xor (c / 2) 0xEDB88320 else c / 2) n

/-- CRC-32 (IEEE 802.3 polynomial) of a block (Table 4-5, R94). -/
def crc32 (p : List Byte) : Nat :=
  Nat.xor (p.foldl (fun c b => crcStep (Nat.xor c b.toNat) 8) 0xFFFFFFFF) 0xFFFFFFFF

/-- The lowest-offset complaint among checks listed in parameter order (R409): each entry is the
condition that must hold and the complaint where it does not. -/
def firstBad {ε : Type} : List (Bool × ε) → Option ε
  | [] => none
  | (ok, e) :: t => if ok then firstBad t else some e

end Sys2Proof.Machine
end

