-- ==== Sys2Proof/Machine/Flags.lean ====
section
/-! DEFINITION. Machine/Flags.lean: status codes (Table 3-14 and the chapters' tables), event kinds with
their subsystem and severity, saturating counts and status bits. -/

namespace Sys2Proof.Machine

/-- An event's code, subsystem number and severity, as its chapter's table gives them. -/
structure EvKind where
  code     : Nat
  subsys   : Nat
  severity : Nat
deriving DecidableEq, Repr

/-- A refusal of a command: its status and DETAIL (Table 3-14). -/
structure Err where
  status : Nat
  detail : Nat := 0
deriving DecidableEq, Repr

def St.OK : Nat := 0x0000
def St.OK_PARTIAL : Nat := 0x0001
def St.BAD_OPCODE : Nat := 0x0100
def St.BAD_PARAM : Nat := 0x0101
def St.BAD_HANDLE : Nat := 0x0102
def St.LEASE_CONFLICT : Nat := 0x0103
def St.NOT_PERMITTED : Nat := 0x0104
def St.NO_RESOURCE : Nat := 0x0200
def St.DAMPED : Nat := 0x0201
def St.WRONG_STATE : Nat := 0x0300
def St.ABORTED : Nat := 0x0301
def St.ABORT_TOO_LATE : Nat := 0x0302
def St.RADIO_NOT_READY : Nat := 0x0303
def St.NONCE_EXHAUSTED : Nat := 0x0304
def St.KEY_REVOKED : Nat := 0x0305
def St.TIME_PASSED : Nat := 0x0306
def St.SAFE_HOLD : Nat := 0x0307
def St.FAULT_PARTIAL : Nat := 0x0400
def St.FAULT_MIGRATED : Nat := 0x0401
def St.RETENTION_LOST : Nat := 0x0402
def St.NO_TRAINING_WINDOW : Nat := 0x0403
def St.IMAGE_REJECTED : Nat := 0x0F01
def St.POLICY_FORBIDS : Nat := 0x0F02
def St.OTP_LOCKED : Nat := 0x0F03
def St.OTP_PROGRAM_FAIL : Nat := 0x0F04
def St.FLASH_FAIL : Nat := 0x0F05
def St.DATA_LOST : Nat := 0x0540
def St.FLOW_KEY_EXISTS : Nat := 0x0601
def St.KEY_OWNER_MISMATCH : Nat := 0x0640
def St.MIX_ROUTE_INVALID : Nat := 0x0701
def St.MIX_FORCED_FULL : Nat := 0x0702
def St.DSP_IMAGE_INVALID : Nat := 0x0720
def St.DSP_PROGRAM_IN_USE : Nat := 0x0721
def St.DSP_BIND_INVALID : Nat := 0x0722
def St.ASP_NO_CLOCK : Nat := 0x0740
def St.DEC_UNSUPPORTED : Nat := 0x0801
def St.CMP_LAYOUT_INVALID : Nat := 0x0802
def St.ENC_UNSUPPORTED : Nat := 0x0901
def St.FWD_ENTRY_INVALID : Nat := 0x0902
def St.WLAN_ROLE_CONFLICT : Nat := 0x0A01
def St.STA_REFUSED : Nat := 0x0A02
def St.TWT_REJECTED : Nat := 0x0A03
def St.AUTH_FAILED : Nat := 0x0A04
def St.CHANNEL_REFUSED : Nat := 0x0B01
def St.RADIO_CAL_FAILED : Nat := 0x0B02
def St.FEM_CONFIG_INVALID : Nat := 0x0B03
def St.TIME_DOMAIN_UNQUALIFIED : Nat := 0x0C01
def St.REPLAY_PATTERN_INVALID : Nat := 0x0D01
def St.REPLAY_TARGET_INVALID : Nat := 0x0D02
def St.PWR_REFUSED : Nat := 0x0E01
def St.PWR_ABORTED : Nat := 0x0E02

def Ev.LEG_STATE : EvKind := ⟨0x0201, 0x01, 1⟩
def Ev.DEADLINE_MISS : EvKind := ⟨0x1280, 0x03, 2⟩
def Ev.FAB_LINK_FAULT : EvKind := ⟨0x1281, 0x03, 2⟩
def Ev.FAB_JUNCTION_FAULT : EvKind := ⟨0x1282, 0x03, 3⟩
def Ev.FAB_REROUTE_DONE : EvKind := ⟨0x1283, 0x03, 1⟩
def Ev.FAB_DAMPER_LONG : EvKind := ⟨0x1284, 0x03, 2⟩
def Ev.FAB_UNREACHABLE : EvKind := ⟨0x1285, 0x03, 4⟩
def Ev.EVENT_OVERFLOW : EvKind := ⟨0x0180, 0x02, 2⟩
def Ev.LEASE_EXPIRED : EvKind := ⟨0x0181, 0x01, 2⟩
def Ev.LEASE_BROKEN : EvKind := ⟨0x0182, 0x01, 2⟩
def Ev.RING_ERROR : EvKind := ⟨0x0183, 0x02, 3⟩
def Ev.PORT_LINK : EvKind := ⟨0x0184, 0x02, 2⟩
def Ev.PORT_PRIV_CHANGED : EvKind := ⟨0x0185, 0x02, 1⟩
def Ev.FW_VERIFY_FAIL : EvKind := ⟨0x1180, 0x19, 2⟩
def Ev.FW_FALLBACK : EvKind := ⟨0x1181, 0x19, 3⟩
def Ev.SAFE_HOLD_ENTERED : EvKind := ⟨0x1182, 0x19, 3⟩
def Ev.OTP_PROGRAMMED : EvKind := ⟨0x1183, 0x19, 1⟩
def Ev.OTP_INTEGRITY : EvKind := ⟨0x1184, 0x19, 2⟩
def Ev.FW_CONFIRMED : EvKind := ⟨0x1185, 0x19, 1⟩
def Ev.FLUE_CORRUPT : EvKind := ⟨0x1290, 0x04, 2⟩
def Ev.DSX_TASK_LATE : EvKind := ⟨0x1298, 0x05, 2⟩
def Ev.SRAM_ROW_SPARED : EvKind := ⟨0x12A0, 0x06, 1⟩
def Ev.SRAM_UNCORRECTABLE : EvKind := ⟨0x12A1, 0x06, 3⟩
def Ev.SRAM_SPARES_LOW : EvKind := ⟨0x12A2, 0x06, 2⟩
def Ev.DRAM_UNCORRECTABLE : EvKind := ⟨0x12A8, 0x07, 3⟩
def Ev.DRAM_SETPOINT : EvKind := ⟨0x12A9, 0x07, 1⟩
def Ev.DRAM_CHANNEL_RETIRED : EvKind := ⟨0x12AA, 0x07, 3⟩
def Ev.DRAM_MIRROR_LOST : EvKind := ⟨0x12AB, 0x07, 2⟩
def Ev.DRAM_MIRROR_RESTORED : EvKind := ⟨0x12AC, 0x07, 1⟩
def Ev.DRAM_OVERCOMMIT : EvKind := ⟨0x12AD, 0x07, 2⟩
def Ev.DRAM_FIGURES : EvKind := ⟨0x12AE, 0x07, 1⟩
def Ev.ETH_LINK : EvKind := ⟨0x0A80, 0x08, 2⟩
def Ev.ETH_LANE_CORRECTED : EvKind := ⟨0x0A81, 0x08, 1⟩
def Ev.FLOW_REHASH : EvKind := ⟨0x0A82, 0x08, 1⟩
def Ev.PKT_BUF_EXHAUSTED : EvKind := ⟨0x0A83, 0x08, 2⟩
def Ev.NAT_EXHAUSTED : EvKind := ⟨0x0A84, 0x08, 2⟩
def Ev.KEY_NONCE_WARN : EvKind := ⟨0x0B80, 0x09, 2⟩
def Ev.KEY_NONCE_EXHAUSTED : EvKind := ⟨0x0B81, 0x09, 3⟩
def Ev.MIX_TALKERS : EvKind := ⟨0x0380, 0x0B, 0⟩
def Ev.MIX_CLIP : EvKind := ⟨0x0381, 0x0B, 2⟩
def Ev.MIX_LATE_INPUT : EvKind := ⟨0x0382, 0x0B, 3⟩
def Ev.MIX_PARAM_APPLIED : EvKind := ⟨0x0383, 0x0B, 1⟩
def Ev.JB_RESYNC : EvKind := ⟨0x0388, 0x0A, 1⟩
def Ev.VCA_FRAME_MISMATCH : EvKind := ⟨0x0389, 0x0A, 2⟩
def Ev.VCA_CONCEAL_LONG : EvKind := ⟨0x038A, 0x0A, 2⟩
def Ev.DSP_TRAP : EvKind := ⟨0x0580, 0x0C, 3⟩
def Ev.DSP_BYPASS : EvKind := ⟨0x0581, 0x0C, 2⟩
def Ev.ASP_CLOCK_LOST : EvKind := ⟨0x0480, 0x0D, 2⟩
def Ev.ASP_RATE_CHANGE : EvKind := ⟨0x0481, 0x0D, 2⟩
def Ev.ASP_MASK_APPLIED : EvKind := ⟨0x0482, 0x0D, 1⟩
def Ev.ASP_PIN_FAULT : EvKind := ⟨0x0483, 0x0D, 2⟩
def Ev.ASP_PIN_CLEARED : EvKind := ⟨0x0484, 0x0D, 1⟩
def Ev.ASP_CLOCK_RESTORED : EvKind := ⟨0x0485, 0x0D, 1⟩
def Ev.REF_MISSING : EvKind := ⟨0x0680, 0x0E, 2⟩
def Ev.DEC_LIMIT : EvKind := ⟨0x0681, 0x0E, 2⟩
def Ev.DEC_NO_KEY : EvKind := ⟨0x0682, 0x0E, 2⟩
def Ev.CMP_SOURCE_LOST : EvKind := ⟨0x0780, 0x0F, 2⟩
def Ev.CMP_LATE : EvKind := ⟨0x0781, 0x0F, 3⟩
def Ev.ENC_FLOOR : EvKind := ⟨0x0880, 0x10, 2⟩
def Ev.ENC_KEY : EvKind := ⟨0x0881, 0x10, 1⟩
def Ev.BWE_NO_FEEDBACK : EvKind := ⟨0x0980, 0x11, 2⟩
def Ev.FWD_BACKLOG : EvKind := ⟨0x0981, 0x11, 2⟩
def Ev.FWD_WAIT_KEY : EvKind := ⟨0x0982, 0x11, 2⟩
def Ev.STA_ASSOC : EvKind := ⟨0x0C80, 0x12, 1⟩
def Ev.STA_LEAVE : EvKind := ⟨0x0C81, 0x12, 1⟩
def Ev.STA_REQUEST : EvKind := ⟨0x0C82, 0x12, 1⟩
def Ev.STA_UNREACHABLE : EvKind := ⟨0x0C83, 0x12, 2⟩
def Ev.BEACON_LOSS : EvKind := ⟨0x0C84, 0x12, 2⟩
def Ev.AUTH_FAIL : EvKind := ⟨0x0C85, 0x12, 2⟩
def Ev.WUR_WAKE_FAIL : EvKind := ⟨0x0C86, 0x12, 2⟩
def Ev.MLO_LINK_CHANGE : EvKind := ⟨0x0C87, 0x12, 1⟩
def Ev.BSS_COLOUR_CHANGE : EvKind := ⟨0x0C88, 0x12, 1⟩
def Ev.SCAN_DONE : EvKind := ⟨0x0C89, 0x12, 1⟩
def Ev.RADIO_STATE : EvKind := ⟨0x0D80, 0x14, 1⟩
def Ev.SYNTH_UNLOCK : EvKind := ⟨0x0D81, 0x14, 2⟩
def Ev.CAL_FAILED : EvKind := ⟨0x0D82, 0x14, 2⟩
def Ev.POWER_LIMITED : EvKind := ⟨0x0D83, 0x14, 1⟩
def Ev.AERIAL_FAULT : EvKind := ⟨0x0D84, 0x14, 2⟩
def Ev.AERIAL_RESTORED : EvKind := ⟨0x0D85, 0x14, 1⟩
def Ev.AERIAL_BAND_MISMATCH : EvKind := ⟨0x0D86, 0x14, 2⟩
def Ev.BIAS_FAULT : EvKind := ⟨0x0D87, 0x14, 2⟩
def Ev.RFFE_FAULT : EvKind := ⟨0x0D88, 0x14, 2⟩
def Ev.TIME_DOMAIN_STATE : EvKind := ⟨0x0E80, 0x15, 1⟩
def Ev.TIME_SWITCH : EvKind := ⟨0x0E81, 0x15, 1⟩
def Ev.TIME_HOLDOVER : EvKind := ⟨0x0E82, 0x15, 2⟩
def Ev.TIME_STEPPED : EvKind := ⟨0x0E83, 0x15, 1⟩
def Ev.TIME_OFFSET_LARGE : EvKind := ⟨0x0E84, 0x15, 2⟩
def Ev.REFCLK_LOST : EvKind := ⟨0x0E85, 0x15, 3⟩
def Ev.REFCLK_RESTORED : EvKind := ⟨0x0E86, 0x15, 1⟩
def Ev.TS_QUEUE_OVERFLOW : EvKind := ⟨0x0E87, 0x15, 2⟩
def Ev.SYNCE_SQUELCH : EvKind := ⟨0x0E88, 0x15, 2⟩
def Ev.CAP_TRIGGERED : EvKind := ⟨0x0F80, 0x16, 1⟩
def Ev.CAP_DONE : EvKind := ⟨0x0F81, 0x16, 1⟩
def Ev.CAP_LOSS : EvKind := ⟨0x0F82, 0x16, 2⟩
def Ev.REPLAY_DONE : EvKind := ⟨0x0F83, 0x16, 1⟩
def Ev.REPLAY_LATE : EvKind := ⟨0x0F84, 0x16, 2⟩
def Ev.PWR_STATE : EvKind := ⟨0x1080, 0x17, 1⟩
def Ev.PWR_ENTRY_REFUSED : EvKind := ⟨0x1081, 0x17, 1⟩
def Ev.PWR_WAKE_EVENT : EvKind := ⟨0x1082, 0x17, 1⟩
def Ev.RETENTION_LOST : EvKind := ⟨0x1083, 0x17, 3⟩
def Ev.MARGIN_LOW : EvKind := ⟨0x1090, 0x18, 2⟩
def Ev.MARGIN_REPLAN : EvKind := ⟨0x1091, 0x18, 3⟩
def Ev.ENGINE_MIGRATED : EvKind := ⟨0x1092, 0x18, 2⟩
def Ev.SPARES_EXHAUSTED : EvKind := ⟨0x1093, 0x18, 2⟩
def Ev.THERMAL_HIGH : EvKind := ⟨0x1094, 0x18, 2⟩
def Ev.THERMAL_TRIP : EvKind := ⟨0x1095, 0x18, 4⟩
def Ev.ENGINE_UNCOVERED : EvKind := ⟨0x1096, 0x18, 4⟩
def Ev.SUPPLY_FAULT : EvKind := ⟨0x1097, 0x18, 4⟩

/-- BAD_PARAM at a parameter offset, or at 0x8000 + a header offset (R409). -/
def badParam (o : Nat) : Err := ⟨St.BAD_PARAM, o⟩

/-- WRONG_STATE with a detail. -/
def wrongState (d : Nat) : Err := ⟨St.WRONG_STATE, d⟩

/-- NO_RESOURCE naming a pool. -/
def noResource (d : Nat) : Err := ⟨St.NO_RESOURCE, d⟩

/-- A counter of `w` bits that saturates at its maximum (R9). -/
def satAdd (w a b : Nat) : Nat := min (a + b) (2 ^ w - 1)

/-- Write-1-to-clear (Table 0-7). -/
def w1c (old written : Nat) : Nat := Nat.xor old (Nat.land old written)

/-- A masked write: (reg and not MASK) or (VALUE and MASK) (R81). -/
def maskedWrite (old mask value : Nat) : Nat :=
  Nat.lor (w1c old mask) (Nat.land value mask)

/-- `x` with bit `n` set or cleared. -/
def setBit (x n : Nat) (v : Bool) : Nat :=
  if bit x n == v then x else if v then x + 2 ^ n else x - 2 ^ n

/-- Clamp to `lo … hi`. -/
def clampN (lo hi x : Nat) : Nat := max lo (min hi x)

/-- Clamp an integer to `lo … hi`. -/
def clampI (lo hi x : Int) : Int := max lo (min hi x)

end Sys2Proof.Machine
end

