-- ==== Sys2Proof/Machine/Memory.lean ====
section
/-! DEFINITION. Machine/Memory.lean: byte memories as lists of (address, byte) in one canonical
form: addresses strictly rising, no byte that an unlisted address reads as. An unlisted address
reads zero (notes/assumptions/2.md). -/

namespace Sys2Proof.Machine

/-- What an address that is not listed reads as. DESIGN CHOICE (notes/assumptions/2.md). -/
def Memory.fill : Byte := 0

/-- The byte at `a`. -/
def Memory.read : List Host.Cell → Nat → Byte
  | [], _ => Memory.fill
  | (k, b) :: m, a => if k = a then b else Memory.read m a

/-- The memory with `b` at `a`, in canonical form. -/
def Memory.write : List Host.Cell → Nat → Byte → List Host.Cell
  | [], a, b => if b = Memory.fill then [] else [(a, b)]
  | (k, c) :: m, a, b =>
    if a < k then (if b = Memory.fill then (k, c) :: m else (a, b) :: (k, c) :: m)
    else if a = k then (if b = Memory.fill then m else (a, b) :: m)
    else (k, c) :: Memory.write m a b

/-- The `n` bytes from `a`. -/
def Memory.readN (m : List Host.Cell) (a : Nat) : Nat → List Byte
  | 0 => []
  | n + 1 => Memory.read m a :: Memory.readN m (a + 1) n

/-- The memory with `bs` from `a`. -/
def Memory.writeN (m : List Host.Cell) (a : Nat) : List Byte → List Host.Cell
  | [] => m
  | b :: bs => Memory.writeN (Memory.write m a b) (a + 1) bs

/-- Every byte of `a … a + n − 1` back to what an unlisted address reads as. -/
def Memory.clear (m : List Host.Cell) (a n : Nat) : List Host.Cell :=
  m.filter fun c => decide (c.1 < a) || decide (a + n ≤ c.1)

/-- The canonical form holds. -/
def Memory.wf : List Host.Cell → Bool
  | [] => true
  | [(_, b)] => decide (b ≠ Memory.fill)
  | (j, b) :: (k, c) :: m => decide (b ≠ Memory.fill) && decide (j < k) && Memory.wf ((k, c) :: m)

end Sys2Proof.Machine
end

