-- ==== Sys2Proof/Machine/RegMap.lean ====
section
/-! DEFINITION. Machine/RegMap.lean: the registers of BAR0 (Tables 2-6 to 17-15): one name and one row each,
with access code, words, reset value, the bits software can write, and the select register of its window. -/

namespace Sys2Proof.Machine

/-- Access codes (Table 0-7). -/
inductive Access where
  | rw | ro | rc | w1c | wo | sl
deriving DecidableEq, Repr

/-- One row of a register table: `count` instances of `words` words (2 for a 64-bit register, R9),
`stride` bytes apart from BAR0 offset `base`. `mask` holds the bits that are not reserved in a
writable register (R7). `sel` is the offset of the select register of its window, 0 for none. -/
structure RegRow where
  base   : Nat
  count  : Nat
  stride : Nat
  words  : Nat
  acc    : Access
  reset  : Nat
  mask   : Nat
  sel    : Nat
deriving DecidableEq, Repr

namespace R

abbrev DEV_IDENT : Nat := 0x00000000
abbrev DEV_STATUS : Nat := 0x00000004
abbrev DEV_ALARM : Nat := 0x00000008
abbrev DEV_SAFE_REASON : Nat := 0x0000000C
abbrev DEV_IGNORED_WRITES : Nat := 0x00000010
abbrev DEV_LAST_IGNORED : Nat := 0x00000018
abbrev DEV_OUTSTANDING : Nat := 0x0000001C
abbrev DEV_TIME : Nat := 0x00000020
abbrev DEV_CMD_DONE : Nat := 0x00000028
abbrev DEV_UPTIME : Nat := 0x00000030
abbrev DEV_LEASES : Nat := 0x00000038
abbrev DEV_TIMED_PENDING : Nat := 0x0000003C
abbrev DEV_DB_SETUP : Nat := 0x00000040
abbrev DEV_DB_SETUP_HI : Nat := 0x00000044
abbrev DEV_HEARTBEAT : Nat := 0x00000060
abbrev DEV_DB_SQ_TAIL : Nat := 0x00000100
abbrev DEV_DB_RPL_HEAD : Nat := 0x00000104
abbrev DEV_DB_EVT_HEAD : Nat := 0x00000108
abbrev HPI_PORT_STATUS : Nat := 0x00800000
abbrev HPI_PORT_LEASES : Nat := 0x00800004
abbrev HPI_PORT_CMDS : Nat := 0x00800008
abbrev HPI_PORT_RPL_DISCARD : Nat := 0x00800010
abbrev HPI_PORT_IGNORED_DB : Nat := 0x00800018
abbrev HPI_LIMITS : Nat := 0x00800080
abbrev HPI_MP_CONFIG : Nat := 0x00800084
abbrev HPI_RING_ERRORS : Nat := 0x00800088
abbrev HPI_RS_STATUS : Nat := 0x00800100
abbrev HPI_RS_ERR_SLOT : Nat := 0x00800104
abbrev HPI_RS_SIZES : Nat := 0x00800108
abbrev HPI_RS_SQ_HEAD : Nat := 0x0080010C
abbrev HPI_RS_RPL_TAIL : Nat := 0x00800110
abbrev HPI_RS_EVT_TAIL : Nat := 0x00800114
abbrev HPI_RS_INT_MASK : Nat := 0x00800118
abbrev HPI_RS_INT_STATUS : Nat := 0x0080011C
abbrev HPI_RS_INT_MOD : Nat := 0x00800120
abbrev HPI_RS_EVT_LOST : Nat := 0x00800124
abbrev HPI_RS_OUTSTANDING : Nat := 0x0080012C
abbrev FAB_CTRL : Nat := 0x00C00000
abbrev FAB_STATUS : Nat := 0x00C00004
abbrev FAB_VC_WEIGHT : Nat := 0x00C00008
abbrev FAB_DAMPER_LIMIT : Nat := 0x00C0000C
abbrev FAB_EVENT_MASK : Nat := 0x00C00010
abbrev FAB_JN_SEL : Nat := 0x00C00014
abbrev FAB_EDGE_SEL : Nat := 0x00C00018
abbrev FAB_LINK_RATE : Nat := 0x00C0001C
abbrev FAB_JN_FLITS_VC : Nat := 0x00C00020
abbrev FAB_JN_DAMPED_VC : Nat := 0x00C00040
abbrev FAB_JN_HOP_RETRY : Nat := 0x00C00060
abbrev FAB_JN_DETOUR : Nat := 0x00C00068
abbrev FAB_DEADLINE_MISS : Nat := 0x00C00070
abbrev FAB_LINK_FAULTS : Nat := 0x00C00078
abbrev FAB_REROUTES : Nat := 0x00C00080
abbrev FAB_EDGE_MISS : Nat := 0x00C00088
abbrev FAB_EDGE_LAST_MISS : Nat := 0x00C00090
abbrev FAB_EDGE_LEAD_MIN : Nat := 0x00C00098
abbrev FAB_MISS_SUM : Nat := 0x00C0009C
abbrev FAB_ROUTE_SEL : Nat := 0x00C000A8
abbrev FAB_ROUTE_ENTRY : Nat := 0x00C000AC
abbrev FAB_JN_STATUS : Nat := 0x00C01000
abbrev FLU_CTRL : Nat := 0x01000000
abbrev FLU_STATUS : Nat := 0x01000004
abbrev FLU_SEL : Nat := 0x01000008
abbrev FLU_EVENT_MASK : Nat := 0x0100000C
abbrev FLU_ACTIVE : Nat := 0x01000010
abbrev FLU_PUSHES : Nat := 0x01000018
abbrev FLU_POPS : Nat := 0x01000020
abbrev FLU_EMPTY_POPS : Nat := 0x01000028
abbrev FLU_CORRUPT_RESETS : Nat := 0x01000030
abbrev FLU_DROP_REMAINDER : Nat := 0x01000038
abbrev FLU_FULL_REJECT : Nat := 0x01000040
abbrev FLU_UNREG_PUSH : Nat := 0x01000048
abbrev FLU_OPEN_RETRY : Nat := 0x01000050
abbrev FLU_BANK_FREE : Nat := 0x01000100
abbrev FLU_BANK_FLUES : Nat := 0x01000104
abbrev FLU_BANK_DAMPED : Nat := 0x01000108
abbrev FLU_BANK_LOAD : Nat := 0x0100010C
abbrev FLU_BANK_OPS : Nat := 0x01000110
abbrev FLU_W_CONFIG : Nat := 0x01000300
abbrev FLU_W_WM : Nat := 0x01000304
abbrev FLU_W_HEAD : Nat := 0x01000308
abbrev FLU_W_READ : Nat := 0x0100030C
abbrev FLU_W_TAIL : Nat := 0x01000310
abbrev FLU_W_STATUS : Nat := 0x01000314
abbrev FLU_W_MAX_OCC : Nat := 0x01000318
abbrev FLU_W_PUSHES : Nat := 0x01000320
abbrev DSX_LEVEL_MODE : Nat := 0x01400000
abbrev DSX_STATUS : Nat := 0x01400004
abbrev DSX_CORE_SEL : Nat := 0x01400008
abbrev DSX_EVENT_MASK : Nat := 0x0140000C
abbrev DSX_TASKS : Nat := 0x01400010
abbrev DSX_DISPATCHES : Nat := 0x01400018
abbrev DSX_PREEMPTS : Nat := 0x01400020
abbrev DSX_INTERRUPTS : Nat := 0x01400028
abbrev DSX_LATE : Nat := 0x01400030
abbrev DSX_GRV_READY : Nat := 0x01400100
abbrev DSX_GRV_LOAD : Nat := 0x01400104
abbrev DSX_GRV_READY_MAX : Nat := 0x01400108
abbrev DSX_C_STATUS : Nat := 0x01400200
abbrev DSX_C_DEPTH_MAX : Nat := 0x01400204
abbrev DSX_C_LOAD : Nat := 0x01400208
abbrev DSX_C_TASKS : Nat := 0x0140020C
abbrev DSX_C_DISPATCHES : Nat := 0x01400210
abbrev DSX_C_PREEMPTS : Nat := 0x01400218
abbrev DSX_C_LATE : Nat := 0x01400220
abbrev DSX_C_WAIT_MAX : Nat := 0x01400228
abbrev DSX_C_HIST_CLEAR : Nat := 0x0140022C
abbrev DSX_C_WAIT_HIST : Nat := 0x01400230
abbrev MEM_CTRL : Nat := 0x01800000
abbrev MEM_STATUS : Nat := 0x01800004
abbrev MEM_BANK_SEL : Nat := 0x01800008
abbrev MEM_EVENT_MASK : Nat := 0x0180000C
abbrev MEM_W_BANK : Nat := 0x01800010
abbrev MEM_DBG_BASE : Nat := 0x01800014
abbrev MEM_CORRECTED : Nat := 0x01800018
abbrev MEM_UNCORRECTABLE : Nat := 0x01800020
abbrev MEM_ROWS_SPARED : Nat := 0x01800028
abbrev MEM_SCRUB_PASSES : Nat := 0x01800030
abbrev MEM_LAST_UE : Nat := 0x01800038
abbrev MEM_PART_BANKS : Nat := 0x01800040
abbrev MEM_POOL_FREE : Nat := 0x01800068
abbrev MEM_G_STATUS : Nat := 0x01800100
abbrev MEM_G_CORRECTED : Nat := 0x01800104
abbrev MEM_G_SPARES : Nat := 0x01800108
abbrev MEM_G_LOAD : Nat := 0x0180010C
abbrev DMC_CTRL : Nat := 0x01C00000
abbrev DMC_STATUS : Nat := 0x01C00004
abbrev DMC_RETIRED : Nat := 0x01C00008
abbrev DMC_RETRAIN_CFG : Nat := 0x01C0000C
abbrev DMC_CAPACITY : Nat := 0x01C00010
abbrev DMC_BW_FLOOR : Nat := 0x01C00014
abbrev DMC_BW_ADMITTED : Nat := 0x01C00018
abbrev DMC_EVENT_MASK : Nat := 0x01C0001C
abbrev DMC_BAR2_MAP : Nat := 0x01C00020
abbrev DMC_BAR2_DROPPED : Nat := 0x01C00030
abbrev DMC_CORRECTED : Nat := 0x01C00038
abbrev DMC_UNCORRECTABLE : Nat := 0x01C00040
abbrev DMC_RETRAINS : Nat := 0x01C00048
abbrev DMC_MIRROR_READS : Nat := 0x01C00050
abbrev DMC_REGIONS : Nat := 0x01C00058
abbrev DMC_CH_STATUS : Nat := 0x01C01000
abbrev DMC_CH_SP_LIMIT : Nat := 0x01C01004
abbrev DMC_CH_CAPACITY : Nat := 0x01C01008
abbrev DMC_CH_LOAD : Nat := 0x01C0100C
abbrev DMC_CH_RD_BYTES : Nat := 0x01C01010
abbrev DMC_CH_WR_BYTES : Nat := 0x01C01018
abbrev DMC_CH_ROW_HITS : Nat := 0x01C01020
abbrev DMC_CH_ROW_CONFLICTS : Nat := 0x01C01028
abbrev DMC_CH_CORRECTED : Nat := 0x01C01030
abbrev DMC_CH_UNCORRECTABLE : Nat := 0x01C01038
abbrev DMC_CH_LINK_ECC : Nat := 0x01C01040
abbrev DMC_CH_RETRAINS : Nat := 0x01C01048
abbrev DMC_CH_TRAIN_RESULT : Nat := 0x01C0104C
abbrev DMC_CH_AGE_MAX : Nat := 0x01C01050
abbrev DMC_CH_THRASH : Nat := 0x01C01054
abbrev DMC_CH_SR_ENTRIES : Nat := 0x01C01058
abbrev DMC_CH_LAST_ERR : Nat := 0x01C0105C
abbrev DMC_CH_SP_STALL_MAX : Nat := 0x01C01060
abbrev DMC_CH_PARTNER : Nat := 0x01C01064
abbrev PKT_CTRL : Nat := 0x02000000
abbrev PKT_STATUS : Nat := 0x02000004
abbrev PKT_FLOW_SEL : Nat := 0x02000008
abbrev PKT_EVENT_MASK : Nat := 0x0200000C
abbrev PKT_FLOWS_USED : Nat := 0x02000010
abbrev PKT_CAM_USED : Nat := 0x02000014
abbrev PKT_CONN_IDLE : Nat := 0x02000018
abbrev PKT_BUF_CFG : Nat := 0x0200001C
abbrev PKT_BUF_FREE : Nat := 0x02000020
abbrev PKT_BUF_MIN_FREE : Nat := 0x02000024
abbrev PKT_REHASH : Nat := 0x02000028
abbrev PKT_LEN_USED : Nat := 0x0200002C
abbrev PKT_LOOKUPS : Nat := 0x02000030
abbrev PKT_MISSES : Nat := 0x02000038
abbrev PKT_DISPLACEMENTS : Nat := 0x02000040
abbrev PKT_DRAINS : Nat := 0x02000048
abbrev PKT_REHASHES : Nat := 0x02000050
abbrev PKT_BUF_DROPS : Nat := 0x02000058
abbrev PKT_TO_HEARTH : Nat := 0x02000060
abbrev PKT_NO_ROUTE : Nat := 0x02000068
abbrev PKT_TTL_EXPIRED : Nat := 0x02000070
abbrev PKT_ACL_DENIED : Nat := 0x02000078
abbrev PKT_NAT_EXHAUSTED : Nat := 0x02000080
abbrev PKT_CONN_CREATED : Nat := 0x02000088
abbrev PKT_CONN_EXPIRED : Nat := 0x02000090
abbrev PKT_FW_ENTRY : Nat := 0x02000100
abbrev PKT_FW_LOC : Nat := 0x02000120
abbrev PKT_FW_HITS : Nat := 0x02000124
abbrev PKT_FW_LAST_HIT : Nat := 0x0200012C
abbrev PKT_LADDR_SEL : Nat := 0x02000200
abbrev PKT_LADDR_W : Nat := 0x02000204
abbrev PKT_LADDR_W_CFG : Nat := 0x02000214
abbrev PKT_NAT_PORTS_FREE : Nat := 0x02000218
abbrev PKT_NBR_USED : Nat := 0x0200021C
abbrev PKT_ROUTES : Nat := 0x02000220
abbrev PKT_ACL_RULES : Nat := 0x02000224
abbrev PKT_CONNS : Nat := 0x02000228
abbrev PKT_BUF_EGRESS_USED : Nat := 0x0200022C
abbrev PKT_BUF_SHARED_USED : Nat := 0x02000230
abbrev PKT_P_CTRL : Nat := 0x02001000
abbrev PKT_P_STATUS : Nat := 0x02001004
abbrev PKT_P_LANES : Nat := 0x02001008
abbrev PKT_P_PTP_DELAY : Nat := 0x0200100C
abbrev PKT_P_SUB_SEL : Nat := 0x02001010
abbrev PKT_P_BER : Nat := 0x02001014
abbrev PKT_P_RX_FRAMES : Nat := 0x02001018
abbrev PKT_P_RX_BYTES : Nat := 0x02001020
abbrev PKT_P_TX_FRAMES : Nat := 0x02001028
abbrev PKT_P_TX_BYTES : Nat := 0x02001030
abbrev PKT_P_RX_FCS_ERR : Nat := 0x02001038
abbrev PKT_P_RX_LEN_ERR : Nat := 0x02001040
abbrev PKT_P_RX_VLAN_DROP : Nat := 0x02001048
abbrev PKT_P_RX_PAUSE_IGNORED : Nat := 0x02001050
abbrev PKT_P_FEC_CORRECTED : Nat := 0x02001058
abbrev PKT_P_FEC_UNCORRECTABLE : Nat := 0x02001060
abbrev PKT_P_RX_BUF_DROPS : Nat := 0x02001068
abbrev PKT_P_TX_DOWN_DROPS : Nat := 0x02001070
abbrev PKT_P_MACSEC_IN_OK : Nat := 0x02001078
abbrev PKT_P_MACSEC_IN_NOT_VALID : Nat := 0x02001080
abbrev PKT_P_MACSEC_IN_LATE : Nat := 0x02001088
abbrev PKT_P_MACSEC_IN_NO_SA : Nat := 0x02001090
abbrev PKT_P_MACSEC_IN_UNTAGGED_DROP : Nat := 0x02001098
abbrev PKT_P_MACSEC_OUT_PROTECTED : Nat := 0x020010A0
abbrev PKT_P_LINK_DOWNS : Nat := 0x020010A8
abbrev CIP_CTRL : Nat := 0x02400000
abbrev CIP_STATUS : Nat := 0x02400004
abbrev CIP_SLOT_SEL : Nat := 0x02400008
abbrev CIP_EVENT_MASK : Nat := 0x0240000C
abbrev CIP_SLOTS_USED : Nat := 0x02400010
abbrev CIP_DRAINING : Nat := 0x02400014
abbrev CIP_BLOCKS : Nat := 0x02400018
abbrev CIP_AUTH_FAIL : Nat := 0x02400020
abbrev CIP_REPLAY_DROP : Nat := 0x02400028
abbrev CIP_NONCE_LIMIT : Nat := 0x02400030
abbrev CIP_KEY_REVOKED : Nat := 0x02400038
abbrev CIP_KEY_ABSENT : Nat := 0x02400040
abbrev CIP_ZEROISED : Nat := 0x02400048
abbrev CIP_CACHE_LOADS : Nat := 0x02400050
abbrev CIP_LOAD : Nat := 0x02400058
abbrev CIP_P_STATUS : Nat := 0x02400100
abbrev CIP_P_LOAD : Nat := 0x02400104
abbrev CIP_W_META : Nat := 0x02400300
abbrev CIP_W_OWNER : Nat := 0x02400304
abbrev CIP_W_COUNTER : Nat := 0x02400308
abbrev CIP_W_COUNTER2 : Nat := 0x02400310
abbrev CIP_W_INFLIGHT : Nat := 0x02400314
abbrev CIP_W_USES : Nat := 0x02400318
abbrev CIP_W_AUTH_FAIL : Nat := 0x02400320
abbrev CIP_W_REPLAY : Nat := 0x02400328
abbrev VCA_CTRL : Nat := 0x02800000
abbrev VCA_STATUS : Nat := 0x02800004
abbrev VCA_LEG_SEL : Nat := 0x02800008
abbrev VCA_EVENT_MASK : Nat := 0x0280000C
abbrev VCA_DEC_UNITS : Nat := 0x02800010
abbrev VCA_ENC_UNITS : Nat := 0x02800014
abbrev VCA_FRAMES_DECODED : Nat := 0x02800018
abbrev VCA_FRAMES_ENCODED : Nat := 0x02800020
abbrev VCA_CONCEALED : Nat := 0x02800028
abbrev VCA_LATE : Nat := 0x02800030
abbrev VCA_LOAD : Nat := 0x02800038
abbrev VCA_E_STATUS : Nat := 0x02800100
abbrev VCA_W_JB : Nat := 0x02800300
abbrev VCA_W_DRIFT : Nat := 0x02800304
abbrev VCA_W_STATE : Nat := 0x02800308
abbrev VCA_W_RECEIVED : Nat := 0x0280030C
abbrev VCA_W_LATE : Nat := 0x02800314
abbrev VCA_W_CONCEALED : Nat := 0x0280031C
abbrev VCA_W_DTX : Nat := 0x02800324
abbrev VCA_W_RESYNCS : Nat := 0x0280032C
abbrev MIX_STATUS : Nat := 0x02C00000
abbrev MIX_BUS_SEL : Nat := 0x02C00004
abbrev MIX_LEG_SEL : Nat := 0x02C00008
abbrev MIX_CONF_SEL : Nat := 0x02C0000C
abbrev MIX_EVENT_MASK : Nat := 0x02C00010
abbrev MIX_CLASSES : Nat := 0x02C00014
abbrev MIX_BLOCKS : Nat := 0x02C00018
abbrev MIX_CROSSINGS : Nat := 0x02C00020
abbrev MIX_LATE_INPUT : Nat := 0x02C00028
abbrev MIX_CLIP : Nat := 0x02C00030
abbrev MIX_LIMIT_ACTIVE : Nat := 0x02C00038
abbrev MIX_SWAPS : Nat := 0x02C00040
abbrev MIX_LOAD : Nat := 0x02C00048
abbrev MIX_B_CFG : Nat := 0x02C00100
abbrev MIX_B_GAIN : Nat := 0x02C00104
abbrev MIX_B_LEVEL : Nat := 0x02C00108
abbrev MIX_B_GR : Nat := 0x02C0010C
abbrev MIX_B_SWAP : Nat := 0x02C00110
abbrev MIX_B_CLIP : Nat := 0x02C00114
abbrev MIX_L_CFG : Nat := 0x02C00200
abbrev MIX_L_TRIM : Nat := 0x02C00204
abbrev MIX_L_LEVEL : Nat := 0x02C00208
abbrev MIX_L_TALK : Nat := 0x02C0020C
abbrev MIX_L_ENTRIES : Nat := 0x02C00210
abbrev MIX_L_LATE : Nat := 0x02C00218
abbrev MIX_C_CFG : Nat := 0x02C00300
abbrev MIX_C_PLAN : Nat := 0x02C00304
abbrev MIX_C_THRESH : Nat := 0x02C00308
abbrev MIX_C_BASE_BUS : Nat := 0x02C0030C
abbrev MIX_C_CHANGES : Nat := 0x02C00310
abbrev MIX_C_WAIT_MAX : Nat := 0x02C00318
abbrev MIX_J_STATUS : Nat := 0x02C00400
abbrev MIX_J_LOAD : Nat := 0x02C00404
abbrev MIX_J_BLOCKS : Nat := 0x02C00408
abbrev MIX_T_LIST : Nat := 0x02C00500
abbrev GRV_CTRL : Nat := 0x03000000
abbrev GRV_STATUS : Nat := 0x03000004
abbrev GRV_CORE_SEL : Nat := 0x03000008
abbrev GRV_EVENT_MASK : Nat := 0x0300000C
abbrev GRV_PROGRAMS : Nat := 0x03000010
abbrev GRV_TASKS : Nat := 0x03000014
abbrev GRV_STORE_USED : Nat := 0x03000018
abbrev GRV_BUNDLES : Nat := 0x03000020
abbrev GRV_STALLS : Nat := 0x03000028
abbrev GRV_TRAPS : Nat := 0x03000030
abbrev GRV_OVERRUNS : Nat := 0x03000038
abbrev GRV_MIGRATIONS : Nat := 0x03000040
abbrev GRV_CKPT_BYTES : Nat := 0x03000048
abbrev GRV_BYPASS_BLOCKS : Nat := 0x03000050
abbrev GRV_LOAD : Nat := 0x03000058
abbrev GRV_G_STATUS : Nat := 0x03000100
abbrev GRV_G_ADMITTED : Nat := 0x03000104
abbrev GRV_G_IMEM : Nat := 0x03000108
abbrev GRV_G_TASKS : Nat := 0x0300010C
abbrev GRV_C_STATUS : Nat := 0x03000400
abbrev GRV_W_STATE : Nat := 0x03001000
abbrev GRV_W_PC : Nat := 0x03001004
abbrev GRV_W_SR : Nat := 0x03001008
abbrev GRV_W_SHADOW : Nat := 0x0300100C
abbrev GRV_W_D : Nat := 0x03001010
abbrev GRV_W_ACC0 : Nat := 0x03001050
abbrev GRV_W_ACC1 : Nat := 0x03001054
abbrev GRV_W_ACC2 : Nat := 0x03001058
abbrev GRV_W_P : Nat := 0x03001080
abbrev GRV_W_N : Nat := 0x030010A0
abbrev GRV_W_L : Nat := 0x030010C0
abbrev GRV_W_LOOP : Nat := 0x030010E0
abbrev GRV_W_LC : Nat := 0x030010E4
abbrev GRV_W_TRAP_PC : Nat := 0x030010F0
abbrev GRV_W_TRAP_ADDR : Nat := 0x030010F4
abbrev GRV_W_BUNDLES : Nat := 0x030010F8
abbrev GRV_W_STALLS : Nat := 0x03001100
abbrev GRV_W_SP_BYTES : Nat := 0x03001108
abbrev GRV_W_SP_STATUS : Nat := 0x03001110
abbrev GRV_W_CKPT_LAST : Nat := 0x03001114
abbrev GRV_W_IMEM : Nat := 0x03001118
abbrev GRV_W_DMEM : Nat := 0x0300111C
abbrev ASP_CTRL : Nat := 0x03400000
abbrev ASP_STATUS : Nat := 0x03400004
abbrev ASP_EVENT_MASK : Nat := 0x03400008
abbrev ASP_TRIG_STATUS : Nat := 0x0340000C
abbrev ASP_TRIG_LAST : Nat := 0x03400010
abbrev ASP_GLITCH : Nat := 0x03400018
abbrev ASP_CLOCK_LOST : Nat := 0x03400020
abbrev ASP_P_CONFIG0 : Nat := 0x03400100
abbrev ASP_P_CONFIG1 : Nat := 0x03400104
abbrev ASP_P_RATE : Nat := 0x03400108
abbrev ASP_P_STATUS : Nat := 0x0340010C
abbrev ASP_P_MEAS_RATE : Nat := 0x03400110
abbrev ASP_P_FRAME : Nat := 0x03400114
abbrev ASP_P_START_BLOCK : Nat := 0x03400118
abbrev ASP_P_START_TIME : Nat := 0x0340011C
abbrev ASP_P_RX_WPTR : Nat := 0x03400124
abbrev ASP_P_TX_RPTR : Nat := 0x03400128
abbrev ASP_P_WORDS : Nat := 0x0340012C
abbrev ASP_P_RX_MASK0 : Nat := 0x03400130
abbrev ASP_P_RX_MASK1 : Nat := 0x03400134
abbrev ASP_P_RX_MASK2 : Nat := 0x03400138
abbrev ASP_P_RX_MASK3 : Nat := 0x0340013C
abbrev ASP_P_TX_MASK0 : Nat := 0x03400140
abbrev ASP_P_TX_MASK1 : Nat := 0x03400144
abbrev ASP_P_TX_MASK2 : Nat := 0x03400148
abbrev ASP_P_TX_MASK3 : Nat := 0x0340014C
abbrev ASP_P_PIN_FAULT : Nat := 0x03400150
abbrev ASP_P_PERIOD : Nat := 0x03400154
abbrev ASP_P_GLITCH : Nat := 0x03400158
abbrev ASP_P_HOLDS : Nat := 0x03400160
abbrev ASP_P_RELOCKS : Nat := 0x03400168
abbrev ASP_P_SHORT_FRAMES : Nat := 0x03400170
abbrev ASP_P_UNDERRUN : Nat := 0x03400178
abbrev ASP_P_OVERRUN : Nat := 0x03400180
abbrev ASP_P_FRAMES_RX : Nat := 0x03400188
abbrev ASP_P_FRAMES_TX : Nat := 0x03400190
abbrev ASP_P_PIN_FAULTS : Nat := 0x03400198
abbrev ASP_P_MASKS_APPLIED : Nat := 0x034001A0
abbrev ASP_P_TX_LOST : Nat := 0x034001A8
abbrev VDE_CTRL : Nat := 0x03800000
abbrev VDE_STATUS : Nat := 0x03800004
abbrev VDE_STREAM_SEL : Nat := 0x03800008
abbrev VDE_EVENT_MASK : Nat := 0x0380000C
abbrev VDE_STREAMS : Nat := 0x03800010
abbrev VDE_ADMITTED : Nat := 0x03800014
abbrev VDE_PICTURES : Nat := 0x03800018
abbrev VDE_CONCEALED : Nat := 0x03800020
abbrev VDE_MISSING_REF : Nat := 0x03800028
abbrev VDE_TAINTED : Nat := 0x03800030
abbrev VDE_KEY_REQUESTS : Nat := 0x03800038
abbrev VDE_RATE_DROPS : Nat := 0x03800040
abbrev VDE_SYNTAX_ERRORS : Nat := 0x03800048
abbrev VDE_MIGRATIONS : Nat := 0x03800050
abbrev VDE_LOAD : Nat := 0x03800058
abbrev VDE_REFCOMP : Nat := 0x0380005C
abbrev VDE_E_STATUS : Nat := 0x03800100
abbrev VDE_E_CONTEXTS : Nat := 0x03800104
abbrev VDE_W_CFG : Nat := 0x03800400
abbrev VDE_W_SOURCE : Nat := 0x03800404
abbrev VDE_W_SLOT : Nat := 0x03800408
abbrev VDE_W_MAX : Nat := 0x0380040C
abbrev VDE_W_FPS : Nat := 0x03800410
abbrev VDE_W_SIZE : Nat := 0x03800414
abbrev VDE_W_MEAS_FPS : Nat := 0x03800418
abbrev VDE_W_TAINT : Nat := 0x0380041C
abbrev VDE_W_COMPOSITION : Nat := 0x03800420
abbrev VDE_W_PICTURES : Nat := 0x03800424
abbrev VDE_W_CONCEALED : Nat := 0x0380042C
abbrev VDE_W_MISSING_REF : Nat := 0x03800434
abbrev VDE_W_TAINTED : Nat := 0x0380043C
abbrev VDE_W_KEY_REQUESTS : Nat := 0x03800444
abbrev VDE_W_RATE_DROPS : Nat := 0x0380044C
abbrev VDE_W_SYNTAX_ERRORS : Nat := 0x03800454
abbrev VDE_W_OVERSIZE : Nat := 0x0380045C
abbrev VDE_W_PRE_KEY : Nat := 0x03800464
abbrev VDE_W_LATE_PKTS : Nat := 0x0380046C
abbrev VDE_W_LATE : Nat := 0x03800474
abbrev VDE_W_LAST_PIC : Nat := 0x0380047C
abbrev VDE_W_DECODE_MAX : Nat := 0x03800484
abbrev VDE_W_REFCOMP : Nat := 0x03800488
abbrev CMP_CTRL : Nat := 0x03C00000
abbrev CMP_STATUS : Nat := 0x03C00004
abbrev CMP_SEL : Nat := 0x03C00008
abbrev CMP_EVENT_MASK : Nat := 0x03C0000C
abbrev CMP_COMPOSITIONS : Nat := 0x03C00010
abbrev CMP_ADMITTED : Nat := 0x03C00014
abbrev CMP_PICTURES : Nat := 0x03C00018
abbrev CMP_LATE : Nat := 0x03C00020
abbrev CMP_REPEATS : Nat := 0x03C00028
abbrev CMP_MIGRATIONS : Nat := 0x03C00030
abbrev CMP_LOAD : Nat := 0x03C00038
abbrev CMP_E_STATUS : Nat := 0x03C00100
abbrev CMP_W_CFG : Nat := 0x03C00200
abbrev CMP_W_SIZE : Nat := 0x03C00204
abbrev CMP_W_FPS : Nat := 0x03C00208
abbrev CMP_W_ENGINE : Nat := 0x03C0020C
abbrev CMP_W_FRAME : Nat := 0x03C00210
abbrev CMP_W_NEXT : Nat := 0x03C00214
abbrev CMP_W_COMPOSE_MAX : Nat := 0x03C0021C
abbrev CMP_W_TILE_STATE : Nat := 0x03C00220
abbrev CMP_W_PICTURES : Nat := 0x03C00224
abbrev CMP_W_LATE : Nat := 0x03C0022C
abbrev CMP_W_REPEATS : Nat := 0x03C00234
abbrev CMP_W_SOURCE_LOST : Nat := 0x03C0023C
abbrev CMP_W_LAYOUT_CHANGES : Nat := 0x03C00244
abbrev CMP_W_CLAMPED : Nat := 0x03C0024C
abbrev VEN_CTRL : Nat := 0x04000000
abbrev VEN_STATUS : Nat := 0x04000004
abbrev VEN_STREAM_SEL : Nat := 0x04000008
abbrev VEN_EVENT_MASK : Nat := 0x0400000C
abbrev VEN_STREAMS : Nat := 0x04000010
abbrev VEN_ADMITTED : Nat := 0x04000014
abbrev VEN_PICTURES : Nat := 0x04000018
abbrev VEN_KEY_PICTURES : Nat := 0x04000020
abbrev VEN_FLOOR_PICTURES : Nat := 0x04000028
abbrev VEN_REPEATS : Nat := 0x04000030
abbrev VEN_MIGRATIONS : Nat := 0x04000038
abbrev VEN_BYTES : Nat := 0x04000040
abbrev VEN_LOAD : Nat := 0x04000048
abbrev VEN_E_STATUS : Nat := 0x04000100
abbrev VEN_W_CFG : Nat := 0x04000200
abbrev VEN_W_SOURCE : Nat := 0x04000204
abbrev VEN_W_SIZE : Nat := 0x04000208
abbrev VEN_W_FPS : Nat := 0x0400020C
abbrev VEN_W_TARGET : Nat := 0x04000210
abbrev VEN_W_CAPS : Nat := 0x0400021C
abbrev VEN_W_TIMERS : Nat := 0x04000220
abbrev VEN_W_BUF : Nat := 0x04000224
abbrev VEN_W_LAST_STATUS : Nat := 0x04000228
abbrev VEN_W_FRAME : Nat := 0x0400022C
abbrev VEN_W_LAST_BYTES : Nat := 0x04000230
abbrev VEN_W_KEY_STATE : Nat := 0x04000234
abbrev VEN_W_PICTURES : Nat := 0x04000238
abbrev VEN_W_KEY_PICTURES : Nat := 0x04000240
abbrev VEN_W_FLOOR_PICTURES : Nat := 0x04000248
abbrev VEN_W_FLOOR_ROWS : Nat := 0x04000250
abbrev VEN_W_REPEATS : Nat := 0x04000258
abbrev VEN_W_KEY_REQUESTS : Nat := 0x04000260
abbrev VEN_W_BYTES : Nat := 0x04000268
abbrev VEN_W_ENCODE_MAX : Nat := 0x04000270
abbrev VEN_W_LATE : Nat := 0x04000274
abbrev VEN_W_OVERRUN : Nat := 0x04000278
abbrev LFW_CTRL : Nat := 0x04400000
abbrev LFW_STATUS : Nat := 0x04400004
abbrev LFW_LEG_SEL : Nat := 0x04400008
abbrev LFW_EVENT_MASK : Nat := 0x0440000C
abbrev LFW_SETS : Nat := 0x04400010
abbrev LFW_ENTRIES : Nat := 0x04400014
abbrev LFW_PKTS_IN : Nat := 0x04400018
abbrev LFW_PKTS_OUT : Nat := 0x04400020
abbrev LFW_SWITCHES : Nat := 0x04400028
abbrev LFW_TAINT_DROPS : Nat := 0x04400030
abbrev LFW_KREQ_UP : Nat := 0x04400038
abbrev LFW_NACK_IGNORED : Nat := 0x04400040
abbrev LFW_BACKLOGS : Nat := 0x04400048
abbrev LFW_DUP_DISCARD : Nat := 0x04400050
abbrev LFW_LOAD : Nat := 0x04400058
abbrev LFW_Q_STATUS : Nat := 0x04400100
abbrev LFW_Q_LOAD : Nat := 0x04400104
abbrev LFW_Q_PKTS : Nat := 0x04400108
abbrev LFW_Q_QUEUE_MAX : Nat := 0x04400110
abbrev LFW_W_CFG : Nat := 0x04400200
abbrev LFW_W_EST : Nat := 0x04400204
abbrev LFW_W_DELIVERED : Nat := 0x04400208
abbrev LFW_W_LOSS : Nat := 0x0440020C
abbrev LFW_W_BUDGET : Nat := 0x04400210
abbrev LFW_W_AUDIO : Nat := 0x04400214
abbrev LFW_W_VIDEO : Nat := 0x04400218
abbrev LFW_W_FORWARDING : Nat := 0x0440021C
abbrev LFW_W_PAUSED : Nat := 0x04400220
abbrev LFW_W_LAST_REPORT : Nat := 0x04400224
abbrev LFW_W_REPORTS : Nat := 0x04400228
abbrev LFW_W_PKTS_SENT : Nat := 0x04400230
abbrev LFW_W_BYTES_SENT : Nat := 0x04400238
abbrev LFW_W_SWITCHES_UP : Nat := 0x04400240
abbrev LFW_W_SWITCHES_DOWN : Nat := 0x04400248
abbrev LFW_W_PLI_RX : Nat := 0x04400250
abbrev LFW_W_NACK_IGNORED : Nat := 0x04400258
abbrev LFW_W_QUEUE_MAX : Nat := 0x04400260
abbrev LFW_W_BACKLOGS : Nat := 0x04400264
abbrev LFW_W_TARGET : Nat := 0x04400268
abbrev WMC_CTRL : Nat := 0x04800000
abbrev WMC_GUARD : Nat := 0x04800004
abbrev WMC_STA_SEL : Nat := 0x04800008
abbrev WMC_EVENT_MASK : Nat := 0x0480000C
abbrev WMC_STATUS : Nat := 0x04800010
abbrev WMC_STATIONS : Nat := 0x04800014
abbrev WMC_WUR_STATIONS : Nat := 0x04800018
abbrev WMC_BA_AGREEMENTS : Nat := 0x0480001C
abbrev WMC_RX_MPDUS : Nat := 0x04800020
abbrev WMC_TX_MPDUS : Nat := 0x04800028
abbrev WMC_DUP_RX : Nat := 0x04800030
abbrev WMC_RESPONSES : Nat := 0x04800038
abbrev WMC_FILTER_DROPS : Nat := 0x04800040
abbrev WMC_ASSOCS : Nat := 0x04800048
abbrev WMC_AUTH_FAIL : Nat := 0x04800050
abbrev WMC_UNREACH_DISCARD : Nat := 0x04800058
abbrev WMC_TWT_MISSES : Nat := 0x04800060
abbrev WMC_LOAD : Nat := 0x04800068
abbrev WMC_B_CFG : Nat := 0x04800100
abbrev WMC_B_STATIONS : Nat := 0x04800104
abbrev WMC_B_COLOUR : Nat := 0x04800108
abbrev WMC_B_GTK : Nat := 0x0480010C
abbrev WMC_L_STATUS : Nat := 0x04800200
abbrev WMC_L_AIRTIME : Nat := 0x04800204
abbrev WMC_L_TX_PPDU : Nat := 0x04800208
abbrev WMC_L_RX_PPDU : Nat := 0x04800210
abbrev WMC_L_MU_PPDU : Nat := 0x04800218
abbrev WMC_L_TRIGGERS : Nat := 0x04800220
abbrev WMC_L_RETRIES : Nat := 0x04800228
abbrev WMC_L_BEACON_LOSS : Nat := 0x04800230
abbrev WMC_L_MU_USERS_MAX : Nat := 0x04800238
abbrev WMC_W_STATE : Nat := 0x04800400
abbrev WMC_W_AID : Nat := 0x04800404
abbrev WMC_W_MAC : Nat := 0x04800408
abbrev WMC_W_LINK : Nat := 0x04800410
abbrev WMC_W_QUEUE0 : Nat := 0x04800414
abbrev WMC_W_QUEUE1 : Nat := 0x04800418
abbrev WMC_W_GUARD : Nat := 0x0480041C
abbrev WMC_W_TWT : Nat := 0x04800420
abbrev WMC_W_RX_MPDUS : Nat := 0x04800424
abbrev WMC_W_TX_MPDUS : Nat := 0x0480042C
abbrev WMC_W_DUP_RX : Nat := 0x04800434
abbrev WMC_W_RETRIES : Nat := 0x0480043C
abbrev WMC_W_DISCARDS : Nat := 0x04800444
abbrev WMC_W_LAST_RX : Nat := 0x0480044C
abbrev WMC_W_WUR : Nat := 0x04800450
abbrev WMC_WUR_CFG : Nat := 0x04800500
abbrev WMC_WUR_TIMING : Nat := 0x04800504
abbrev WMC_WUR_MIN_ON : Nat := 0x04800508
abbrev WMC_WUR_MAX_PERIOD : Nat := 0x0480050C
abbrev WMC_WUR_BEACONS : Nat := 0x04800510
abbrev WMC_WUR_WAKES : Nat := 0x04800518
abbrev WMC_WUR_WAKE_FAIL : Nat := 0x04800520
abbrev WPH_CTRL : Nat := 0x04C00000
abbrev WPH_STATUS : Nat := 0x04C00004
abbrev WPH_RX_PPDUS : Nat := 0x04C00008
abbrev WPH_RX_FCS_ERR : Nat := 0x04C00010
abbrev WPH_TX_PPDUS : Nat := 0x04C00018
abbrev WPH_LOAD : Nat := 0x04C00020
abbrev WPH_R_CFG : Nat := 0x04C00100
abbrev WPH_R_PRIMARY : Nat := 0x04C00104
abbrev WPH_R_NOISE : Nat := 0x04C00108
abbrev WPH_R_CCA : Nat := 0x04C0010C
abbrev WPH_R_RX_PPDUS : Nat := 0x04C00110
abbrev WPH_R_RX_FCS_ERR : Nat := 0x04C00118
abbrev WPH_R_RX_PREAMBLE_ERR : Nat := 0x04C00120
abbrev WPH_R_TX_PPDUS : Nat := 0x04C00128
abbrev WPH_R_RX_MU : Nat := 0x04C00130
abbrev WPH_R_TX_MU : Nat := 0x04C00138
abbrev WPH_R_OBSS_PD_TX : Nat := 0x04C00140
abbrev WPH_R_CHAINS : Nat := 0x04C00148
abbrev WPH_R_PEAK_MBPS : Nat := 0x04C0014C
abbrev RAD_CTRL : Nat := 0x05000000
abbrev RAD_CAL_CFG : Nat := 0x05000004
abbrev RAD_AERIAL_CFG : Nat := 0x05000008
abbrev RAD_STATUS : Nat := 0x0500000C
abbrev RAD_EVENT_MASK : Nat := 0x05000010
abbrev RAD_REG_SEL : Nat := 0x05000014
abbrev RAD_REG_INFO : Nat := 0x05000018
abbrev RAD_REG_LIMIT : Nat := 0x0500001C
abbrev RAD_DIE_TEMP : Nat := 0x05000020
abbrev RAD_TX_NOT_READY : Nat := 0x05000028
abbrev RAD_TX_WAITS : Nat := 0x05000030
abbrev RAD_CLEARINGS : Nat := 0x05000038
abbrev RAD_SYNTH_UNLOCK : Nat := 0x05000040
abbrev RAD_CAL_FAILS : Nat := 0x05000048
abbrev RAD_R_STATUS : Nat := 0x05000100
abbrev RAD_R_CHANNEL : Nat := 0x05000104
abbrev RAD_R_READY_AT : Nat := 0x05000108
abbrev RAD_R_POWER : Nat := 0x05000110
abbrev RAD_R_GAINS : Nat := 0x05000114
abbrev RAD_R_CAL_STATUS : Nat := 0x05000118
abbrev RAD_R_CLEAR : Nat := 0x0500011C
abbrev RAD_R_FEM : Nat := 0x05000120
abbrev RAD_R_RFFE : Nat := 0x05000124
abbrev RAD_R_TX_NOT_READY : Nat := 0x05000128
abbrev RAD_R_TX_WAITS : Nat := 0x05000130
abbrev RAD_R_RETUNES : Nat := 0x05000138
abbrev RAD_R_CLEARINGS : Nat := 0x05000140
abbrev RAD_R_CLEAR_DEFERS : Nat := 0x05000148
abbrev RAD_R_CLEAR_FORCED : Nat := 0x05000150
abbrev RAD_R_TRUNCATED : Nat := 0x05000158
abbrev RAD_R_RFFE_ERRORS : Nat := 0x05000160
abbrev RAD_C_STATUS : Nat := 0x05000400
abbrev RAD_C_POWER : Nat := 0x05000404
abbrev RAD_C_RL : Nat := 0x05000408
abbrev RAD_C_BIAS : Nat := 0x0500040C
abbrev RAD_C_TUNER : Nat := 0x05000410
abbrev RAD_C_FAULTS : Nat := 0x05000414
abbrev RAD_W_CFG : Nat := 0x05000600
abbrev RAD_W_STATUS : Nat := 0x05000604
abbrev RAD_W_FRAMES : Nat := 0x05000608
abbrev RAD_W_MATCHED : Nat := 0x05000610
abbrev RAD_W_WAKES : Nat := 0x05000618
abbrev RAD_W_LAST : Nat := 0x05000620
abbrev RAD_W_RSSI : Nat := 0x05000628
abbrev TMU_CTRL : Nat := 0x05400000
abbrev TMU_STATUS : Nat := 0x05400004
abbrev TMU_EVENT_MASK : Nat := 0x05400008
abbrev TMU_TIME_SEC_HI : Nat := 0x0540000C
abbrev TMU_TIME_SEC : Nat := 0x05400010
abbrev TMU_TIME_NS : Nat := 0x05400014
abbrev TMU_TIME_FRAC : Nat := 0x05400018
abbrev TMU_RATE : Nat := 0x0540001C
abbrev TMU_SLEW_REMAIN : Nat := 0x05400020
abbrev TMU_XO_MEAS : Nat := 0x05400024
abbrev TMU_STEPS : Nat := 0x05400028
abbrev TMU_SWITCHES : Nat := 0x05400030
abbrev TMU_HOLDOVERS : Nat := 0x05400038
abbrev TMU_REF_LOSSES : Nat := 0x05400040
abbrev TMU_LOST_TS : Nat := 0x05400048
abbrev TMU_HOLDOVER_MS : Nat := 0x05400050
abbrev TMU_HOLD_CFG : Nat := 0x05400058
abbrev TMU_D_CFG : Nat := 0x05400100
abbrev TMU_D_STATE : Nat := 0x05400104
abbrev TMU_D_OFFSET : Nat := 0x05400108
abbrev TMU_D_RATE : Nat := 0x05400110
abbrev TMU_D_PATH_DELAY : Nat := 0x05400114
abbrev TMU_D_GM_ID : Nat := 0x05400118
abbrev TMU_D_GM_QUALITY : Nat := 0x05400120
abbrev TMU_D_SYNC_RX : Nat := 0x05400124
abbrev TMU_D_ANNOUNCE_RX : Nat := 0x0540012C
abbrev TMU_D_DELAY_REQ_TX : Nat := 0x05400134
abbrev TMU_D_QUALIFY_LOSSES : Nat := 0x0540013C
abbrev TMU_D_OFFSET_MAX : Nat := 0x05400144
abbrev TMU_D_LOCK_CFG : Nat := 0x05400148
abbrev TMU_Q_STATUS : Nat := 0x05400200
abbrev TMU_Q_FLAGS : Nat := 0x05400204
abbrev TMU_Q_LOST_TS : Nat := 0x05400208
abbrev TMU_PPS_CFG : Nat := 0x05400300
abbrev TMU_PPS_OFFSET : Nat := 0x05400304
abbrev TMU_PPS_IN_LAST : Nat := 0x05400308
abbrev TMU_SYNCE_CFG : Nat := 0x0540030C
abbrev CAP_CTRL : Nat := 0x05800000
abbrev CAP_STATUS : Nat := 0x05800004
abbrev CAP_EVENT_MASK : Nat := 0x05800008
abbrev CAP_FILTERS : Nat := 0x0580000C
abbrev CAP_ADMITTED : Nat := 0x05800010
abbrev CAP_STAGING : Nat := 0x05800014
abbrev CAP_RECORDS : Nat := 0x05800018
abbrev CAP_LOST : Nat := 0x05800020
abbrev CAP_REPLAY_SENT : Nat := 0x05800028
abbrev CAP_REPLAY_LATE : Nat := 0x05800030
abbrev CAP_TRIG_IGNORED : Nat := 0x05800038
abbrev CAP_LOAD : Nat := 0x05800040
abbrev CAP_S_STATUS : Nat := 0x05800100
abbrev CAP_S_RATE : Nat := 0x05800104
abbrev CAP_S_RING : Nat := 0x05800108
abbrev CAP_S_HEAD : Nat := 0x0580010C
abbrev CAP_S_TAIL : Nat := 0x05800110
abbrev CAP_S_RECORDS : Nat := 0x05800114
abbrev CAP_S_BYTES : Nat := 0x0580011C
abbrev CAP_S_LOST : Nat := 0x05800124
abbrev CAP_S_LATE : Nat := 0x0580012C
abbrev PWR_CTRL : Nat := 0x05C00000
abbrev PWR_STATUS : Nat := 0x05C00004
abbrev PWR_WAKE_CFG : Nat := 0x05C00008
abbrev PWR_WAKE_GPIO : Nat := 0x05C0000C
abbrev PWR_WAKE_AT : Nat := 0x05C00010
abbrev PWR_LAST_WAKE : Nat := 0x05C00018
abbrev PWR_LAST_STATE : Nat := 0x05C0001C
abbrev PWR_EVENT_MASK : Nat := 0x05C00020
abbrev PWR_VCORE : Nat := 0x05C00024
abbrev PWR_EMBER_ENTRIES : Nat := 0x05C00028
abbrev PWR_EMBER_MS : Nat := 0x05C00030
abbrev PWR_WAKE_TIME_MAX : Nat := 0x05C00038
abbrev PWR_ENTRY_TIME_MAX : Nat := 0x05C0003C
abbrev PWR_LOG_HEAD : Nat := 0x05C00040
abbrev PWR_PMBUS_ERRORS : Nat := 0x05C00044
abbrev PWR_RETAIN_LOST : Nat := 0x05C0004C
abbrev PWR_REFUSALS : Nat := 0x05C00080
abbrev PWR_DOM_STATUS : Nat := 0x05C000E8
abbrev PWR_LOG_INFO : Nat := 0x05C00100
abbrev PWR_LOG_TIME : Nat := 0x05C00104
abbrev PWR_LOG_OBJECT : Nat := 0x05C0010C
abbrev HLT_CTRL : Nat := 0x06000000
abbrev HLT_STATUS : Nat := 0x06000004
abbrev HLT_CANARY_SEL : Nat := 0x06000008
abbrev HLT_EVENT_MASK : Nat := 0x0600000C
abbrev HLT_PLAN_MV : Nat := 0x06000010
abbrev HLT_SCALE : Nat := 0x06000014
abbrev HLT_MARGIN : Nat := 0x06000018
abbrev HLT_AGE_H : Nat := 0x0600001C
abbrev HLT_TJ_MAX : Nat := 0x06000020
abbrev HLT_WORST_CANARY : Nat := 0x06000024
abbrev HLT_MIGRATIONS : Nat := 0x06000028
abbrev HLT_SELFTESTS : Nat := 0x06000030
abbrev HLT_SELFTEST_FAILS : Nat := 0x06000038
abbrev HLT_NEXT_PLAN : Nat := 0x06000040
abbrev HLT_HEADROOM_H : Nat := 0x06000044
abbrev HLT_TEMP : Nat := 0x06000100
abbrev HLT_VMON : Nat := 0x06000140
abbrev HLT_MIGR : Nat := 0x06000200
abbrev HLT_PLAN_MV_H : Nat := 0x06000300
abbrev HLT_PLAN_TIME : Nat := 0x06000304
abbrev HLT_PLAN_MARGIN : Nat := 0x0600030C
abbrev HLT_K_STATUS : Nat := 0x06000400
abbrev HLT_K_RATE : Nat := 0x06000404
abbrev HLT_K_RATE_T0 : Nat := 0x06000408
abbrev HLT_K_RATIO : Nat := 0x0600040C
abbrev HLT_K_TEMP : Nat := 0x06000410
abbrev OTP_STATUS : Nat := 0x06400000
abbrev OTP_BOOT_STAGE : Nat := 0x06400004
abbrev OTP_RESET_CAUSE : Nat := 0x06400008
abbrev OTP_BOOT_SRC : Nat := 0x0640000C
abbrev OTP_BOOT_TIME : Nat := 0x06400010
abbrev OTP_WDT : Nat := 0x06400014
abbrev OTP_BOOT_ATTEMPTS : Nat := 0x06400018
abbrev OTP_SAFE_DETAIL : Nat := 0x0640001C
abbrev OTP_IMG_VERSION : Nat := 0x06400020
abbrev OTP_IMG_SVN : Nat := 0x06400030
abbrev OTP_REC_GEN : Nat := 0x06400040
abbrev OTP_ARB_COUNTER : Nat := 0x06400060
abbrev OTP_POLICY : Nat := 0x0640006C
abbrev OTP_PROGRAM_OPS : Nat := 0x06400070
abbrev OTP_ECC_CORRECTED : Nat := 0x06400078
abbrev OTP_VERIFY_FAIL : Nat := 0x06400080
abbrev OTP_FALLBACKS : Nat := 0x06400088
abbrev OTP_TESTED_SET_COUNT : Nat := 0x06400090
abbrev OTP_STRAPS : Nat := 0x06400094
abbrev OTP_REGDOMAIN : Nat := 0x06400098
abbrev OTP_MAC_BASE_LO : Nat := 0x0640009C
abbrev OTP_MAC_BASE_HI : Nat := 0x064000A0

end R

/-- Registers of DEV (part 1). -/
def rowsDEV0 : List RegRow :=
  [ ⟨R.DEV_IDENT, 1, 0x0, 1, .ro, 0x0, 0x0, 0⟩
  , ⟨R.DEV_STATUS, 1, 0x0, 1, .ro, 0x0, 0x0, 0⟩
  , ⟨R.DEV_ALARM, 1, 0x0, 1, .w1c, 0x0, 0x1, 0⟩
  , ⟨R.DEV_SAFE_REASON, 1, 0x0, 1, .ro, 0x0, 0x0, 0⟩
  , ⟨R.DEV_IGNORED_WRITES, 1, 0x0, 2, .ro, 0x0, 0x0, 0⟩
  , ⟨R.DEV_LAST_IGNORED, 1, 0x0, 1, .ro, 0x0, 0x0, 0⟩
  , ⟨R.DEV_OUTSTANDING, 1, 0x0, 1, .ro, 0x0, 0x0, 0⟩
  , ⟨R.DEV_TIME, 1, 0x0, 2, .ro, 0x0, 0x0, 0⟩
  , ⟨R.DEV_CMD_DONE, 1, 0x0, 2, .ro, 0x0, 0x0, 0⟩
  , ⟨R.DEV_UPTIME, 1, 0x0, 2, .ro, 0x0, 0x0, 0⟩
  , ⟨R.DEV_LEASES, 1, 0x0, 1, .ro, 0x0, 0x0, 0⟩
  , ⟨R.DEV_TIMED_PENDING, 1, 0x0, 1, .ro, 0x0, 0x0, 0⟩
  , ⟨R.DEV_DB_SETUP, 4, 0x8, 1, .wo, 0x0, 0x0, 0⟩
  , ⟨R.DEV_DB_SETUP_HI, 4, 0x8, 1, .wo, 0x0, 0x0, 0⟩
  , ⟨R.DEV_HEARTBEAT, 1, 0x0, 1, .ro, 0x0, 0x0, 0⟩
  , ⟨R.DEV_DB_SQ_TAIL, 13, 0x10, 1, .wo, 0x0, 0x0, 0⟩
  , ⟨R.DEV_DB_RPL_HEAD, 13, 0x10, 1, .wo, 0x0, 0x0, 0⟩
  , ⟨R.DEV_DB_EVT_HEAD, 13, 0x10, 1, .wo, 0x0, 0x0, 0⟩ ]

/-- All registers of DEV. -/
def rowsDEV : List RegRow := rowsDEV0

/-- Registers of HPI (part 1). -/
def rowsHPI0 : List RegRow :=
  [ ⟨R.HPI_PORT_STATUS, 4, 0x20, 1, .ro, 0x0, 0x0, 0⟩
  , ⟨R.HPI_PORT_LEASES, 4, 0x20, 1, .ro, 0x0, 0x0, 0⟩
  , ⟨R.HPI_PORT_CMDS, 4, 0x20, 2, .ro, 0x0, 0x0, 0⟩
  , ⟨R.HPI_PORT_RPL_DISCARD, 4, 0x20, 2, .ro, 0x0, 0x0, 0⟩
  , ⟨R.HPI_PORT_IGNORED_DB, 4, 0x20, 2, .ro, 0x0, 0x0, 0⟩
  , ⟨R.HPI_LIMITS, 1, 0x0, 1, .ro, 0x40000400, 0x0, 0⟩
  , ⟨R.HPI_MP_CONFIG, 1, 0x0, 1, .ro, 0x0, 0x0, 0⟩
  , ⟨R.HPI_RING_ERRORS, 1, 0x0, 2, .ro, 0x0, 0x0, 0⟩
  , ⟨R.HPI_RS_STATUS, 13, 0x30, 1, .ro, 0x0, 0x0, 0⟩
  , ⟨R.HPI_RS_ERR_SLOT, 13, 0x30, 1, .ro, 0x0, 0x0, 0⟩
  , ⟨R.HPI_RS_SIZES, 13, 0x30, 1, .ro, 0x0, 0x0, 0⟩
  , ⟨R.HPI_RS_SQ_HEAD, 13, 0x30, 1, .ro, 0x0, 0x0, 0⟩
  , ⟨R.HPI_RS_RPL_TAIL, 13, 0x30, 1, .ro, 0x0, 0x0, 0⟩
  , ⟨R.HPI_RS_EVT_TAIL, 13, 0x30, 1, .ro, 0x0, 0x0, 0⟩
  , ⟨R.HPI_RS_INT_MASK, 13, 0x30, 1, .rw, 0xF, 0xF, 0⟩
  , ⟨R.HPI_RS_INT_STATUS, 13, 0x30, 1, .w1c, 0x0, 0xF, 0⟩
  , ⟨R.HPI_RS_INT_MOD, 13, 0x30, 1, .rw, 0x0, 0xFFFF, 0⟩
  , ⟨R.HPI_RS_EVT_LOST, 13, 0x30, 2, .ro, 0x0, 0x0, 0⟩
  , ⟨R.HPI_RS_OUTSTANDING, 13, 0x30, 1, .ro, 0x0, 0x0, 0⟩ ]

/-- All registers of HPI. -/
def rowsHPI : List RegRow := rowsHPI0

/-- Registers of FAB (part 1). -/
def rowsFAB0 : List RegRow :=
  [ ⟨R.FAB_CTRL, 1, 0x0, 1, .rw, 0x31, 0xF1, 0⟩
  , ⟨R.FAB_STATUS, 1, 0x0, 1, .ro, 0x0, 0x0, 0⟩
  , ⟨R.FAB_VC_WEIGHT, 1, 0x0, 1, .rw, 0x20408, 0xF0F0F, 0⟩
  , ⟨R.FAB_DAMPER_LIMIT, 1, 0x0, 1, .rw, 0x32, 0xFFFF, 0⟩
  , ⟨R.FAB_EVENT_MASK, 1, 0x0, 1, .rw, 0x0, 0x7, 0⟩
  , ⟨R.FAB_JN_SEL, 1, 0x0, 1, .rw, 0x0, 0xFF, 0⟩
  , ⟨R.FAB_EDGE_SEL, 1, 0x0, 1, .rw, 0x0, 0x7F, 0⟩
  , ⟨R.FAB_LINK_RATE, 1, 0x0, 1, .ro, 0x0, 0x0, 0⟩
  , ⟨R.FAB_JN_FLITS_VC, 4, 0x8, 2, .ro, 0x0, 0x0, R.FAB_JN_SEL⟩
  , ⟨R.FAB_JN_DAMPED_VC, 4, 0x8, 2, .ro, 0x0, 0x0, R.FAB_JN_SEL⟩
  , ⟨R.FAB_JN_HOP_RETRY, 1, 0x0, 2, .ro, 0x0, 0x0, R.FAB_JN_SEL⟩
  , ⟨R.FAB_JN_DETOUR, 1, 0x0, 2, .ro, 0x0, 0x0, R.FAB_JN_SEL⟩
  , ⟨R.FAB_DEADLINE_MISS, 1, 0x0, 2, .ro, 0x0, 0x0, 0⟩
  , ⟨R.FAB_LINK_FAULTS, 1, 0x0, 2, .ro, 0x0, 0x0, 0⟩
  , ⟨R.FAB_REROUTES, 1, 0x0, 2, .ro, 0x0, 0x0, 0⟩
  , ⟨R.FAB_EDGE_MISS, 1, 0x0, 2, .ro, 0x0, 0x0, R.FAB_EDGE_SEL⟩
  , ⟨R.FAB_EDGE_LAST_MISS, 1, 0x0, 2, .ro, 0x0, 0x0, R.FAB_EDGE_SEL⟩
  , ⟨R.FAB_EDGE_LEAD_MIN, 1, 0x0, 1, .rc, 0xFFFFFFFF, 0x0, R.FAB_EDGE_SEL⟩
  , ⟨R.FAB_MISS_SUM, 3, 0x4, 1, .w1c, 0x0, 0xFFFFFFFF, 0⟩
  , ⟨R.FAB_ROUTE_SEL, 1, 0x0, 1, .rw, 0x0, 0xFFFF, 0⟩
  , ⟨R.FAB_ROUTE_ENTRY, 1, 0x0, 1, .ro, 0x0, 0x0, R.FAB_ROUTE_SEL⟩
  , ⟨R.FAB_JN_STATUS, 256, 0x4, 1, .ro, 0x0, 0x0, 0⟩ ]

/-- All registers of FAB. -/
def rowsFAB : List RegRow := rowsFAB0

/-- Registers of FLU (part 1). -/
def rowsFLU0 : List RegRow :=
  [ ⟨R.FLU_CTRL, 1, 0x0, 1, .rw, 0x64, 0xFFFF, 0⟩
  , ⟨R.FLU_STATUS, 1, 0x0, 1, .ro, 0x0, 0x0, 0⟩
  , ⟨R.FLU_SEL, 1, 0x0, 1, .rw, 0x0, 0xFFFF, 0⟩
  , ⟨R.FLU_EVENT_MASK, 1, 0x0, 1, .rw, 0x0, 0x1, 0⟩
  , ⟨R.FLU_ACTIVE, 1, 0x0, 1, .ro, 0x1000, 0x0, 0⟩
  , ⟨R.FLU_PUSHES, 1, 0x0, 2, .ro, 0x0, 0x0, 0⟩
  , ⟨R.FLU_POPS, 1, 0x0, 2, .ro, 0x0, 0x0, 0⟩
  , ⟨R.FLU_EMPTY_POPS, 1, 0x0, 2, .ro, 0x0, 0x0, 0⟩
  , ⟨R.FLU_CORRUPT_RESETS, 1, 0x0, 2, .ro, 0x0, 0x0, 0⟩
  , ⟨R.FLU_DROP_REMAINDER, 1, 0x0, 2, .ro, 0x0, 0x0, 0⟩
  , ⟨R.FLU_FULL_REJECT, 1, 0x0, 2, .ro, 0x0, 0x0, 0⟩
  , ⟨R.FLU_UNREG_PUSH, 1, 0x0, 2, .ro, 0x0, 0x0, 0⟩
  , ⟨R.FLU_OPEN_RETRY, 1, 0x0, 2, .ro, 0x0, 0x0, 0⟩
  , ⟨R.FLU_BANK_FREE, 8, 0x40, 1, .ro, 0x0, 0x0, 0⟩
  , ⟨R.FLU_BANK_FLUES, 8, 0x40, 1, .ro, 0x0, 0x0, 0⟩
  , ⟨R.FLU_BANK_DAMPED, 8, 0x40, 1, .ro, 0x0, 0x0, 0⟩
  , ⟨R.FLU_BANK_LOAD, 8, 0x40, 1, .ro, 0x0, 0x0, 0⟩
  , ⟨R.FLU_BANK_OPS, 8, 0x40, 2, .ro, 0x0, 0x0, 0⟩
  , ⟨R.FLU_W_CONFIG, 1, 0x0, 1, .ro, 0x0, 0x0, R.FLU_SEL⟩
  , ⟨R.FLU_W_WM, 1, 0x0, 1, .ro, 0x0, 0x0, R.FLU_SEL⟩
  , ⟨R.FLU_W_HEAD, 1, 0x0, 1, .ro, 0x0, 0x0, R.FLU_SEL⟩
  , ⟨R.FLU_W_READ, 1, 0x0, 1, .ro, 0x0, 0x0, R.FLU_SEL⟩
  , ⟨R.FLU_W_TAIL, 1, 0x0, 1, .ro, 0x0, 0x0, R.FLU_SEL⟩
  , ⟨R.FLU_W_STATUS, 1, 0x0, 1, .ro, 0x0, 0x0, R.FLU_SEL⟩ ]

/-- Registers of FLU (part 2). -/
def rowsFLU1 : List RegRow :=
  [ ⟨R.FLU_W_MAX_OCC, 1, 0x0, 1, .rc, 0x0, 0x0, R.FLU_SEL⟩
  , ⟨R.FLU_W_PUSHES, 1, 0x0, 2, .ro, 0x0, 0x0, R.FLU_SEL⟩ ]

/-- All registers of FLU. -/
def rowsFLU : List RegRow := rowsFLU0 ++ rowsFLU1

/-- Registers of DSX (part 1). -/
def rowsDSX0 : List RegRow :=
  [ ⟨R.DSX_LEVEL_MODE, 1, 0x0, 1, .rw, 0xAA5, 0xFFFF, 0⟩
  , ⟨R.DSX_STATUS, 1, 0x0, 1, .ro, 0x0, 0x0, 0⟩
  , ⟨R.DSX_CORE_SEL, 1, 0x0, 1, .rw, 0x0, 0x1FF, 0⟩
  , ⟨R.DSX_EVENT_MASK, 1, 0x0, 1, .rw, 0x0, 0x1, 0⟩
  , ⟨R.DSX_TASKS, 1, 0x0, 1, .ro, 0x0, 0x0, 0⟩
  , ⟨R.DSX_DISPATCHES, 1, 0x0, 2, .ro, 0x0, 0x0, 0⟩
  , ⟨R.DSX_PREEMPTS, 1, 0x0, 2, .ro, 0x0, 0x0, 0⟩
  , ⟨R.DSX_INTERRUPTS, 1, 0x0, 2, .ro, 0x0, 0x0, 0⟩
  , ⟨R.DSX_LATE, 1, 0x0, 2, .ro, 0x0, 0x0, 0⟩
  , ⟨R.DSX_GRV_READY, 16, 0x10, 1, .ro, 0x0, 0x0, 0⟩
  , ⟨R.DSX_GRV_LOAD, 16, 0x10, 1, .ro, 0x0, 0x0, 0⟩
  , ⟨R.DSX_GRV_READY_MAX, 16, 0x10, 1, .rc, 0x0, 0x0, 0⟩
  , ⟨R.DSX_C_STATUS, 1, 0x0, 1, .ro, 0x0, 0x0, R.DSX_CORE_SEL⟩
  , ⟨R.DSX_C_DEPTH_MAX, 1, 0x0, 1, .rc, 0x0, 0x0, R.DSX_CORE_SEL⟩
  , ⟨R.DSX_C_LOAD, 1, 0x0, 1, .ro, 0x0, 0x0, R.DSX_CORE_SEL⟩
  , ⟨R.DSX_C_TASKS, 1, 0x0, 1, .ro, 0x0, 0x0, R.DSX_CORE_SEL⟩
  , ⟨R.DSX_C_DISPATCHES, 1, 0x0, 2, .ro, 0x0, 0x0, R.DSX_CORE_SEL⟩
  , ⟨R.DSX_C_PREEMPTS, 1, 0x0, 2, .ro, 0x0, 0x0, R.DSX_CORE_SEL⟩
  , ⟨R.DSX_C_LATE, 1, 0x0, 2, .ro, 0x0, 0x0, R.DSX_CORE_SEL⟩
  , ⟨R.DSX_C_WAIT_MAX, 1, 0x0, 1, .rc, 0x0, 0x0, R.DSX_CORE_SEL⟩
  , ⟨R.DSX_C_HIST_CLEAR, 1, 0x0, 1, .w1c, 0x0, 0x1, R.DSX_CORE_SEL⟩
  , ⟨R.DSX_C_WAIT_HIST, 16, 0x8, 2, .ro, 0x0, 0x0, R.DSX_CORE_SEL⟩ ]

/-- All registers of DSX. -/
def rowsDSX : List RegRow := rowsDSX0

/-- Registers of MEM (part 1). -/
def rowsMEM0 : List RegRow :=
  [ ⟨R.MEM_CTRL, 1, 0x0, 1, .rw, 0x40118, 0xF01FF, 0⟩
  , ⟨R.MEM_STATUS, 1, 0x0, 1, .ro, 0x0, 0x0, 0⟩
  , ⟨R.MEM_BANK_SEL, 1, 0x0, 1, .rw, 0x0, 0x7FF, 0⟩
  , ⟨R.MEM_EVENT_MASK, 1, 0x0, 1, .rw, 0x0, 0x1, 0⟩
  , ⟨R.MEM_W_BANK, 1, 0x0, 1, .ro, 0x0, 0x0, R.MEM_BANK_SEL⟩
  , ⟨R.MEM_DBG_BASE, 1, 0x0, 1, .ro, 0x0, 0x0, 0⟩
  , ⟨R.MEM_CORRECTED, 1, 0x0, 2, .ro, 0x0, 0x0, 0⟩
  , ⟨R.MEM_UNCORRECTABLE, 1, 0x0, 2, .ro, 0x0, 0x0, 0⟩
  , ⟨R.MEM_ROWS_SPARED, 1, 0x0, 2, .ro, 0x0, 0x0, 0⟩
  , ⟨R.MEM_SCRUB_PASSES, 1, 0x0, 2, .ro, 0x0, 0x0, 0⟩
  , ⟨R.MEM_LAST_UE, 1, 0x0, 1, .ro, 0x0, 0x0, 0⟩
  , ⟨R.MEM_PART_BANKS, 10, 0x4, 1, .ro, 0x0, 0x0, 0⟩
  , ⟨R.MEM_POOL_FREE, 1, 0x0, 1, .ro, 0x0, 0x0, 0⟩
  , ⟨R.MEM_G_STATUS, 24, 0x10, 1, .ro, 0x0, 0x0, 0⟩
  , ⟨R.MEM_G_CORRECTED, 24, 0x10, 1, .ro, 0x0, 0x0, 0⟩
  , ⟨R.MEM_G_SPARES, 24, 0x10, 1, .ro, 0x200, 0x0, 0⟩
  , ⟨R.MEM_G_LOAD, 24, 0x10, 1, .ro, 0x0, 0x0, 0⟩ ]

/-- All registers of MEM. -/
def rowsMEM : List RegRow := rowsMEM0

/-- Registers of DMC (part 1). -/
def rowsDMC0 : List RegRow :=
  [ ⟨R.DMC_CTRL, 1, 0x0, 1, .rw, 0x1140100, 0x1FF03FF, 0⟩
  , ⟨R.DMC_STATUS, 1, 0x0, 1, .ro, 0x0, 0x0, 0⟩
  , ⟨R.DMC_RETIRED, 1, 0x0, 1, .ro, 0x0, 0x0, 0⟩
  , ⟨R.DMC_RETRAIN_CFG, 1, 0x0, 1, .rw, 0xA64, 0xFFFF, 0⟩
  , ⟨R.DMC_CAPACITY, 1, 0x0, 1, .ro, 0x0, 0x0, 0⟩
  , ⟨R.DMC_BW_FLOOR, 1, 0x0, 1, .ro, 0x0, 0x0, 0⟩
  , ⟨R.DMC_BW_ADMITTED, 1, 0x0, 1, .ro, 0x0, 0x0, 0⟩
  , ⟨R.DMC_EVENT_MASK, 1, 0x0, 1, .rw, 0x0, 0x1, 0⟩
  , ⟨R.DMC_BAR2_MAP, 3, 0x4, 1, .rw, 0x0, 0x80FF0FFF, 0⟩
  , ⟨R.DMC_BAR2_DROPPED, 1, 0x0, 2, .ro, 0x0, 0x0, 0⟩
  , ⟨R.DMC_CORRECTED, 1, 0x0, 2, .ro, 0x0, 0x0, 0⟩
  , ⟨R.DMC_UNCORRECTABLE, 1, 0x0, 2, .ro, 0x0, 0x0, 0⟩
  , ⟨R.DMC_RETRAINS, 1, 0x0, 2, .ro, 0x0, 0x0, 0⟩
  , ⟨R.DMC_MIRROR_READS, 1, 0x0, 2, .ro, 0x0, 0x0, 0⟩
  , ⟨R.DMC_REGIONS, 1, 0x0, 1, .ro, 0x0, 0x0, 0⟩
  , ⟨R.DMC_CH_STATUS, 32, 0x80, 1, .ro, 0x0, 0x0, 0⟩
  , ⟨R.DMC_CH_SP_LIMIT, 32, 0x80, 1, .ro, 0x0, 0x0, 0⟩
  , ⟨R.DMC_CH_CAPACITY, 32, 0x80, 1, .ro, 0x0, 0x0, 0⟩
  , ⟨R.DMC_CH_LOAD, 32, 0x80, 1, .ro, 0x0, 0x0, 0⟩
  , ⟨R.DMC_CH_RD_BYTES, 32, 0x80, 2, .ro, 0x0, 0x0, 0⟩
  , ⟨R.DMC_CH_WR_BYTES, 32, 0x80, 2, .ro, 0x0, 0x0, 0⟩
  , ⟨R.DMC_CH_ROW_HITS, 32, 0x80, 2, .ro, 0x0, 0x0, 0⟩
  , ⟨R.DMC_CH_ROW_CONFLICTS, 32, 0x80, 2, .ro, 0x0, 0x0, 0⟩
  , ⟨R.DMC_CH_CORRECTED, 32, 0x80, 2, .ro, 0x0, 0x0, 0⟩ ]

/-- Registers of DMC (part 2). -/
def rowsDMC1 : List RegRow :=
  [ ⟨R.DMC_CH_UNCORRECTABLE, 32, 0x80, 2, .ro, 0x0, 0x0, 0⟩
  , ⟨R.DMC_CH_LINK_ECC, 32, 0x80, 2, .ro, 0x0, 0x0, 0⟩
  , ⟨R.DMC_CH_RETRAINS, 32, 0x80, 1, .ro, 0x0, 0x0, 0⟩
  , ⟨R.DMC_CH_TRAIN_RESULT, 32, 0x80, 1, .ro, 0x0, 0x0, 0⟩
  , ⟨R.DMC_CH_AGE_MAX, 32, 0x80, 1, .rc, 0x0, 0x0, 0⟩
  , ⟨R.DMC_CH_THRASH, 32, 0x80, 1, .ro, 0x0, 0x0, 0⟩
  , ⟨R.DMC_CH_SR_ENTRIES, 32, 0x80, 1, .ro, 0x0, 0x0, 0⟩
  , ⟨R.DMC_CH_LAST_ERR, 32, 0x80, 1, .ro, 0x0, 0x0, 0⟩
  , ⟨R.DMC_CH_SP_STALL_MAX, 32, 0x80, 1, .rc, 0x0, 0x0, 0⟩
  , ⟨R.DMC_CH_PARTNER, 32, 0x80, 1, .ro, 0x0, 0x0, 0⟩ ]

/-- All registers of DMC. -/
def rowsDMC : List RegRow := rowsDMC0 ++ rowsDMC1

/-- Registers of PKT (part 1). -/
def rowsPKT0 : List RegRow :=
  [ ⟨R.PKT_CTRL, 1, 0x0, 1, .rw, 0x4, 0x7, 0⟩
  , ⟨R.PKT_STATUS, 1, 0x0, 1, .ro, 0x0, 0x0, 0⟩
  , ⟨R.PKT_FLOW_SEL, 1, 0x0, 1, .rw, 0x0, 0xFFFFF, 0⟩
  , ⟨R.PKT_EVENT_MASK, 1, 0x0, 1, .rw, 0x0, 0x7, 0⟩
  , ⟨R.PKT_FLOWS_USED, 1, 0x0, 1, .ro, 0x0, 0x0, 0⟩
  , ⟨R.PKT_CAM_USED, 1, 0x0, 1, .ro, 0x0, 0x0, 0⟩
  , ⟨R.PKT_CONN_IDLE, 1, 0x0, 1, .rw, 0x780E10, 0xFFFFFFFF, 0⟩
  , ⟨R.PKT_BUF_CFG, 1, 0x0, 1, .rw, 0x80000400, 0xFFFFFFFF, 0⟩
  , ⟨R.PKT_BUF_FREE, 1, 0x0, 1, .ro, 0x0, 0x0, 0⟩
  , ⟨R.PKT_BUF_MIN_FREE, 1, 0x0, 1, .rc, 0x0, 0x0, 0⟩
  , ⟨R.PKT_REHASH, 1, 0x0, 1, .ro, 0x0, 0x0, 0⟩
  , ⟨R.PKT_LEN_USED, 1, 0x0, 1, .ro, 0x0, 0x0, 0⟩
  , ⟨R.PKT_LOOKUPS, 1, 0x0, 2, .ro, 0x0, 0x0, 0⟩
  , ⟨R.PKT_MISSES, 1, 0x0, 2, .ro, 0x0, 0x0, 0⟩
  , ⟨R.PKT_DISPLACEMENTS, 1, 0x0, 2, .ro, 0x0, 0x0, 0⟩
  , ⟨R.PKT_DRAINS, 1, 0x0, 2, .ro, 0x0, 0x0, 0⟩
  , ⟨R.PKT_REHASHES, 1, 0x0, 2, .ro, 0x0, 0x0, 0⟩
  , ⟨R.PKT_BUF_DROPS, 1, 0x0, 2, .ro, 0x0, 0x0, 0⟩
  , ⟨R.PKT_TO_HEARTH, 1, 0x0, 2, .ro, 0x0, 0x0, 0⟩
  , ⟨R.PKT_NO_ROUTE, 1, 0x0, 2, .ro, 0x0, 0x0, 0⟩
  , ⟨R.PKT_TTL_EXPIRED, 1, 0x0, 2, .ro, 0x0, 0x0, 0⟩
  , ⟨R.PKT_ACL_DENIED, 1, 0x0, 2, .ro, 0x0, 0x0, 0⟩
  , ⟨R.PKT_NAT_EXHAUSTED, 1, 0x0, 2, .ro, 0x0, 0x0, 0⟩
  , ⟨R.PKT_CONN_CREATED, 1, 0x0, 2, .ro, 0x0, 0x0, 0⟩ ]

/-- Registers of PKT (part 2). -/
def rowsPKT1 : List RegRow :=
  [ ⟨R.PKT_CONN_EXPIRED, 1, 0x0, 2, .ro, 0x0, 0x0, 0⟩
  , ⟨R.PKT_FW_ENTRY, 8, 0x4, 1, .ro, 0x0, 0x0, R.PKT_FLOW_SEL⟩
  , ⟨R.PKT_FW_LOC, 1, 0x0, 1, .ro, 0x0, 0x0, R.PKT_FLOW_SEL⟩
  , ⟨R.PKT_FW_HITS, 1, 0x0, 2, .ro, 0x0, 0x0, R.PKT_FLOW_SEL⟩
  , ⟨R.PKT_FW_LAST_HIT, 1, 0x0, 2, .ro, 0x0, 0x0, R.PKT_FLOW_SEL⟩
  , ⟨R.PKT_LADDR_SEL, 1, 0x0, 1, .rw, 0x0, 0xFF, 0⟩
  , ⟨R.PKT_LADDR_W, 4, 0x4, 1, .ro, 0x0, 0x0, R.PKT_LADDR_SEL⟩
  , ⟨R.PKT_LADDR_W_CFG, 1, 0x0, 1, .ro, 0x0, 0x0, R.PKT_LADDR_SEL⟩
  , ⟨R.PKT_NAT_PORTS_FREE, 1, 0x0, 1, .ro, 0x0, 0x0, 0⟩
  , ⟨R.PKT_NBR_USED, 1, 0x0, 1, .ro, 0x0, 0x0, 0⟩
  , ⟨R.PKT_ROUTES, 1, 0x0, 1, .ro, 0x0, 0x0, 0⟩
  , ⟨R.PKT_ACL_RULES, 1, 0x0, 1, .ro, 0x0, 0x0, 0⟩
  , ⟨R.PKT_CONNS, 1, 0x0, 1, .ro, 0x0, 0x0, 0⟩
  , ⟨R.PKT_BUF_EGRESS_USED, 1, 0x0, 1, .ro, 0x0, 0x0, 0⟩
  , ⟨R.PKT_BUF_SHARED_USED, 1, 0x0, 1, .ro, 0x0, 0x0, 0⟩
  , ⟨R.PKT_P_CTRL, 8, 0x100, 1, .ro, 0x0, 0x0, 0⟩
  , ⟨R.PKT_P_STATUS, 8, 0x100, 1, .ro, 0x0, 0x0, 0⟩
  , ⟨R.PKT_P_LANES, 8, 0x100, 1, .ro, 0x0, 0x0, 0⟩
  , ⟨R.PKT_P_PTP_DELAY, 8, 0x100, 1, .ro, 0x0, 0x0, 0⟩
  , ⟨R.PKT_P_SUB_SEL, 8, 0x100, 1, .rw, 0x0, 0x3, 0⟩
  , ⟨R.PKT_P_BER, 8, 0x100, 1, .ro, 0x0, 0x0, 0⟩
  , ⟨R.PKT_P_RX_FRAMES, 8, 0x100, 2, .ro, 0x0, 0x0, R.PKT_P_SUB_SEL⟩
  , ⟨R.PKT_P_RX_BYTES, 8, 0x100, 2, .ro, 0x0, 0x0, R.PKT_P_SUB_SEL⟩
  , ⟨R.PKT_P_TX_FRAMES, 8, 0x100, 2, .ro, 0x0, 0x0, R.PKT_P_SUB_SEL⟩ ]

/-- Registers of PKT (part 3). -/
def rowsPKT2 : List RegRow :=
  [ ⟨R.PKT_P_TX_BYTES, 8, 0x100, 2, .ro, 0x0, 0x0, R.PKT_P_SUB_SEL⟩
  , ⟨R.PKT_P_RX_FCS_ERR, 8, 0x100, 2, .ro, 0x0, 0x0, R.PKT_P_SUB_SEL⟩
  , ⟨R.PKT_P_RX_LEN_ERR, 8, 0x100, 2, .ro, 0x0, 0x0, R.PKT_P_SUB_SEL⟩
  , ⟨R.PKT_P_RX_VLAN_DROP, 8, 0x100, 2, .ro, 0x0, 0x0, R.PKT_P_SUB_SEL⟩
  , ⟨R.PKT_P_RX_PAUSE_IGNORED, 8, 0x100, 2, .ro, 0x0, 0x0, R.PKT_P_SUB_SEL⟩
  , ⟨R.PKT_P_FEC_CORRECTED, 8, 0x100, 2, .ro, 0x0, 0x0, R.PKT_P_SUB_SEL⟩
  , ⟨R.PKT_P_FEC_UNCORRECTABLE, 8, 0x100, 2, .ro, 0x0, 0x0, R.PKT_P_SUB_SEL⟩
  , ⟨R.PKT_P_RX_BUF_DROPS, 8, 0x100, 2, .ro, 0x0, 0x0, R.PKT_P_SUB_SEL⟩
  , ⟨R.PKT_P_TX_DOWN_DROPS, 8, 0x100, 2, .ro, 0x0, 0x0, R.PKT_P_SUB_SEL⟩
  , ⟨R.PKT_P_MACSEC_IN_OK, 8, 0x100, 2, .ro, 0x0, 0x0, R.PKT_P_SUB_SEL⟩
  , ⟨R.PKT_P_MACSEC_IN_NOT_VALID, 8, 0x100, 2, .ro, 0x0, 0x0, R.PKT_P_SUB_SEL⟩
  , ⟨R.PKT_P_MACSEC_IN_LATE, 8, 0x100, 2, .ro, 0x0, 0x0, R.PKT_P_SUB_SEL⟩
  , ⟨R.PKT_P_MACSEC_IN_NO_SA, 8, 0x100, 2, .ro, 0x0, 0x0, R.PKT_P_SUB_SEL⟩
  , ⟨R.PKT_P_MACSEC_IN_UNTAGGED_DROP, 8, 0x100, 2, .ro, 0x0, 0x0, R.PKT_P_SUB_SEL⟩
  , ⟨R.PKT_P_MACSEC_OUT_PROTECTED, 8, 0x100, 2, .ro, 0x0, 0x0, R.PKT_P_SUB_SEL⟩
  , ⟨R.PKT_P_LINK_DOWNS, 8, 0x100, 2, .ro, 0x0, 0x0, R.PKT_P_SUB_SEL⟩ ]

/-- All registers of PKT. -/
def rowsPKT : List RegRow := rowsPKT0 ++ rowsPKT1 ++ rowsPKT2

/-- Registers of CIP (part 1). -/
def rowsCIP0 : List RegRow :=
  [ ⟨R.CIP_CTRL, 1, 0x0, 1, .rw, 0x18, 0x3F, 0⟩
  , ⟨R.CIP_STATUS, 1, 0x0, 1, .ro, 0x0, 0x0, 0⟩
  , ⟨R.CIP_SLOT_SEL, 1, 0x0, 1, .rw, 0x0, 0xFFFF, 0⟩
  , ⟨R.CIP_EVENT_MASK, 1, 0x0, 1, .rw, 0x0, 0x1, 0⟩
  , ⟨R.CIP_SLOTS_USED, 1, 0x0, 1, .ro, 0x0, 0x0, 0⟩
  , ⟨R.CIP_DRAINING, 1, 0x0, 1, .ro, 0x0, 0x0, 0⟩
  , ⟨R.CIP_BLOCKS, 1, 0x0, 2, .ro, 0x0, 0x0, 0⟩
  , ⟨R.CIP_AUTH_FAIL, 1, 0x0, 2, .ro, 0x0, 0x0, 0⟩
  , ⟨R.CIP_REPLAY_DROP, 1, 0x0, 2, .ro, 0x0, 0x0, 0⟩
  , ⟨R.CIP_NONCE_LIMIT, 1, 0x0, 2, .ro, 0x0, 0x0, 0⟩
  , ⟨R.CIP_KEY_REVOKED, 1, 0x0, 2, .ro, 0x0, 0x0, 0⟩
  , ⟨R.CIP_KEY_ABSENT, 1, 0x0, 2, .ro, 0x0, 0x0, 0⟩
  , ⟨R.CIP_ZEROISED, 1, 0x0, 2, .ro, 0x0, 0x0, 0⟩
  , ⟨R.CIP_CACHE_LOADS, 1, 0x0, 2, .ro, 0x0, 0x0, 0⟩
  , ⟨R.CIP_LOAD, 1, 0x0, 1, .ro, 0x0, 0x0, 0⟩
  , ⟨R.CIP_P_STATUS, 50, 0x8, 1, .ro, 0x0, 0x0, 0⟩
  , ⟨R.CIP_P_LOAD, 50, 0x8, 1, .ro, 0x0, 0x0, 0⟩
  , ⟨R.CIP_W_META, 1, 0x0, 1, .ro, 0x0, 0x0, R.CIP_SLOT_SEL⟩
  , ⟨R.CIP_W_OWNER, 1, 0x0, 1, .ro, 0x0, 0x0, R.CIP_SLOT_SEL⟩
  , ⟨R.CIP_W_COUNTER, 1, 0x0, 2, .ro, 0x0, 0x0, R.CIP_SLOT_SEL⟩
  , ⟨R.CIP_W_COUNTER2, 1, 0x0, 1, .ro, 0x0, 0x0, R.CIP_SLOT_SEL⟩
  , ⟨R.CIP_W_INFLIGHT, 1, 0x0, 1, .ro, 0x0, 0x0, R.CIP_SLOT_SEL⟩
  , ⟨R.CIP_W_USES, 1, 0x0, 2, .ro, 0x0, 0x0, R.CIP_SLOT_SEL⟩
  , ⟨R.CIP_W_AUTH_FAIL, 1, 0x0, 2, .ro, 0x0, 0x0, R.CIP_SLOT_SEL⟩ ]

/-- Registers of CIP (part 2). -/
def rowsCIP1 : List RegRow :=
  [ ⟨R.CIP_W_REPLAY, 1, 0x0, 2, .ro, 0x0, 0x0, R.CIP_SLOT_SEL⟩ ]

/-- All registers of CIP. -/
def rowsCIP : List RegRow := rowsCIP0 ++ rowsCIP1

/-- Registers of VCA (part 1). -/
def rowsVCA0 : List RegRow :=
  [ ⟨R.VCA_CTRL, 1, 0x0, 1, .rw, 0xA64, 0xFFFF, 0⟩
  , ⟨R.VCA_STATUS, 1, 0x0, 1, .ro, 0x0, 0x0, 0⟩
  , ⟨R.VCA_LEG_SEL, 1, 0x0, 1, .rw, 0x0, 0x3FFF, 0⟩
  , ⟨R.VCA_EVENT_MASK, 1, 0x0, 1, .rw, 0x0, 0x3, 0⟩
  , ⟨R.VCA_DEC_UNITS, 1, 0x0, 1, .ro, 0x0, 0x0, 0⟩
  , ⟨R.VCA_ENC_UNITS, 1, 0x0, 1, .ro, 0x0, 0x0, 0⟩
  , ⟨R.VCA_FRAMES_DECODED, 1, 0x0, 2, .ro, 0x0, 0x0, 0⟩
  , ⟨R.VCA_FRAMES_ENCODED, 1, 0x0, 2, .ro, 0x0, 0x0, 0⟩
  , ⟨R.VCA_CONCEALED, 1, 0x0, 2, .ro, 0x0, 0x0, 0⟩
  , ⟨R.VCA_LATE, 1, 0x0, 2, .ro, 0x0, 0x0, 0⟩
  , ⟨R.VCA_LOAD, 1, 0x0, 1, .ro, 0x0, 0x0, 0⟩
  , ⟨R.VCA_E_STATUS, 68, 0x4, 1, .ro, 0x0, 0x0, 0⟩
  , ⟨R.VCA_W_JB, 1, 0x0, 1, .ro, 0x0, 0x0, R.VCA_LEG_SEL⟩
  , ⟨R.VCA_W_DRIFT, 1, 0x0, 1, .ro, 0x0, 0x0, R.VCA_LEG_SEL⟩
  , ⟨R.VCA_W_STATE, 1, 0x0, 1, .ro, 0x0, 0x0, R.VCA_LEG_SEL⟩
  , ⟨R.VCA_W_RECEIVED, 1, 0x0, 2, .ro, 0x0, 0x0, R.VCA_LEG_SEL⟩
  , ⟨R.VCA_W_LATE, 1, 0x0, 2, .ro, 0x0, 0x0, R.VCA_LEG_SEL⟩
  , ⟨R.VCA_W_CONCEALED, 1, 0x0, 2, .ro, 0x0, 0x0, R.VCA_LEG_SEL⟩
  , ⟨R.VCA_W_DTX, 1, 0x0, 2, .ro, 0x0, 0x0, R.VCA_LEG_SEL⟩
  , ⟨R.VCA_W_RESYNCS, 1, 0x0, 1, .ro, 0x0, 0x0, R.VCA_LEG_SEL⟩ ]

/-- All registers of VCA. -/
def rowsVCA : List RegRow := rowsVCA0

/-- Registers of MIX (part 1). -/
def rowsMIX0 : List RegRow :=
  [ ⟨R.MIX_STATUS, 1, 0x0, 1, .ro, 0x0, 0x0, 0⟩
  , ⟨R.MIX_BUS_SEL, 1, 0x0, 1, .rw, 0x0, 0xFFF, 0⟩
  , ⟨R.MIX_LEG_SEL, 1, 0x0, 1, .rw, 0x0, 0x3FFF, 0⟩
  , ⟨R.MIX_CONF_SEL, 1, 0x0, 1, .rw, 0x0, 0xFFF, 0⟩
  , ⟨R.MIX_EVENT_MASK, 1, 0x0, 1, .rw, 0x0, 0x7, 0⟩
  , ⟨R.MIX_CLASSES, 1, 0x0, 1, .ro, 0x0, 0x0, 0⟩
  , ⟨R.MIX_BLOCKS, 1, 0x0, 2, .ro, 0x0, 0x0, 0⟩
  , ⟨R.MIX_CROSSINGS, 1, 0x0, 2, .ro, 0x0, 0x0, 0⟩
  , ⟨R.MIX_LATE_INPUT, 1, 0x0, 2, .ro, 0x0, 0x0, 0⟩
  , ⟨R.MIX_CLIP, 1, 0x0, 2, .ro, 0x0, 0x0, 0⟩
  , ⟨R.MIX_LIMIT_ACTIVE, 1, 0x0, 2, .ro, 0x0, 0x0, 0⟩
  , ⟨R.MIX_SWAPS, 1, 0x0, 2, .ro, 0x0, 0x0, 0⟩
  , ⟨R.MIX_LOAD, 1, 0x0, 1, .ro, 0x0, 0x0, 0⟩
  , ⟨R.MIX_B_CFG, 1, 0x0, 1, .ro, 0x0, 0x0, R.MIX_BUS_SEL⟩
  , ⟨R.MIX_B_GAIN, 1, 0x0, 1, .ro, 0x0, 0x0, R.MIX_BUS_SEL⟩
  , ⟨R.MIX_B_LEVEL, 1, 0x0, 1, .ro, 0x0, 0x0, R.MIX_BUS_SEL⟩
  , ⟨R.MIX_B_GR, 1, 0x0, 1, .ro, 0x0, 0x0, R.MIX_BUS_SEL⟩
  , ⟨R.MIX_B_SWAP, 1, 0x0, 1, .ro, 0x0, 0x0, R.MIX_BUS_SEL⟩
  , ⟨R.MIX_B_CLIP, 1, 0x0, 2, .ro, 0x0, 0x0, R.MIX_BUS_SEL⟩
  , ⟨R.MIX_L_CFG, 1, 0x0, 1, .ro, 0x0, 0x0, R.MIX_LEG_SEL⟩
  , ⟨R.MIX_L_TRIM, 1, 0x0, 1, .ro, 0x0, 0x0, R.MIX_LEG_SEL⟩
  , ⟨R.MIX_L_LEVEL, 1, 0x0, 1, .ro, 0x0, 0x0, R.MIX_LEG_SEL⟩
  , ⟨R.MIX_L_TALK, 1, 0x0, 1, .ro, 0x0, 0x0, R.MIX_LEG_SEL⟩
  , ⟨R.MIX_L_ENTRIES, 1, 0x0, 2, .ro, 0x0, 0x0, R.MIX_LEG_SEL⟩ ]

/-- Registers of MIX (part 2). -/
def rowsMIX1 : List RegRow :=
  [ ⟨R.MIX_L_LATE, 1, 0x0, 2, .ro, 0x0, 0x0, R.MIX_LEG_SEL⟩
  , ⟨R.MIX_C_CFG, 1, 0x0, 1, .ro, 0x0, 0x0, R.MIX_CONF_SEL⟩
  , ⟨R.MIX_C_PLAN, 1, 0x0, 1, .ro, 0x0, 0x0, R.MIX_CONF_SEL⟩
  , ⟨R.MIX_C_THRESH, 1, 0x0, 1, .ro, 0x0, 0x0, R.MIX_CONF_SEL⟩
  , ⟨R.MIX_C_BASE_BUS, 1, 0x0, 1, .ro, 0x0, 0x0, R.MIX_CONF_SEL⟩
  , ⟨R.MIX_C_CHANGES, 1, 0x0, 2, .ro, 0x0, 0x0, R.MIX_CONF_SEL⟩
  , ⟨R.MIX_C_WAIT_MAX, 1, 0x0, 1, .rc, 0x0, 0x0, R.MIX_CONF_SEL⟩
  , ⟨R.MIX_J_STATUS, 4, 0x20, 1, .ro, 0x0, 0x0, 0⟩
  , ⟨R.MIX_J_LOAD, 4, 0x20, 1, .ro, 0x0, 0x0, 0⟩
  , ⟨R.MIX_J_BLOCKS, 4, 0x20, 2, .ro, 0x0, 0x0, 0⟩
  , ⟨R.MIX_T_LIST, 64, 0x4, 1, .ro, 0x0, 0x0, R.MIX_CONF_SEL⟩ ]

/-- All registers of MIX. -/
def rowsMIX : List RegRow := rowsMIX0 ++ rowsMIX1

/-- Registers of GRV (part 1). -/
def rowsGRV0 : List RegRow :=
  [ ⟨R.GRV_CTRL, 1, 0x0, 1, .rw, 0x5A, 0xFF, 0⟩
  , ⟨R.GRV_STATUS, 1, 0x0, 1, .ro, 0x0, 0x0, 0⟩
  , ⟨R.GRV_CORE_SEL, 1, 0x0, 1, .rw, 0x0, 0x1FF, 0⟩
  , ⟨R.GRV_EVENT_MASK, 1, 0x0, 1, .rw, 0x0, 0x1, 0⟩
  , ⟨R.GRV_PROGRAMS, 1, 0x0, 1, .ro, 0x3, 0x0, 0⟩
  , ⟨R.GRV_TASKS, 1, 0x0, 1, .ro, 0x0, 0x0, 0⟩
  , ⟨R.GRV_STORE_USED, 1, 0x0, 1, .ro, 0x0, 0x0, 0⟩
  , ⟨R.GRV_BUNDLES, 1, 0x0, 2, .ro, 0x0, 0x0, 0⟩
  , ⟨R.GRV_STALLS, 1, 0x0, 2, .ro, 0x0, 0x0, 0⟩
  , ⟨R.GRV_TRAPS, 1, 0x0, 2, .ro, 0x0, 0x0, 0⟩
  , ⟨R.GRV_OVERRUNS, 1, 0x0, 2, .ro, 0x0, 0x0, 0⟩
  , ⟨R.GRV_MIGRATIONS, 1, 0x0, 2, .ro, 0x0, 0x0, 0⟩
  , ⟨R.GRV_CKPT_BYTES, 1, 0x0, 2, .ro, 0x0, 0x0, 0⟩
  , ⟨R.GRV_BYPASS_BLOCKS, 1, 0x0, 2, .ro, 0x0, 0x0, 0⟩
  , ⟨R.GRV_LOAD, 1, 0x0, 1, .ro, 0x0, 0x0, 0⟩
  , ⟨R.GRV_G_STATUS, 16, 0x20, 1, .ro, 0x0, 0x0, 0⟩
  , ⟨R.GRV_G_ADMITTED, 16, 0x20, 1, .ro, 0x0, 0x0, 0⟩
  , ⟨R.GRV_G_IMEM, 16, 0x20, 1, .ro, 0x0, 0x0, 0⟩
  , ⟨R.GRV_G_TASKS, 16, 0x20, 1, .ro, 0x0, 0x0, 0⟩
  , ⟨R.GRV_C_STATUS, 272, 0x4, 1, .ro, 0x0, 0x0, 0⟩
  , ⟨R.GRV_W_STATE, 1, 0x0, 1, .ro, 0x0, 0x0, R.GRV_CORE_SEL⟩
  , ⟨R.GRV_W_PC, 1, 0x0, 1, .ro, 0x0, 0x0, R.GRV_CORE_SEL⟩
  , ⟨R.GRV_W_SR, 1, 0x0, 1, .ro, 0x0, 0x0, R.GRV_CORE_SEL⟩
  , ⟨R.GRV_W_SHADOW, 1, 0x0, 1, .ro, 0x0, 0x0, R.GRV_CORE_SEL⟩ ]

/-- Registers of GRV (part 2). -/
def rowsGRV1 : List RegRow :=
  [ ⟨R.GRV_W_D, 16, 0x4, 1, .ro, 0x0, 0x0, R.GRV_CORE_SEL⟩
  , ⟨R.GRV_W_ACC0, 4, 0xC, 1, .ro, 0x0, 0x0, R.GRV_CORE_SEL⟩
  , ⟨R.GRV_W_ACC1, 4, 0xC, 1, .ro, 0x0, 0x0, R.GRV_CORE_SEL⟩
  , ⟨R.GRV_W_ACC2, 4, 0xC, 1, .ro, 0x0, 0x0, R.GRV_CORE_SEL⟩
  , ⟨R.GRV_W_P, 8, 0x4, 1, .ro, 0x0, 0x0, R.GRV_CORE_SEL⟩
  , ⟨R.GRV_W_N, 8, 0x4, 1, .ro, 0x0, 0x0, R.GRV_CORE_SEL⟩
  , ⟨R.GRV_W_L, 8, 0x4, 1, .ro, 0x0, 0x0, R.GRV_CORE_SEL⟩
  , ⟨R.GRV_W_LOOP, 2, 0x8, 1, .ro, 0x0, 0x0, R.GRV_CORE_SEL⟩
  , ⟨R.GRV_W_LC, 2, 0x8, 1, .ro, 0x0, 0x0, R.GRV_CORE_SEL⟩
  , ⟨R.GRV_W_TRAP_PC, 1, 0x0, 1, .ro, 0x0, 0x0, R.GRV_CORE_SEL⟩
  , ⟨R.GRV_W_TRAP_ADDR, 1, 0x0, 1, .ro, 0x0, 0x0, R.GRV_CORE_SEL⟩
  , ⟨R.GRV_W_BUNDLES, 1, 0x0, 2, .ro, 0x0, 0x0, R.GRV_CORE_SEL⟩
  , ⟨R.GRV_W_STALLS, 1, 0x0, 2, .ro, 0x0, 0x0, R.GRV_CORE_SEL⟩
  , ⟨R.GRV_W_SP_BYTES, 1, 0x0, 2, .ro, 0x0, 0x0, R.GRV_CORE_SEL⟩
  , ⟨R.GRV_W_SP_STATUS, 1, 0x0, 1, .ro, 0x0, 0x0, R.GRV_CORE_SEL⟩
  , ⟨R.GRV_W_CKPT_LAST, 1, 0x0, 1, .ro, 0x0, 0x0, R.GRV_CORE_SEL⟩
  , ⟨R.GRV_W_IMEM, 1, 0x0, 1, .ro, 0x0, 0x0, R.GRV_CORE_SEL⟩
  , ⟨R.GRV_W_DMEM, 1, 0x0, 1, .ro, 0x0, 0x0, R.GRV_CORE_SEL⟩ ]

/-- All registers of GRV. -/
def rowsGRV : List RegRow := rowsGRV0 ++ rowsGRV1

/-- Registers of ASP (part 1). -/
def rowsASP0 : List RegRow :=
  [ ⟨R.ASP_CTRL, 1, 0x0, 1, .rw, 0x64, 0xFFFF, 0⟩
  , ⟨R.ASP_STATUS, 1, 0x0, 1, .ro, 0x0, 0x0, 0⟩
  , ⟨R.ASP_EVENT_MASK, 1, 0x0, 1, .rw, 0x0, 0x3, 0⟩
  , ⟨R.ASP_TRIG_STATUS, 1, 0x0, 1, .ro, 0x0, 0x0, 0⟩
  , ⟨R.ASP_TRIG_LAST, 1, 0x0, 2, .ro, 0x0, 0x0, 0⟩
  , ⟨R.ASP_GLITCH, 1, 0x0, 2, .ro, 0x0, 0x0, 0⟩
  , ⟨R.ASP_CLOCK_LOST, 1, 0x0, 2, .ro, 0x0, 0x0, 0⟩
  , ⟨R.ASP_P_CONFIG0, 8, 0x100, 1, .ro, 0x0, 0x0, 0⟩
  , ⟨R.ASP_P_CONFIG1, 8, 0x100, 1, .ro, 0x0, 0x0, 0⟩
  , ⟨R.ASP_P_RATE, 8, 0x100, 1, .ro, 0x0, 0x0, 0⟩
  , ⟨R.ASP_P_STATUS, 8, 0x100, 1, .ro, 0x0, 0x0, 0⟩
  , ⟨R.ASP_P_MEAS_RATE, 8, 0x100, 1, .ro, 0x0, 0x0, 0⟩
  , ⟨R.ASP_P_FRAME, 8, 0x100, 1, .ro, 0x0, 0x0, 0⟩
  , ⟨R.ASP_P_START_BLOCK, 8, 0x100, 1, .ro, 0x0, 0x0, 0⟩
  , ⟨R.ASP_P_START_TIME, 8, 0x100, 2, .ro, 0x0, 0x0, 0⟩
  , ⟨R.ASP_P_RX_WPTR, 8, 0x100, 1, .ro, 0x0, 0x0, 0⟩
  , ⟨R.ASP_P_TX_RPTR, 8, 0x100, 1, .ro, 0x0, 0x0, 0⟩
  , ⟨R.ASP_P_WORDS, 8, 0x100, 1, .ro, 0x0, 0x0, 0⟩
  , ⟨R.ASP_P_RX_MASK0, 8, 0x100, 1, .ro, 0x0, 0x0, 0⟩
  , ⟨R.ASP_P_RX_MASK1, 8, 0x100, 1, .ro, 0x0, 0x0, 0⟩
  , ⟨R.ASP_P_RX_MASK2, 8, 0x100, 1, .ro, 0x0, 0x0, 0⟩
  , ⟨R.ASP_P_RX_MASK3, 8, 0x100, 1, .ro, 0x0, 0x0, 0⟩
  , ⟨R.ASP_P_TX_MASK0, 8, 0x100, 1, .ro, 0x0, 0x0, 0⟩
  , ⟨R.ASP_P_TX_MASK1, 8, 0x100, 1, .ro, 0x0, 0x0, 0⟩ ]

/-- Registers of ASP (part 2). -/
def rowsASP1 : List RegRow :=
  [ ⟨R.ASP_P_TX_MASK2, 8, 0x100, 1, .ro, 0x0, 0x0, 0⟩
  , ⟨R.ASP_P_TX_MASK3, 8, 0x100, 1, .ro, 0x0, 0x0, 0⟩
  , ⟨R.ASP_P_PIN_FAULT, 8, 0x100, 1, .ro, 0x0, 0x0, 0⟩
  , ⟨R.ASP_P_PERIOD, 8, 0x100, 1, .ro, 0x0, 0x0, 0⟩
  , ⟨R.ASP_P_GLITCH, 8, 0x100, 2, .ro, 0x0, 0x0, 0⟩
  , ⟨R.ASP_P_HOLDS, 8, 0x100, 2, .ro, 0x0, 0x0, 0⟩
  , ⟨R.ASP_P_RELOCKS, 8, 0x100, 2, .ro, 0x0, 0x0, 0⟩
  , ⟨R.ASP_P_SHORT_FRAMES, 8, 0x100, 2, .ro, 0x0, 0x0, 0⟩
  , ⟨R.ASP_P_UNDERRUN, 8, 0x100, 2, .ro, 0x0, 0x0, 0⟩
  , ⟨R.ASP_P_OVERRUN, 8, 0x100, 2, .ro, 0x0, 0x0, 0⟩
  , ⟨R.ASP_P_FRAMES_RX, 8, 0x100, 2, .ro, 0x0, 0x0, 0⟩
  , ⟨R.ASP_P_FRAMES_TX, 8, 0x100, 2, .ro, 0x0, 0x0, 0⟩
  , ⟨R.ASP_P_PIN_FAULTS, 8, 0x100, 2, .ro, 0x0, 0x0, 0⟩
  , ⟨R.ASP_P_MASKS_APPLIED, 8, 0x100, 2, .ro, 0x0, 0x0, 0⟩
  , ⟨R.ASP_P_TX_LOST, 8, 0x100, 2, .ro, 0x0, 0x0, 0⟩ ]

/-- All registers of ASP. -/
def rowsASP : List RegRow := rowsASP0 ++ rowsASP1

/-- Registers of VDE (part 1). -/
def rowsVDE0 : List RegRow :=
  [ ⟨R.VDE_CTRL, 1, 0x0, 1, .rw, 0x1F419, 0xFFFFF, 0⟩
  , ⟨R.VDE_STATUS, 1, 0x0, 1, .ro, 0x0, 0x0, 0⟩
  , ⟨R.VDE_STREAM_SEL, 1, 0x0, 1, .rw, 0x0, 0x1FFF, 0⟩
  , ⟨R.VDE_EVENT_MASK, 1, 0x0, 1, .rw, 0x0, 0x3, 0⟩
  , ⟨R.VDE_STREAMS, 1, 0x0, 1, .ro, 0x0, 0x0, 0⟩
  , ⟨R.VDE_ADMITTED, 1, 0x0, 1, .ro, 0x0, 0x0, 0⟩
  , ⟨R.VDE_PICTURES, 1, 0x0, 2, .ro, 0x0, 0x0, 0⟩
  , ⟨R.VDE_CONCEALED, 1, 0x0, 2, .ro, 0x0, 0x0, 0⟩
  , ⟨R.VDE_MISSING_REF, 1, 0x0, 2, .ro, 0x0, 0x0, 0⟩
  , ⟨R.VDE_TAINTED, 1, 0x0, 2, .ro, 0x0, 0x0, 0⟩
  , ⟨R.VDE_KEY_REQUESTS, 1, 0x0, 2, .ro, 0x0, 0x0, 0⟩
  , ⟨R.VDE_RATE_DROPS, 1, 0x0, 2, .ro, 0x0, 0x0, 0⟩
  , ⟨R.VDE_SYNTAX_ERRORS, 1, 0x0, 2, .ro, 0x0, 0x0, 0⟩
  , ⟨R.VDE_MIGRATIONS, 1, 0x0, 2, .ro, 0x0, 0x0, 0⟩
  , ⟨R.VDE_LOAD, 1, 0x0, 1, .ro, 0x0, 0x0, 0⟩
  , ⟨R.VDE_REFCOMP, 1, 0x0, 1, .ro, 0x0, 0x0, 0⟩
  , ⟨R.VDE_E_STATUS, 52, 0x8, 1, .ro, 0x0, 0x0, 0⟩
  , ⟨R.VDE_E_CONTEXTS, 52, 0x8, 1, .ro, 0x0, 0x0, 0⟩
  , ⟨R.VDE_W_CFG, 1, 0x0, 1, .ro, 0x0, 0x0, R.VDE_STREAM_SEL⟩
  , ⟨R.VDE_W_SOURCE, 1, 0x0, 1, .ro, 0x0, 0x0, R.VDE_STREAM_SEL⟩
  , ⟨R.VDE_W_SLOT, 1, 0x0, 1, .ro, 0x0, 0x0, R.VDE_STREAM_SEL⟩
  , ⟨R.VDE_W_MAX, 1, 0x0, 1, .ro, 0x0, 0x0, R.VDE_STREAM_SEL⟩
  , ⟨R.VDE_W_FPS, 1, 0x0, 1, .ro, 0x0, 0x0, R.VDE_STREAM_SEL⟩
  , ⟨R.VDE_W_SIZE, 1, 0x0, 1, .ro, 0x0, 0x0, R.VDE_STREAM_SEL⟩ ]

/-- Registers of VDE (part 2). -/
def rowsVDE1 : List RegRow :=
  [ ⟨R.VDE_W_MEAS_FPS, 1, 0x0, 1, .ro, 0x0, 0x0, R.VDE_STREAM_SEL⟩
  , ⟨R.VDE_W_TAINT, 1, 0x0, 1, .ro, 0x0, 0x0, R.VDE_STREAM_SEL⟩
  , ⟨R.VDE_W_COMPOSITION, 1, 0x0, 1, .ro, 0x0, 0x0, R.VDE_STREAM_SEL⟩
  , ⟨R.VDE_W_PICTURES, 1, 0x0, 2, .ro, 0x0, 0x0, R.VDE_STREAM_SEL⟩
  , ⟨R.VDE_W_CONCEALED, 1, 0x0, 2, .ro, 0x0, 0x0, R.VDE_STREAM_SEL⟩
  , ⟨R.VDE_W_MISSING_REF, 1, 0x0, 2, .ro, 0x0, 0x0, R.VDE_STREAM_SEL⟩
  , ⟨R.VDE_W_TAINTED, 1, 0x0, 2, .ro, 0x0, 0x0, R.VDE_STREAM_SEL⟩
  , ⟨R.VDE_W_KEY_REQUESTS, 1, 0x0, 2, .ro, 0x0, 0x0, R.VDE_STREAM_SEL⟩
  , ⟨R.VDE_W_RATE_DROPS, 1, 0x0, 2, .ro, 0x0, 0x0, R.VDE_STREAM_SEL⟩
  , ⟨R.VDE_W_SYNTAX_ERRORS, 1, 0x0, 2, .ro, 0x0, 0x0, R.VDE_STREAM_SEL⟩
  , ⟨R.VDE_W_OVERSIZE, 1, 0x0, 2, .ro, 0x0, 0x0, R.VDE_STREAM_SEL⟩
  , ⟨R.VDE_W_PRE_KEY, 1, 0x0, 2, .ro, 0x0, 0x0, R.VDE_STREAM_SEL⟩
  , ⟨R.VDE_W_LATE_PKTS, 1, 0x0, 2, .ro, 0x0, 0x0, R.VDE_STREAM_SEL⟩
  , ⟨R.VDE_W_LATE, 1, 0x0, 2, .ro, 0x0, 0x0, R.VDE_STREAM_SEL⟩
  , ⟨R.VDE_W_LAST_PIC, 1, 0x0, 2, .ro, 0x0, 0x0, R.VDE_STREAM_SEL⟩
  , ⟨R.VDE_W_DECODE_MAX, 1, 0x0, 1, .rc, 0x0, 0x0, R.VDE_STREAM_SEL⟩
  , ⟨R.VDE_W_REFCOMP, 1, 0x0, 1, .ro, 0x0, 0x0, R.VDE_STREAM_SEL⟩ ]

/-- All registers of VDE. -/
def rowsVDE : List RegRow := rowsVDE0 ++ rowsVDE1

/-- Registers of CMP (part 1). -/
def rowsCMP0 : List RegRow :=
  [ ⟨R.CMP_CTRL, 1, 0x0, 1, .rw, 0x7D0, 0xFFFF, 0⟩
  , ⟨R.CMP_STATUS, 1, 0x0, 1, .ro, 0x0, 0x0, 0⟩
  , ⟨R.CMP_SEL, 1, 0x0, 1, .rw, 0x0, 0x1FF, 0⟩
  , ⟨R.CMP_EVENT_MASK, 1, 0x0, 1, .rw, 0x0, 0x1, 0⟩
  , ⟨R.CMP_COMPOSITIONS, 1, 0x0, 1, .ro, 0x0, 0x0, 0⟩
  , ⟨R.CMP_ADMITTED, 1, 0x0, 1, .ro, 0x0, 0x0, 0⟩
  , ⟨R.CMP_PICTURES, 1, 0x0, 2, .ro, 0x0, 0x0, 0⟩
  , ⟨R.CMP_LATE, 1, 0x0, 2, .ro, 0x0, 0x0, 0⟩
  , ⟨R.CMP_REPEATS, 1, 0x0, 2, .ro, 0x0, 0x0, 0⟩
  , ⟨R.CMP_MIGRATIONS, 1, 0x0, 2, .ro, 0x0, 0x0, 0⟩
  , ⟨R.CMP_LOAD, 1, 0x0, 1, .ro, 0x0, 0x0, 0⟩
  , ⟨R.CMP_E_STATUS, 17, 0x4, 1, .ro, 0x0, 0x0, 0⟩
  , ⟨R.CMP_W_CFG, 1, 0x0, 1, .ro, 0x0, 0x0, R.CMP_SEL⟩
  , ⟨R.CMP_W_SIZE, 1, 0x0, 1, .ro, 0x0, 0x0, R.CMP_SEL⟩
  , ⟨R.CMP_W_FPS, 1, 0x0, 1, .ro, 0x0, 0x0, R.CMP_SEL⟩
  , ⟨R.CMP_W_ENGINE, 1, 0x0, 1, .ro, 0x0, 0x0, R.CMP_SEL⟩
  , ⟨R.CMP_W_FRAME, 1, 0x0, 1, .ro, 0x0, 0x0, R.CMP_SEL⟩
  , ⟨R.CMP_W_NEXT, 1, 0x0, 2, .ro, 0x0, 0x0, R.CMP_SEL⟩
  , ⟨R.CMP_W_COMPOSE_MAX, 1, 0x0, 1, .rc, 0x0, 0x0, R.CMP_SEL⟩
  , ⟨R.CMP_W_TILE_STATE, 1, 0x0, 1, .ro, 0x0, 0x0, R.CMP_SEL⟩
  , ⟨R.CMP_W_PICTURES, 1, 0x0, 2, .ro, 0x0, 0x0, R.CMP_SEL⟩
  , ⟨R.CMP_W_LATE, 1, 0x0, 2, .ro, 0x0, 0x0, R.CMP_SEL⟩
  , ⟨R.CMP_W_REPEATS, 1, 0x0, 2, .ro, 0x0, 0x0, R.CMP_SEL⟩
  , ⟨R.CMP_W_SOURCE_LOST, 1, 0x0, 2, .ro, 0x0, 0x0, R.CMP_SEL⟩ ]

/-- Registers of CMP (part 2). -/
def rowsCMP1 : List RegRow :=
  [ ⟨R.CMP_W_LAYOUT_CHANGES, 1, 0x0, 2, .ro, 0x0, 0x0, R.CMP_SEL⟩
  , ⟨R.CMP_W_CLAMPED, 1, 0x0, 2, .ro, 0x0, 0x0, R.CMP_SEL⟩ ]

/-- All registers of CMP. -/
def rowsCMP : List RegRow := rowsCMP0 ++ rowsCMP1

/-- Registers of VEN (part 1). -/
def rowsVEN0 : List RegRow :=
  [ ⟨R.VEN_CTRL, 1, 0x0, 1, .rw, 0xA, 0xFF, 0⟩
  , ⟨R.VEN_STATUS, 1, 0x0, 1, .ro, 0x0, 0x0, 0⟩
  , ⟨R.VEN_STREAM_SEL, 1, 0x0, 1, .rw, 0x0, 0x7FF, 0⟩
  , ⟨R.VEN_EVENT_MASK, 1, 0x0, 1, .rw, 0x0, 0x3, 0⟩
  , ⟨R.VEN_STREAMS, 1, 0x0, 1, .ro, 0x0, 0x0, 0⟩
  , ⟨R.VEN_ADMITTED, 1, 0x0, 1, .ro, 0x0, 0x0, 0⟩
  , ⟨R.VEN_PICTURES, 1, 0x0, 2, .ro, 0x0, 0x0, 0⟩
  , ⟨R.VEN_KEY_PICTURES, 1, 0x0, 2, .ro, 0x0, 0x0, 0⟩
  , ⟨R.VEN_FLOOR_PICTURES, 1, 0x0, 2, .ro, 0x0, 0x0, 0⟩
  , ⟨R.VEN_REPEATS, 1, 0x0, 2, .ro, 0x0, 0x0, 0⟩
  , ⟨R.VEN_MIGRATIONS, 1, 0x0, 2, .ro, 0x0, 0x0, 0⟩
  , ⟨R.VEN_BYTES, 1, 0x0, 2, .ro, 0x0, 0x0, 0⟩
  , ⟨R.VEN_LOAD, 1, 0x0, 1, .ro, 0x0, 0x0, 0⟩
  , ⟨R.VEN_E_STATUS, 26, 0x4, 1, .ro, 0x0, 0x0, 0⟩
  , ⟨R.VEN_W_CFG, 1, 0x0, 1, .ro, 0x0, 0x0, R.VEN_STREAM_SEL⟩
  , ⟨R.VEN_W_SOURCE, 1, 0x0, 1, .ro, 0x0, 0x0, R.VEN_STREAM_SEL⟩
  , ⟨R.VEN_W_SIZE, 1, 0x0, 1, .ro, 0x0, 0x0, R.VEN_STREAM_SEL⟩
  , ⟨R.VEN_W_FPS, 1, 0x0, 1, .ro, 0x0, 0x0, R.VEN_STREAM_SEL⟩
  , ⟨R.VEN_W_TARGET, 3, 0x4, 1, .ro, 0x0, 0x0, R.VEN_STREAM_SEL⟩
  , ⟨R.VEN_W_CAPS, 1, 0x0, 1, .ro, 0x0, 0x0, R.VEN_STREAM_SEL⟩
  , ⟨R.VEN_W_TIMERS, 1, 0x0, 1, .ro, 0x0, 0x0, R.VEN_STREAM_SEL⟩
  , ⟨R.VEN_W_BUF, 1, 0x0, 1, .ro, 0x0, 0x0, R.VEN_STREAM_SEL⟩
  , ⟨R.VEN_W_LAST_STATUS, 1, 0x0, 1, .ro, 0x0, 0x0, R.VEN_STREAM_SEL⟩
  , ⟨R.VEN_W_FRAME, 1, 0x0, 1, .ro, 0x0, 0x0, R.VEN_STREAM_SEL⟩ ]

/-- Registers of VEN (part 2). -/
def rowsVEN1 : List RegRow :=
  [ ⟨R.VEN_W_LAST_BYTES, 1, 0x0, 1, .ro, 0x0, 0x0, R.VEN_STREAM_SEL⟩
  , ⟨R.VEN_W_KEY_STATE, 1, 0x0, 1, .ro, 0x0, 0x0, R.VEN_STREAM_SEL⟩
  , ⟨R.VEN_W_PICTURES, 1, 0x0, 2, .ro, 0x0, 0x0, R.VEN_STREAM_SEL⟩
  , ⟨R.VEN_W_KEY_PICTURES, 1, 0x0, 2, .ro, 0x0, 0x0, R.VEN_STREAM_SEL⟩
  , ⟨R.VEN_W_FLOOR_PICTURES, 1, 0x0, 2, .ro, 0x0, 0x0, R.VEN_STREAM_SEL⟩
  , ⟨R.VEN_W_FLOOR_ROWS, 1, 0x0, 2, .ro, 0x0, 0x0, R.VEN_STREAM_SEL⟩
  , ⟨R.VEN_W_REPEATS, 1, 0x0, 2, .ro, 0x0, 0x0, R.VEN_STREAM_SEL⟩
  , ⟨R.VEN_W_KEY_REQUESTS, 1, 0x0, 2, .ro, 0x0, 0x0, R.VEN_STREAM_SEL⟩
  , ⟨R.VEN_W_BYTES, 1, 0x0, 2, .ro, 0x0, 0x0, R.VEN_STREAM_SEL⟩
  , ⟨R.VEN_W_ENCODE_MAX, 1, 0x0, 1, .rc, 0x0, 0x0, R.VEN_STREAM_SEL⟩
  , ⟨R.VEN_W_LATE, 1, 0x0, 1, .ro, 0x0, 0x0, R.VEN_STREAM_SEL⟩
  , ⟨R.VEN_W_OVERRUN, 1, 0x0, 1, .ro, 0x0, 0x0, R.VEN_STREAM_SEL⟩ ]

/-- All registers of VEN. -/
def rowsVEN : List RegRow := rowsVEN0 ++ rowsVEN1

/-- Registers of LFW (part 1). -/
def rowsLFW0 : List RegRow :=
  [ ⟨R.LFW_CTRL, 1, 0x0, 1, .rw, 0x5, 0xFF, 0⟩
  , ⟨R.LFW_STATUS, 1, 0x0, 1, .ro, 0x0, 0x0, 0⟩
  , ⟨R.LFW_LEG_SEL, 1, 0x0, 1, .rw, 0x0, 0x3FFF, 0⟩
  , ⟨R.LFW_EVENT_MASK, 1, 0x0, 1, .rw, 0x0, 0x7, 0⟩
  , ⟨R.LFW_SETS, 1, 0x0, 1, .ro, 0x0, 0x0, 0⟩
  , ⟨R.LFW_ENTRIES, 1, 0x0, 1, .ro, 0x0, 0x0, 0⟩
  , ⟨R.LFW_PKTS_IN, 1, 0x0, 2, .ro, 0x0, 0x0, 0⟩
  , ⟨R.LFW_PKTS_OUT, 1, 0x0, 2, .ro, 0x0, 0x0, 0⟩
  , ⟨R.LFW_SWITCHES, 1, 0x0, 2, .ro, 0x0, 0x0, 0⟩
  , ⟨R.LFW_TAINT_DROPS, 1, 0x0, 2, .ro, 0x0, 0x0, 0⟩
  , ⟨R.LFW_KREQ_UP, 1, 0x0, 2, .ro, 0x0, 0x0, 0⟩
  , ⟨R.LFW_NACK_IGNORED, 1, 0x0, 2, .ro, 0x0, 0x0, 0⟩
  , ⟨R.LFW_BACKLOGS, 1, 0x0, 2, .ro, 0x0, 0x0, 0⟩
  , ⟨R.LFW_DUP_DISCARD, 1, 0x0, 2, .ro, 0x0, 0x0, 0⟩
  , ⟨R.LFW_LOAD, 1, 0x0, 1, .ro, 0x0, 0x0, 0⟩
  , ⟨R.LFW_Q_STATUS, 4, 0x20, 1, .ro, 0x0, 0x0, 0⟩
  , ⟨R.LFW_Q_LOAD, 4, 0x20, 1, .ro, 0x0, 0x0, 0⟩
  , ⟨R.LFW_Q_PKTS, 4, 0x20, 2, .ro, 0x0, 0x0, 0⟩
  , ⟨R.LFW_Q_QUEUE_MAX, 4, 0x20, 1, .rc, 0x0, 0x0, 0⟩
  , ⟨R.LFW_W_CFG, 1, 0x0, 1, .ro, 0x0, 0x0, R.LFW_LEG_SEL⟩
  , ⟨R.LFW_W_EST, 1, 0x0, 1, .ro, 0x0, 0x0, R.LFW_LEG_SEL⟩
  , ⟨R.LFW_W_DELIVERED, 1, 0x0, 1, .ro, 0x0, 0x0, R.LFW_LEG_SEL⟩
  , ⟨R.LFW_W_LOSS, 1, 0x0, 1, .ro, 0x0, 0x0, R.LFW_LEG_SEL⟩
  , ⟨R.LFW_W_BUDGET, 1, 0x0, 1, .ro, 0x0, 0x0, R.LFW_LEG_SEL⟩ ]

/-- Registers of LFW (part 2). -/
def rowsLFW1 : List RegRow :=
  [ ⟨R.LFW_W_AUDIO, 1, 0x0, 1, .ro, 0x0, 0x0, R.LFW_LEG_SEL⟩
  , ⟨R.LFW_W_VIDEO, 1, 0x0, 1, .ro, 0x0, 0x0, R.LFW_LEG_SEL⟩
  , ⟨R.LFW_W_FORWARDING, 1, 0x0, 1, .ro, 0x0, 0x0, R.LFW_LEG_SEL⟩
  , ⟨R.LFW_W_PAUSED, 1, 0x0, 1, .ro, 0x0, 0x0, R.LFW_LEG_SEL⟩
  , ⟨R.LFW_W_LAST_REPORT, 1, 0x0, 1, .ro, 0x0, 0x0, R.LFW_LEG_SEL⟩
  , ⟨R.LFW_W_REPORTS, 1, 0x0, 2, .ro, 0x0, 0x0, R.LFW_LEG_SEL⟩
  , ⟨R.LFW_W_PKTS_SENT, 1, 0x0, 2, .ro, 0x0, 0x0, R.LFW_LEG_SEL⟩
  , ⟨R.LFW_W_BYTES_SENT, 1, 0x0, 2, .ro, 0x0, 0x0, R.LFW_LEG_SEL⟩
  , ⟨R.LFW_W_SWITCHES_UP, 1, 0x0, 2, .ro, 0x0, 0x0, R.LFW_LEG_SEL⟩
  , ⟨R.LFW_W_SWITCHES_DOWN, 1, 0x0, 2, .ro, 0x0, 0x0, R.LFW_LEG_SEL⟩
  , ⟨R.LFW_W_PLI_RX, 1, 0x0, 2, .ro, 0x0, 0x0, R.LFW_LEG_SEL⟩
  , ⟨R.LFW_W_NACK_IGNORED, 1, 0x0, 2, .ro, 0x0, 0x0, R.LFW_LEG_SEL⟩
  , ⟨R.LFW_W_QUEUE_MAX, 1, 0x0, 1, .rc, 0x0, 0x0, R.LFW_LEG_SEL⟩
  , ⟨R.LFW_W_BACKLOGS, 1, 0x0, 1, .ro, 0x0, 0x0, R.LFW_LEG_SEL⟩
  , ⟨R.LFW_W_TARGET, 1, 0x0, 1, .ro, 0x0, 0x0, R.LFW_LEG_SEL⟩ ]

/-- All registers of LFW. -/
def rowsLFW : List RegRow := rowsLFW0 ++ rowsLFW1

/-- Registers of WMC (part 1). -/
def rowsWMC0 : List RegRow :=
  [ ⟨R.WMC_CTRL, 1, 0x0, 1, .rw, 0x12C21, 0xFFFFF1, 0⟩
  , ⟨R.WMC_GUARD, 1, 0x0, 1, .rw, 0xFA00028, 0xFFFFFFFF, 0⟩
  , ⟨R.WMC_STA_SEL, 1, 0x0, 1, .rw, 0x0, 0x3FF, 0⟩
  , ⟨R.WMC_EVENT_MASK, 1, 0x0, 1, .rw, 0x0, 0x7, 0⟩
  , ⟨R.WMC_STATUS, 1, 0x0, 1, .ro, 0x0, 0x0, 0⟩
  , ⟨R.WMC_STATIONS, 1, 0x0, 1, .ro, 0x0, 0x0, 0⟩
  , ⟨R.WMC_WUR_STATIONS, 1, 0x0, 1, .ro, 0x0, 0x0, 0⟩
  , ⟨R.WMC_BA_AGREEMENTS, 1, 0x0, 1, .ro, 0x0, 0x0, 0⟩
  , ⟨R.WMC_RX_MPDUS, 1, 0x0, 2, .ro, 0x0, 0x0, 0⟩
  , ⟨R.WMC_TX_MPDUS, 1, 0x0, 2, .ro, 0x0, 0x0, 0⟩
  , ⟨R.WMC_DUP_RX, 1, 0x0, 2, .ro, 0x0, 0x0, 0⟩
  , ⟨R.WMC_RESPONSES, 1, 0x0, 2, .ro, 0x0, 0x0, 0⟩
  , ⟨R.WMC_FILTER_DROPS, 1, 0x0, 2, .ro, 0x0, 0x0, 0⟩
  , ⟨R.WMC_ASSOCS, 1, 0x0, 2, .ro, 0x0, 0x0, 0⟩
  , ⟨R.WMC_AUTH_FAIL, 1, 0x0, 2, .ro, 0x0, 0x0, 0⟩
  , ⟨R.WMC_UNREACH_DISCARD, 1, 0x0, 2, .ro, 0x0, 0x0, 0⟩
  , ⟨R.WMC_TWT_MISSES, 1, 0x0, 2, .ro, 0x0, 0x0, 0⟩
  , ⟨R.WMC_LOAD, 1, 0x0, 1, .ro, 0x0, 0x0, 0⟩
  , ⟨R.WMC_B_CFG, 16, 0x10, 1, .ro, 0x0, 0x0, 0⟩
  , ⟨R.WMC_B_STATIONS, 16, 0x10, 1, .ro, 0x0, 0x0, 0⟩
  , ⟨R.WMC_B_COLOUR, 16, 0x10, 1, .ro, 0x0, 0x0, 0⟩
  , ⟨R.WMC_B_GTK, 16, 0x10, 1, .rw, 0x15180, 0xFFFFFF, 0⟩
  , ⟨R.WMC_L_STATUS, 3, 0x80, 1, .ro, 0x0, 0x0, 0⟩
  , ⟨R.WMC_L_AIRTIME, 3, 0x80, 1, .ro, 0x0, 0x0, 0⟩ ]

/-- Registers of WMC (part 2). -/
def rowsWMC1 : List RegRow :=
  [ ⟨R.WMC_L_TX_PPDU, 3, 0x80, 2, .ro, 0x0, 0x0, 0⟩
  , ⟨R.WMC_L_RX_PPDU, 3, 0x80, 2, .ro, 0x0, 0x0, 0⟩
  , ⟨R.WMC_L_MU_PPDU, 3, 0x80, 2, .ro, 0x0, 0x0, 0⟩
  , ⟨R.WMC_L_TRIGGERS, 3, 0x80, 2, .ro, 0x0, 0x0, 0⟩
  , ⟨R.WMC_L_RETRIES, 3, 0x80, 2, .ro, 0x0, 0x0, 0⟩
  , ⟨R.WMC_L_BEACON_LOSS, 3, 0x80, 2, .ro, 0x0, 0x0, 0⟩
  , ⟨R.WMC_L_MU_USERS_MAX, 3, 0x80, 1, .rc, 0x0, 0x0, 0⟩
  , ⟨R.WMC_W_STATE, 1, 0x0, 1, .ro, 0x0, 0x0, R.WMC_STA_SEL⟩
  , ⟨R.WMC_W_AID, 1, 0x0, 1, .ro, 0x0, 0x0, R.WMC_STA_SEL⟩
  , ⟨R.WMC_W_MAC, 1, 0x0, 2, .ro, 0x0, 0x0, R.WMC_STA_SEL⟩
  , ⟨R.WMC_W_LINK, 1, 0x0, 1, .ro, 0x0, 0x0, R.WMC_STA_SEL⟩
  , ⟨R.WMC_W_QUEUE0, 1, 0x0, 1, .ro, 0x0, 0x0, R.WMC_STA_SEL⟩
  , ⟨R.WMC_W_QUEUE1, 1, 0x0, 1, .ro, 0x0, 0x0, R.WMC_STA_SEL⟩
  , ⟨R.WMC_W_GUARD, 1, 0x0, 1, .ro, 0x0, 0x0, R.WMC_STA_SEL⟩
  , ⟨R.WMC_W_TWT, 1, 0x0, 1, .ro, 0x0, 0x0, R.WMC_STA_SEL⟩
  , ⟨R.WMC_W_RX_MPDUS, 1, 0x0, 2, .ro, 0x0, 0x0, R.WMC_STA_SEL⟩
  , ⟨R.WMC_W_TX_MPDUS, 1, 0x0, 2, .ro, 0x0, 0x0, R.WMC_STA_SEL⟩
  , ⟨R.WMC_W_DUP_RX, 1, 0x0, 2, .ro, 0x0, 0x0, R.WMC_STA_SEL⟩
  , ⟨R.WMC_W_RETRIES, 1, 0x0, 2, .ro, 0x0, 0x0, R.WMC_STA_SEL⟩
  , ⟨R.WMC_W_DISCARDS, 1, 0x0, 2, .ro, 0x0, 0x0, R.WMC_STA_SEL⟩
  , ⟨R.WMC_W_LAST_RX, 1, 0x0, 1, .ro, 0x0, 0x0, R.WMC_STA_SEL⟩
  , ⟨R.WMC_W_WUR, 1, 0x0, 1, .ro, 0x0, 0x0, R.WMC_STA_SEL⟩
  , ⟨R.WMC_WUR_CFG, 1, 0x0, 1, .ro, 0x0, 0x0, 0⟩
  , ⟨R.WMC_WUR_TIMING, 1, 0x0, 1, .ro, 0x0, 0x0, 0⟩ ]

/-- Registers of WMC (part 3). -/
def rowsWMC2 : List RegRow :=
  [ ⟨R.WMC_WUR_MIN_ON, 1, 0x0, 1, .ro, 0x0, 0x0, 0⟩
  , ⟨R.WMC_WUR_MAX_PERIOD, 1, 0x0, 1, .ro, 0x0, 0x0, 0⟩
  , ⟨R.WMC_WUR_BEACONS, 1, 0x0, 2, .ro, 0x0, 0x0, 0⟩
  , ⟨R.WMC_WUR_WAKES, 1, 0x0, 2, .ro, 0x0, 0x0, 0⟩
  , ⟨R.WMC_WUR_WAKE_FAIL, 1, 0x0, 2, .ro, 0x0, 0x0, 0⟩ ]

/-- All registers of WMC. -/
def rowsWMC : List RegRow := rowsWMC0 ++ rowsWMC1 ++ rowsWMC2

/-- Registers of WPH (part 1). -/
def rowsWPH0 : List RegRow :=
  [ ⟨R.WPH_CTRL, 1, 0x0, 1, .rw, 0x1AE, 0x1FF, 0⟩
  , ⟨R.WPH_STATUS, 1, 0x0, 1, .ro, 0x0, 0x0, 0⟩
  , ⟨R.WPH_RX_PPDUS, 1, 0x0, 2, .ro, 0x0, 0x0, 0⟩
  , ⟨R.WPH_RX_FCS_ERR, 1, 0x0, 2, .ro, 0x0, 0x0, 0⟩
  , ⟨R.WPH_TX_PPDUS, 1, 0x0, 2, .ro, 0x0, 0x0, 0⟩
  , ⟨R.WPH_LOAD, 1, 0x0, 1, .ro, 0x0, 0x0, 0⟩
  , ⟨R.WPH_R_CFG, 3, 0x100, 1, .ro, 0x0, 0x0, 0⟩
  , ⟨R.WPH_R_PRIMARY, 3, 0x100, 1, .ro, 0x0, 0x0, 0⟩
  , ⟨R.WPH_R_NOISE, 3, 0x100, 1, .ro, 0x0, 0x0, 0⟩
  , ⟨R.WPH_R_CCA, 3, 0x100, 1, .ro, 0x0, 0x0, 0⟩
  , ⟨R.WPH_R_RX_PPDUS, 3, 0x100, 2, .ro, 0x0, 0x0, 0⟩
  , ⟨R.WPH_R_RX_FCS_ERR, 3, 0x100, 2, .ro, 0x0, 0x0, 0⟩
  , ⟨R.WPH_R_RX_PREAMBLE_ERR, 3, 0x100, 2, .ro, 0x0, 0x0, 0⟩
  , ⟨R.WPH_R_TX_PPDUS, 3, 0x100, 2, .ro, 0x0, 0x0, 0⟩
  , ⟨R.WPH_R_RX_MU, 3, 0x100, 2, .ro, 0x0, 0x0, 0⟩
  , ⟨R.WPH_R_TX_MU, 3, 0x100, 2, .ro, 0x0, 0x0, 0⟩
  , ⟨R.WPH_R_OBSS_PD_TX, 3, 0x100, 2, .ro, 0x0, 0x0, 0⟩
  , ⟨R.WPH_R_CHAINS, 3, 0x100, 1, .ro, 0x0, 0x0, 0⟩
  , ⟨R.WPH_R_PEAK_MBPS, 3, 0x100, 1, .ro, 0x0, 0x0, 0⟩ ]

/-- All registers of WPH. -/
def rowsWPH : List RegRow := rowsWPH0

/-- Registers of RAD (part 1). -/
def rowsRAD0 : List RegRow :=
  [ ⟨R.RAD_CTRL, 1, 0x0, 1, .rw, 0x5041464, 0xFF0FFFFF, 0⟩
  , ⟨R.RAD_CAL_CFG, 1, 0x0, 1, .rw, 0xF, 0xFF, 0⟩
  , ⟨R.RAD_AERIAL_CFG, 1, 0x0, 1, .rw, 0xA1828, 0xFFFFFF, 0⟩
  , ⟨R.RAD_STATUS, 1, 0x0, 1, .ro, 0x0, 0x0, 0⟩
  , ⟨R.RAD_EVENT_MASK, 1, 0x0, 1, .rw, 0x0, 0x7, 0⟩
  , ⟨R.RAD_REG_SEL, 1, 0x0, 1, .rw, 0x0, 0xFF, 0⟩
  , ⟨R.RAD_REG_INFO, 1, 0x0, 1, .ro, 0x0, 0x0, R.RAD_REG_SEL⟩
  , ⟨R.RAD_REG_LIMIT, 1, 0x0, 1, .sl, 0x0, 0xFFFF3FFF, R.RAD_REG_SEL⟩
  , ⟨R.RAD_DIE_TEMP, 1, 0x0, 1, .ro, 0x0, 0x0, 0⟩
  , ⟨R.RAD_TX_NOT_READY, 1, 0x0, 2, .ro, 0x0, 0x0, 0⟩
  , ⟨R.RAD_TX_WAITS, 1, 0x0, 2, .ro, 0x0, 0x0, 0⟩
  , ⟨R.RAD_CLEARINGS, 1, 0x0, 2, .ro, 0x0, 0x0, 0⟩
  , ⟨R.RAD_SYNTH_UNLOCK, 1, 0x0, 2, .ro, 0x0, 0x0, 0⟩
  , ⟨R.RAD_CAL_FAILS, 1, 0x0, 2, .ro, 0x0, 0x0, 0⟩
  , ⟨R.RAD_R_STATUS, 3, 0x100, 1, .ro, 0x0, 0x0, 0⟩
  , ⟨R.RAD_R_CHANNEL, 3, 0x100, 1, .ro, 0x0, 0x0, 0⟩
  , ⟨R.RAD_R_READY_AT, 3, 0x100, 2, .ro, 0x0, 0x0, 0⟩
  , ⟨R.RAD_R_POWER, 3, 0x100, 1, .ro, 0x0, 0x0, 0⟩
  , ⟨R.RAD_R_GAINS, 3, 0x100, 1, .ro, 0x0, 0x0, 0⟩
  , ⟨R.RAD_R_CAL_STATUS, 3, 0x100, 1, .ro, 0x0, 0x0, 0⟩
  , ⟨R.RAD_R_CLEAR, 3, 0x100, 1, .ro, 0x0, 0x0, 0⟩
  , ⟨R.RAD_R_FEM, 3, 0x100, 1, .ro, 0x0, 0x0, 0⟩
  , ⟨R.RAD_R_RFFE, 3, 0x100, 1, .ro, 0x0, 0x0, 0⟩
  , ⟨R.RAD_R_TX_NOT_READY, 3, 0x100, 2, .ro, 0x0, 0x0, 0⟩ ]

/-- Registers of RAD (part 2). -/
def rowsRAD1 : List RegRow :=
  [ ⟨R.RAD_R_TX_WAITS, 3, 0x100, 2, .ro, 0x0, 0x0, 0⟩
  , ⟨R.RAD_R_RETUNES, 3, 0x100, 2, .ro, 0x0, 0x0, 0⟩
  , ⟨R.RAD_R_CLEARINGS, 3, 0x100, 2, .ro, 0x0, 0x0, 0⟩
  , ⟨R.RAD_R_CLEAR_DEFERS, 3, 0x100, 2, .ro, 0x0, 0x0, 0⟩
  , ⟨R.RAD_R_CLEAR_FORCED, 3, 0x100, 2, .ro, 0x0, 0x0, 0⟩
  , ⟨R.RAD_R_TRUNCATED, 3, 0x100, 2, .ro, 0x0, 0x0, 0⟩
  , ⟨R.RAD_R_RFFE_ERRORS, 3, 0x100, 2, .ro, 0x0, 0x0, 0⟩
  , ⟨R.RAD_C_STATUS, 12, 0x20, 1, .ro, 0x0, 0x0, 0⟩
  , ⟨R.RAD_C_POWER, 12, 0x20, 1, .ro, 0x0, 0x0, 0⟩
  , ⟨R.RAD_C_RL, 12, 0x20, 1, .ro, 0x0, 0x0, 0⟩
  , ⟨R.RAD_C_BIAS, 12, 0x20, 1, .ro, 0x0, 0x0, 0⟩
  , ⟨R.RAD_C_TUNER, 12, 0x20, 1, .ro, 0x0, 0x0, 0⟩
  , ⟨R.RAD_C_FAULTS, 12, 0x20, 2, .ro, 0x0, 0x0, 0⟩
  , ⟨R.RAD_W_CFG, 1, 0x0, 1, .ro, 0x0, 0x0, 0⟩
  , ⟨R.RAD_W_STATUS, 1, 0x0, 1, .ro, 0x0, 0x0, 0⟩
  , ⟨R.RAD_W_FRAMES, 1, 0x0, 2, .ro, 0x0, 0x0, 0⟩
  , ⟨R.RAD_W_MATCHED, 1, 0x0, 2, .ro, 0x0, 0x0, 0⟩
  , ⟨R.RAD_W_WAKES, 1, 0x0, 2, .ro, 0x0, 0x0, 0⟩
  , ⟨R.RAD_W_LAST, 1, 0x0, 2, .ro, 0x0, 0x0, 0⟩
  , ⟨R.RAD_W_RSSI, 1, 0x0, 1, .ro, 0x0, 0x0, 0⟩ ]

/-- All registers of RAD. -/
def rowsRAD : List RegRow := rowsRAD0 ++ rowsRAD1

/-- Registers of TMU (part 1). -/
def rowsTMU0 : List RegRow :=
  [ ⟨R.TMU_CTRL, 1, 0x0, 1, .rw, 0x3E80A01, 0xFFFFFF01, 0⟩
  , ⟨R.TMU_STATUS, 1, 0x0, 1, .ro, 0x0, 0x0, 0⟩
  , ⟨R.TMU_EVENT_MASK, 1, 0x0, 1, .rw, 0x0, 0x7, 0⟩
  , ⟨R.TMU_TIME_SEC_HI, 1, 0x0, 1, .ro, 0x0, 0x0, 0⟩
  , ⟨R.TMU_TIME_SEC, 1, 0x0, 1, .ro, 0x0, 0x0, 0⟩
  , ⟨R.TMU_TIME_NS, 1, 0x0, 1, .ro, 0x0, 0x0, 0⟩
  , ⟨R.TMU_TIME_FRAC, 1, 0x0, 1, .ro, 0x0, 0x0, 0⟩
  , ⟨R.TMU_RATE, 1, 0x0, 1, .ro, 0x0, 0x0, 0⟩
  , ⟨R.TMU_SLEW_REMAIN, 1, 0x0, 1, .ro, 0x0, 0x0, 0⟩
  , ⟨R.TMU_XO_MEAS, 1, 0x0, 1, .ro, 0x0, 0x0, 0⟩
  , ⟨R.TMU_STEPS, 1, 0x0, 2, .ro, 0x0, 0x0, 0⟩
  , ⟨R.TMU_SWITCHES, 1, 0x0, 2, .ro, 0x0, 0x0, 0⟩
  , ⟨R.TMU_HOLDOVERS, 1, 0x0, 2, .ro, 0x0, 0x0, 0⟩
  , ⟨R.TMU_REF_LOSSES, 1, 0x0, 2, .ro, 0x0, 0x0, 0⟩
  , ⟨R.TMU_LOST_TS, 1, 0x0, 2, .ro, 0x0, 0x0, 0⟩
  , ⟨R.TMU_HOLDOVER_MS, 1, 0x0, 2, .ro, 0x0, 0x0, 0⟩
  , ⟨R.TMU_HOLD_CFG, 1, 0x0, 1, .rw, 0x10, 0xFF, 0⟩
  , ⟨R.TMU_D_CFG, 2, 0x80, 1, .ro, 0x0, 0x0, 0⟩
  , ⟨R.TMU_D_STATE, 2, 0x80, 1, .ro, 0x0, 0x0, 0⟩
  , ⟨R.TMU_D_OFFSET, 2, 0x80, 2, .ro, 0x0, 0x0, 0⟩
  , ⟨R.TMU_D_RATE, 2, 0x80, 1, .ro, 0x0, 0x0, 0⟩
  , ⟨R.TMU_D_PATH_DELAY, 2, 0x80, 1, .ro, 0x0, 0x0, 0⟩
  , ⟨R.TMU_D_GM_ID, 2, 0x80, 2, .ro, 0x0, 0x0, 0⟩
  , ⟨R.TMU_D_GM_QUALITY, 2, 0x80, 1, .ro, 0x0, 0x0, 0⟩ ]

/-- Registers of TMU (part 2). -/
def rowsTMU1 : List RegRow :=
  [ ⟨R.TMU_D_SYNC_RX, 2, 0x80, 2, .ro, 0x0, 0x0, 0⟩
  , ⟨R.TMU_D_ANNOUNCE_RX, 2, 0x80, 2, .ro, 0x0, 0x0, 0⟩
  , ⟨R.TMU_D_DELAY_REQ_TX, 2, 0x80, 2, .ro, 0x0, 0x0, 0⟩
  , ⟨R.TMU_D_QUALIFY_LOSSES, 2, 0x80, 2, .ro, 0x0, 0x0, 0⟩
  , ⟨R.TMU_D_OFFSET_MAX, 2, 0x80, 1, .rc, 0x0, 0x0, 0⟩
  , ⟨R.TMU_D_LOCK_CFG, 2, 0x80, 1, .ro, 0x0, 0x0, 0⟩
  , ⟨R.TMU_Q_STATUS, 11, 0x10, 1, .ro, 0x0, 0x0, 0⟩
  , ⟨R.TMU_Q_FLAGS, 11, 0x10, 1, .w1c, 0x0, 0x1, 0⟩
  , ⟨R.TMU_Q_LOST_TS, 11, 0x10, 2, .ro, 0x0, 0x0, 0⟩
  , ⟨R.TMU_PPS_CFG, 1, 0x0, 1, .ro, 0x0, 0x0, 0⟩
  , ⟨R.TMU_PPS_OFFSET, 1, 0x0, 1, .ro, 0x0, 0x0, 0⟩
  , ⟨R.TMU_PPS_IN_LAST, 1, 0x0, 1, .ro, 0x0, 0x0, 0⟩
  , ⟨R.TMU_SYNCE_CFG, 1, 0x0, 1, .ro, 0x0, 0x0, 0⟩ ]

/-- All registers of TMU. -/
def rowsTMU : List RegRow := rowsTMU0 ++ rowsTMU1

/-- Registers of CAP (part 1). -/
def rowsCAP0 : List RegRow :=
  [ ⟨R.CAP_CTRL, 1, 0x0, 1, .rw, 0xC8, 0xFFFF, 0⟩
  , ⟨R.CAP_STATUS, 1, 0x0, 1, .ro, 0x0, 0x0, 0⟩
  , ⟨R.CAP_EVENT_MASK, 1, 0x0, 1, .rw, 0x0, 0x7, 0⟩
  , ⟨R.CAP_FILTERS, 1, 0x0, 1, .ro, 0x0, 0x0, 0⟩
  , ⟨R.CAP_ADMITTED, 1, 0x0, 1, .ro, 0x0, 0x0, 0⟩
  , ⟨R.CAP_STAGING, 1, 0x0, 1, .ro, 0x0, 0x0, 0⟩
  , ⟨R.CAP_RECORDS, 1, 0x0, 2, .ro, 0x0, 0x0, 0⟩
  , ⟨R.CAP_LOST, 1, 0x0, 2, .ro, 0x0, 0x0, 0⟩
  , ⟨R.CAP_REPLAY_SENT, 1, 0x0, 2, .ro, 0x0, 0x0, 0⟩
  , ⟨R.CAP_REPLAY_LATE, 1, 0x0, 2, .ro, 0x0, 0x0, 0⟩
  , ⟨R.CAP_TRIG_IGNORED, 1, 0x0, 2, .ro, 0x0, 0x0, 0⟩
  , ⟨R.CAP_LOAD, 1, 0x0, 1, .ro, 0x0, 0x0, 0⟩
  , ⟨R.CAP_S_STATUS, 16, 0x30, 1, .ro, 0x0, 0x0, 0⟩
  , ⟨R.CAP_S_RATE, 16, 0x30, 1, .ro, 0x0, 0x0, 0⟩
  , ⟨R.CAP_S_RING, 16, 0x30, 1, .ro, 0x0, 0x0, 0⟩
  , ⟨R.CAP_S_HEAD, 16, 0x30, 1, .ro, 0x0, 0x0, 0⟩
  , ⟨R.CAP_S_TAIL, 16, 0x30, 1, .ro, 0x0, 0x0, 0⟩
  , ⟨R.CAP_S_RECORDS, 16, 0x30, 2, .ro, 0x0, 0x0, 0⟩
  , ⟨R.CAP_S_BYTES, 16, 0x30, 2, .ro, 0x0, 0x0, 0⟩
  , ⟨R.CAP_S_LOST, 16, 0x30, 2, .ro, 0x0, 0x0, 0⟩
  , ⟨R.CAP_S_LATE, 16, 0x30, 1, .ro, 0x0, 0x0, 0⟩ ]

/-- All registers of CAP. -/
def rowsCAP : List RegRow := rowsCAP0

/-- Registers of PWR (part 1). -/
def rowsPWR0 : List RegRow :=
  [ ⟨R.PWR_CTRL, 1, 0x0, 1, .rw, 0x6400, 0xFF00, 0⟩
  , ⟨R.PWR_STATUS, 1, 0x0, 1, .ro, 0x0, 0x0, 0⟩
  , ⟨R.PWR_WAKE_CFG, 1, 0x0, 1, .ro, 0x0, 0x0, 0⟩
  , ⟨R.PWR_WAKE_GPIO, 1, 0x0, 1, .ro, 0x0, 0x0, 0⟩
  , ⟨R.PWR_WAKE_AT, 1, 0x0, 2, .ro, 0x0, 0x0, 0⟩
  , ⟨R.PWR_LAST_WAKE, 1, 0x0, 1, .ro, 0x0, 0x0, 0⟩
  , ⟨R.PWR_LAST_STATE, 1, 0x0, 1, .ro, 0x0, 0x0, 0⟩
  , ⟨R.PWR_EVENT_MASK, 1, 0x0, 1, .rw, 0x0, 0x3, 0⟩
  , ⟨R.PWR_VCORE, 1, 0x0, 1, .ro, 0x0, 0x0, 0⟩
  , ⟨R.PWR_EMBER_ENTRIES, 1, 0x0, 2, .ro, 0x0, 0x0, 0⟩
  , ⟨R.PWR_EMBER_MS, 1, 0x0, 2, .ro, 0x0, 0x0, 0⟩
  , ⟨R.PWR_WAKE_TIME_MAX, 1, 0x0, 1, .rc, 0x0, 0x0, 0⟩
  , ⟨R.PWR_ENTRY_TIME_MAX, 1, 0x0, 1, .rc, 0x0, 0x0, 0⟩
  , ⟨R.PWR_LOG_HEAD, 1, 0x0, 1, .ro, 0x0, 0x0, 0⟩
  , ⟨R.PWR_PMBUS_ERRORS, 1, 0x0, 2, .ro, 0x0, 0x0, 0⟩
  , ⟨R.PWR_RETAIN_LOST, 1, 0x0, 2, .ro, 0x0, 0x0, 0⟩
  , ⟨R.PWR_REFUSALS, 26, 0x4, 1, .ro, 0x0, 0x0, 0⟩
  , ⟨R.PWR_DOM_STATUS, 6, 0x4, 1, .ro, 0x0, 0x0, 0⟩
  , ⟨R.PWR_LOG_INFO, 16, 0x10, 1, .ro, 0x0, 0x0, 0⟩
  , ⟨R.PWR_LOG_TIME, 16, 0x10, 2, .ro, 0x0, 0x0, 0⟩
  , ⟨R.PWR_LOG_OBJECT, 16, 0x10, 1, .ro, 0x0, 0x0, 0⟩ ]

/-- All registers of PWR. -/
def rowsPWR : List RegRow := rowsPWR0

/-- Registers of HLT (part 1). -/
def rowsHLT0 : List RegRow :=
  [ ⟨R.HLT_CTRL, 1, 0x0, 1, .rw, 0x783C05, 0xFFFFFF, 0⟩
  , ⟨R.HLT_STATUS, 1, 0x0, 1, .ro, 0x0, 0x0, 0⟩
  , ⟨R.HLT_CANARY_SEL, 1, 0x0, 1, .rw, 0x0, 0x1FF, 0⟩
  , ⟨R.HLT_EVENT_MASK, 1, 0x0, 1, .rw, 0x0, 0x3, 0⟩
  , ⟨R.HLT_PLAN_MV, 1, 0x0, 1, .ro, 0x0, 0x0, 0⟩
  , ⟨R.HLT_SCALE, 1, 0x0, 1, .ro, 0x10000, 0x0, 0⟩
  , ⟨R.HLT_MARGIN, 1, 0x0, 1, .ro, 0x0, 0x0, 0⟩
  , ⟨R.HLT_AGE_H, 1, 0x0, 1, .ro, 0x0, 0x0, 0⟩
  , ⟨R.HLT_TJ_MAX, 1, 0x0, 1, .rc, 0x0, 0x0, 0⟩
  , ⟨R.HLT_WORST_CANARY, 1, 0x0, 1, .ro, 0x0, 0x0, 0⟩
  , ⟨R.HLT_MIGRATIONS, 1, 0x0, 2, .ro, 0x0, 0x0, 0⟩
  , ⟨R.HLT_SELFTESTS, 1, 0x0, 2, .ro, 0x0, 0x0, 0⟩
  , ⟨R.HLT_SELFTEST_FAILS, 1, 0x0, 2, .ro, 0x0, 0x0, 0⟩
  , ⟨R.HLT_NEXT_PLAN, 1, 0x0, 1, .ro, 0x0, 0x0, 0⟩
  , ⟨R.HLT_HEADROOM_H, 1, 0x0, 1, .ro, 0xFFFFFFFF, 0x0, 0⟩
  , ⟨R.HLT_TEMP, 16, 0x4, 1, .ro, 0x0, 0x0, 0⟩
  , ⟨R.HLT_VMON, 16, 0x4, 1, .ro, 0x0, 0x0, 0⟩
  , ⟨R.HLT_MIGR, 26, 0x8, 2, .ro, 0x0, 0x0, 0⟩
  , ⟨R.HLT_PLAN_MV_H, 16, 0x10, 1, .ro, 0x0, 0x0, 0⟩
  , ⟨R.HLT_PLAN_TIME, 16, 0x10, 2, .ro, 0x0, 0x0, 0⟩
  , ⟨R.HLT_PLAN_MARGIN, 16, 0x10, 1, .ro, 0x0, 0x0, 0⟩
  , ⟨R.HLT_K_STATUS, 1, 0x0, 1, .ro, 0x0, 0x0, R.HLT_CANARY_SEL⟩
  , ⟨R.HLT_K_RATE, 1, 0x0, 1, .ro, 0x0, 0x0, R.HLT_CANARY_SEL⟩
  , ⟨R.HLT_K_RATE_T0, 1, 0x0, 1, .ro, 0x0, 0x0, R.HLT_CANARY_SEL⟩ ]

/-- Registers of HLT (part 2). -/
def rowsHLT1 : List RegRow :=
  [ ⟨R.HLT_K_RATIO, 1, 0x0, 1, .ro, 0x0, 0x0, R.HLT_CANARY_SEL⟩
  , ⟨R.HLT_K_TEMP, 1, 0x0, 1, .ro, 0x0, 0x0, R.HLT_CANARY_SEL⟩ ]

/-- All registers of HLT. -/
def rowsHLT : List RegRow := rowsHLT0 ++ rowsHLT1

/-- Registers of OTP (part 1). -/
def rowsOTP0 : List RegRow :=
  [ ⟨R.OTP_STATUS, 1, 0x0, 1, .ro, 0x0, 0x0, 0⟩
  , ⟨R.OTP_BOOT_STAGE, 1, 0x0, 1, .ro, 0x0, 0x0, 0⟩
  , ⟨R.OTP_RESET_CAUSE, 1, 0x0, 1, .w1c, 0x0, 0x1F, 0⟩
  , ⟨R.OTP_BOOT_SRC, 1, 0x0, 1, .ro, 0x0, 0x0, 0⟩
  , ⟨R.OTP_BOOT_TIME, 1, 0x0, 1, .ro, 0x0, 0x0, 0⟩
  , ⟨R.OTP_WDT, 1, 0x0, 1, .rw, 0x7D0, 0x8000FFFF, 0⟩
  , ⟨R.OTP_BOOT_ATTEMPTS, 1, 0x0, 1, .ro, 0x0, 0x0, 0⟩
  , ⟨R.OTP_SAFE_DETAIL, 1, 0x0, 1, .ro, 0x0, 0x0, 0⟩
  , ⟨R.OTP_IMG_VERSION, 4, 0x4, 1, .ro, 0x0, 0x0, 0⟩
  , ⟨R.OTP_IMG_SVN, 4, 0x4, 1, .ro, 0x0, 0x0, 0⟩
  , ⟨R.OTP_REC_GEN, 8, 0x4, 1, .ro, 0x0, 0x0, 0⟩
  , ⟨R.OTP_ARB_COUNTER, 3, 0x4, 1, .ro, 0x0, 0x0, 0⟩
  , ⟨R.OTP_POLICY, 1, 0x0, 1, .ro, 0x0, 0x0, 0⟩
  , ⟨R.OTP_PROGRAM_OPS, 1, 0x0, 2, .ro, 0x0, 0x0, 0⟩
  , ⟨R.OTP_ECC_CORRECTED, 1, 0x0, 2, .ro, 0x0, 0x0, 0⟩
  , ⟨R.OTP_VERIFY_FAIL, 1, 0x0, 2, .ro, 0x0, 0x0, 0⟩
  , ⟨R.OTP_FALLBACKS, 1, 0x0, 2, .ro, 0x0, 0x0, 0⟩
  , ⟨R.OTP_TESTED_SET_COUNT, 1, 0x0, 1, .ro, 0x0, 0x0, 0⟩
  , ⟨R.OTP_STRAPS, 1, 0x0, 1, .ro, 0x0, 0x0, 0⟩
  , ⟨R.OTP_REGDOMAIN, 1, 0x0, 1, .ro, 0x0, 0x0, 0⟩
  , ⟨R.OTP_MAC_BASE_LO, 1, 0x0, 1, .ro, 0x0, 0x0, 0⟩
  , ⟨R.OTP_MAC_BASE_HI, 1, 0x0, 1, .ro, 0x0, 0x0, 0⟩ ]

/-- All registers of OTP. -/
def rowsOTP : List RegRow := rowsOTP0

/-- The register table of a subsystem by its number (Table 0-4): BAR0 base divided by 4 MiB. -/
def rowsOf : Nat → List RegRow
  | 0x00 => rowsDEV
  | 0x02 => rowsHPI
  | 0x03 => rowsFAB
  | 0x04 => rowsFLU
  | 0x05 => rowsDSX
  | 0x06 => rowsMEM
  | 0x07 => rowsDMC
  | 0x08 => rowsPKT
  | 0x09 => rowsCIP
  | 0x0A => rowsVCA
  | 0x0B => rowsMIX
  | 0x0C => rowsGRV
  | 0x0D => rowsASP
  | 0x0E => rowsVDE
  | 0x0F => rowsCMP
  | 0x10 => rowsVEN
  | 0x11 => rowsLFW
  | 0x12 => rowsWMC
  | 0x13 => rowsWPH
  | 0x14 => rowsRAD
  | 0x15 => rowsTMU
  | 0x16 => rowsCAP
  | 0x17 => rowsPWR
  | 0x18 => rowsHLT
  | 0x19 => rowsOTP
  | _ => []

end Sys2Proof.Machine
end

