-- ==== Sys2Proof/Config.lean ====
section
/-! DEFINITION. Config.lean: what the spec leaves open, as constants without a body. Nothing in
Lean can evaluate one, so a proof about one holds whatever its value is. -/

namespace Sys2Proof

/-- The free values of notes/assumptions/3.md: the `n`-th value the spec leaves open. A step that
needs one applies this to State.free and advances that counter. -/
opaque Config.freeValue : Nat → Nat

/-- SHA-384 (Table 4-6, R88): used by name, its algorithm is FIPS 180-4's and not the spec's. -/
opaque Config.sha384 : List Byte → List Byte

/-- ECDSA P-384 verification of a signature over a message (R88 check 5). -/
opaque Config.ecdsaVerify : (pub msg sig : List Byte) → Bool

/-- ML-DSA-87 verification of a signature over a message (R88 check 6). -/
opaque Config.mldsaVerify : (pub msg sig : List Byte) → Bool

/-- A status DETAIL or result field that the spec leaves open, by opcode and place
(notes/assumptions/11.md). -/
opaque Config.detail : (op site : Nat) → Nat

/-- The tested-set list that a HEARTH payload carries within its signed bytes (R90): where in the
payload it stands is not given. Entries of 16 bytes. -/
opaque Config.testedSet : List Byte → List (List Byte)

/-- The VERSION of kindling, the mask ROM (OTP_IMG_VERSION[0]). -/
opaque Config.kindlingVersion : Nat

/-- Which of its neighbours' alternate ports a junction's endpoint is wired to (R42). -/
opaque Config.altNeighbour : Nat → Nat

/-- The output port of a detour route from a junction to a destination (R41). -/
opaque Config.detourPort : (junction dest : Nat) → Nat

/-- The owner of a junction's endpoint where Table 2-5 leaves its place open: a number from which the
subsystem is chosen. -/
opaque Config.owner : Nat → Nat

/-- The bucket a key falls in under a way's seed (R156): the hash is not given. -/
opaque Config.flowHash : (seed : Nat) → (key : List Byte) → Nat

/-- The junction of a flue bank (Table 2-5 gives only the area). -/
opaque Config.fluJunction : Nat → Nat

/-- How many banks of a pooled SRAM partition hold live contents when `n` of its objects exist, where
the spec does not say which banks an object lies in (R119). -/
opaque Config.liveBanks : (partition n : Nat) → Nat

/-- The image (Table 9-10) of library program `prog` in the HEARTH image: its bundles are not given. -/
opaque Config.libImage : (prog : Nat) → List Byte

/-- How many bundles after the next one the result of RND or NORM lands: Table 9-7 does not list it. -/
opaque Config.accReadLatency : Nat

/-- The bytes of checkpoint copies that the mirrored DRAM system region holds (R228). -/
opaque Config.ckptBytes : Nat

/-- The linear gain of a value in 0.25 dB: how exactly the device forms it is not given (R189, R190). -/
opaque Config.dbGain : (qdb : Int) → Rat

/-- A peak sample in 0.25 dBFS. -/
opaque Config.dbOf : (peak : Nat) → Int

/-- The limiter of R191: its knee and time constants are named, not its curve. Ceiling and knee in 0.25 dB, the reduction
in force, a block of samples: the block after it, and the reduction then in 0.25 dB. -/
opaque Config.limiter : (ceiling : Int) → (knee reduction : Nat) → List Rat → List Rat
opaque Config.limiterGr : (ceiling : Int) → (knee reduction : Nat) → List Rat → Nat

/-- The rounding of a mixed sample to an integer in Q1.31 steps (R189 step 5): its direction is not given. -/
opaque Config.mixRound : Rat → Int

/-- The MIX junction that hosts a bus. -/
opaque Config.mixJunction : (bus : Nat) → Nat

/-- The SRAM bank in which a place of the flow table lies, and that of a key slot; whether a flue's items lie in a bank. -/
opaque Config.flowBank : (way bucket slot : Nat) → Nat
opaque Config.keyBank : (slot : Nat) → Nat
opaque Config.flueIn : (bank flue : Nat) → Bool

/-- The rate of a canary at test, in MHz, at a set point in mV (the factory area of the fuse store). -/
opaque Config.canaryTest : (canary mv : Nat) → Nat

/-- The CAP junction of a session (two sessions on each of eight). -/
opaque Config.capJunction : (session : Nat) → Nat

/-- Whether a restricted service period has room for one more that overlaps it, at a cycle (R308). -/
opaque Config.roomLeft : (cycle : Nat) → Bool

/-- The result of DEV_INFO: the identity, the firmware versions, the privileges of the four ports, the scale of the floor
figures. Where each stands in the result is not given (R78). -/
opaque Config.devInfo : (ident : Nat) → (versions privs : List Nat) → (scale : Nat) → List Byte

/-- The rows of the regulatory table that a RADIO payload carries for a country code and table version (R329): the words that
RAD_REG_LIMIT shows. Where in the payload they stand is not given. -/
opaque Config.regulatoryRows : (payload : List Byte) → (code : List Byte) → (version : Nat) → List Nat

end Sys2Proof
end

