-- ==== Sys2Proof/Machine/State.lean ====
section
/-! DEFINITION. Machine/State.lean: the state of the UH-9648 as plain data: every register, table,
queue, mode and pin the spec gives the device, its reset, and the reasons a step can stop. A table
of units the device always has lists only those that differ from their reset value; a table of
objects lists the objects that exist. -/

namespace Sys2Proof.Machine

/-! ### The timebase (R344) -/

/-- The timebase and its edge clock. `tb` counts 2⁻⁴⁰ ns, the resolution of the increment (R344);
`cycles` counts the cycles of the 307.2 MHz edge clock since reset; `rate` is the rate offset in
force in 2⁻¹⁶ ppm (TMU_RATE). -/
structure Clock where
  tb     : Nat := 0
  cycles : Nat := 0
  rate   : Int := 0
deriving DecidableEq, Repr

/-! ### Packets the device writes -/

/-- An event packet (R57): code, subsystem number, severity, object handle, short time, detail. -/
structure Event where
  code     : Nat
  subsys   : Nat
  severity : Nat
  handle   : Word := 0
  time     : DWord := 0
  detail   : List Byte := []
deriving DecidableEq, Repr

/-- A reply packet (Table 3-7); `result` starts with the host cookie. -/
structure Reply where
  opcode   : Nat
  rflags   : Nat := 0
  tag      : Word := 0
  status   : Nat := 0
  detail   : Nat := 0
  progress : Nat := 0
  result   : List Byte := []
  doneAt   : DWord := 0
deriving DecidableEq, Repr

/-! ### Host interface (Edham command protocol) -/

/-- HPI_RS_STATUS[1:0] (Table 3-17). -/
inductive RingPhase where
  | disabled | enabled | error | draining
deriving DecidableEq, Repr

/-- The final status of a completed command (R73). -/
structure DoneCmd where
  tag      : Word
  status   : Nat
  detail   : Nat
  progress : Nat
  total    : Nat
deriving DecidableEq, Repr

/-- One ring set (R46–R54). `replies` and `events` are the packets in its reply and event rings that
the host has not freed, oldest first, a reply with the slots it takes. `lost` counts the events lost
since the last EVENT_OVERFLOW and `lostAt` is the time of the first (R76); `kept` holds the last 256
final statuses, newest first (R73); `hold` is, for vectors 0 and 1, the cycle until which the
holdoff of HPI_RS_INT_MOD runs, and `owed` whether a vector waits for it (R412). `waiting` holds the
replies that found the reply ring full; `shadowAt` is the shadow block as last written (R51). -/
structure RingSet where
  phase    : RingPhase := .disabled
  err      : Nat := 0
  errSlot  : Nat := 0
  sqBase   : Nat := 0
  rplBase  : Nat := 0
  evtBase  : Nat := 0
  shadow   : Nat := 0
  sqSlots  : Nat := 0
  rplSlots : Nat := 0
  evtSlots : Nat := 0
  sqHead   : Nat := 0
  sqTail   : Nat := 0
  rplHead  : Nat := 0
  rplTail  : Nat := 0
  evtHead  : Nat := 0
  evtTail  : Nat := 0
  replies  : List (Nat × Reply) := []
  events   : List Event := []
  lost     : Nat := 0
  lostAt   : DWord := 0
  minSev   : Nat := 5
  mask     : Word := 0
  kept     : List DoneCmd := []
  waiting  : List Reply := []
  shadowAt : List Nat := [0, 0, 0, 0]
  hold     : List Nat := [0, 0]
  owed     : List Bool := [false, false]
  logged   : Bool := false
deriving DecidableEq, Repr

/-- One host port (Table 3-1, HPI_PORT_STATUS). -/
structure Port where
  linkUp : Bool := false
  lanes  : Nat := 0
  gen    : Nat := 0
  priv   : Nat := 0
  setup  : Nat := 0
deriving DecidableEq, Repr

/-- A lease (R65): the holding port, its term in ms, the cycle at which it ends, the objects it
covers, first the first one leased. -/
structure Lease where
  port : Nat
  term : Nat
  ends : Nat
  objs : List Word
deriving DecidableEq, Repr

/-- QUERY_PROGRESS STATE of a command not done (Table 3-10). -/
inductive CmdPhase where
  | queued | waitingTime | running
deriving DecidableEq, Repr

/-- A command fetched and not completed (R52); `seq` numbers it in fetch order. -/
structure OutCmd where
  seq      : Nat := 0
  opcode   : Nat
  cmd      : Cmd
  phase    : CmdPhase := .queued
  progress : Nat := 0
  total    : Nat := 0xFFFFFFFF
deriving DecidableEq, Repr

/-- What the device puts on its pins and links, oldest first in State.out. -/
inductive Output where
  /-- An MSI-X vector of a ring set (Table 3-4). -/
  | vector (rs vec : Nat)
  /-- The data of a register or BAR2 read. -/
  | readData (value : Nat)
  /-- Bytes written to host memory through a PCIe port (DMA). -/
  | hostMem (port addr : Nat) (data : List Byte)
  /-- A frame handed to an Ethernet sub-port, with its bytes or its template number. -/
  | ethFrame (iface : Nat) (what : Nat) (data : List Byte)
  /-- A PPDU or response handed to a radio. -/
  | air (radio : Nat) (what : Nat) (data : List Byte)
  /-- An RTP packet of a template leg's stream, before protection and framing (R376). -/
  | rtp (leg slot : Nat) (data : List Byte)
  /-- An item handed to a consumer: flue, item header word and payload. -/
  | item (flue : Nat) (hdr : Nat) (payload : List Byte)
  /-- A signal of a named unit: a pin level, a release, a start instant. -/
  | signal (unit : Nat) (index : Nat) (value : Int)
deriving DecidableEq, Repr

/-- The host interface: DEV, HRT and HPI. `mpRing` is the MP ring memory with its shadow block
(Table 3-2), as bytes from its offset 0; `aborts` the DEV_ABORT commands that wait for their target to end, by the fetch
numbers of target and DEV_ABORT; `rrNext` the ring set at which the round robin of R52 goes
on; `bootLog` the boot log of R418 with the count and first time of the entries lost. -/
structure HostIf where
  rings    : Tbl RingSet := []
  ports    : Tbl Port := []
  leases   : Tbl Lease := []
  cmds     : List OutCmd := []
  fetched  : Nat := 0
  aborts   : List (Nat × Nat) := []
  rrNext   : Nat := 0
  mpRing   : List Host.Cell := []
  bootLog  : List Event := []
  bootLost : Nat := 0
  bootLostAt : DWord := 0
  gpioIrq  : Bool := false
deriving DecidableEq, Repr

/-! ### Boot, firmware and fuses -/

/-- FW_QUERY STATE of a slot's image. -/
inductive ImgState where
  | empty | valid | invalid
deriving DecidableEq, Repr

/-- A slot's image of one type: the bytes held there and its state (R92). -/
structure Image where
  state : ImgState := .empty
  bytes : List Byte := []
deriving DecidableEq, Repr

/-- One flash directory copy (Table 4-5); `ok` is whether MAGIC and CRC hold. -/
structure DirCopy where
  ok        : Bool := false
  seq       : Nat := 0
  preferred : Nat := 0
  trial     : Bool := false
  tried     : Bool := false
deriving DecidableEq, Repr

/-- One generation of a fuse record (R94): its payload and whether header and CRC are valid. -/
structure FuseGen where
  ok      : Bool
  payload : List Byte
deriving DecidableEq, Repr

/-- The fuse store (Table 4-10): the generations used of each record type, the three anti-rollback
counters, and of the factory area the grade and the MAC base; `trip` says that the next programming
meets a read-back mismatch or a supply-monitor trip. -/
structure Fuses where
  recs    : Tbl (List FuseGen) := []
  arb     : List Nat := [0, 0, 0]
  trip    : Bool := false
  grade   : Nat := 2
  macBase : List Byte := [0, 0, 0, 0, 0, 0]
deriving DecidableEq, Repr

/-- The boot flash (Table 4-4): two directory copies and the images of slots A and B, indexed
slot × 4 + type as the firmware image handles are. `fault` the operation at which
the device itself fails (FLASH_FAIL DETAIL 2–4, 0 none). -/
structure Flash where
  present : Bool := true
  fault   : Nat := 0
  copy0   : DirCopy := {}
  copy1   : DirCopy := {}
  images  : Tbl Image := []
deriving DecidableEq, Repr

/-- A FW_LOAD assembly in DRAM staging: the image's handle index, its length, the bytes so far. -/
structure FwAsm where
  idx   : Nat
  total : Nat
  bytes : List Byte
deriving DecidableEq, Repr

/-- Boot and device status: DEV_STATUS, DEV_SAFE_REASON and the OTP block (Tables 3-16, 4-11).
`running` is the slot that runs (2 for staged images), `resetAt` the cycle of a pending DEV_RESET
and its SLOT (R83), `force` the slot forced for the next boot. `resume` is a START or (true) an
FW_ACCEPT_UNTESTED that waits for boot steps 9 to 11, with its ring set and tag. DEV_HEARTBEAT is `beat` plus the ms
since cycle `beatFrom`, and stands still without it. `supplyLow` is whether R398 holds boot step 1 and drives ALARM_N. -/
structure Boot where
  ready      : Bool := false
  safeHold   : Bool := false
  untested   : Bool := false
  degraded   : Bool := false
  emberExit  : Bool := false
  fatal      : Bool := false
  safeReason : Nat := 0
  sensed     : Bool := false
  programming : Bool := false
  integrity  : Bool := false
  stage      : Nat := 0
  cause      : Nat := 0
  src        : Nat := 0
  bootTime   : Nat := 0
  attempts   : Nat := 0
  safeDetail : Nat := 0
  running    : Option Nat := none
  trialBoot  : Bool := false
  fallback   : Bool := false
  version    : List Nat := [0, 0, 0, 0]
  svn        : List Nat := [0, 0, 0, 0]
  testedSet  : List (List Byte) := []
  staging    : Tbl Image := []
  asm        : Option FwAsm := none
  resume     : Option (Nat × Word × Bool) := none
  beat       : Nat := 0
  beatFrom   : Option Nat := none
  resetAt    : Option Nat := none
  resetSlot  : Nat := 0
  force      : Nat := 0
  supplyLow  : Bool := false
deriving DecidableEq, Repr

/-! ### Legs and conferences -/

/-- Leg states (Table 1-3) other than FREE, which is not being listed. -/
inductive LegState where
  | ready | active | held | closing
deriving DecidableEq, Repr

/-- A leg: its state, the parameters of Table 1-5, its membership, its reservations' use and its
counters (Table 1-6a). `closer` is the ring set and tag of the LEG_CLOSE that waits for its reply. -/
structure Leg where
  state      : LegState := .ready
  type       : Nat := 0
  codec      : Nat := 0
  frame      : Nat := 40
  channels   : Nat := 1
  videoIn    : Nat := 0
  fwdOut     : Nat := 0
  flags      : Nat := 0
  tier       : Nat := 0
  jbMin      : Nat := 0
  jbMax      : Nat := 0
  attach     : Word := 0
  attachChan : Nat := 0
  conf       : Option Nat := none
  role       : Nat := 0
  closer     : Option (Nat × Word) := none
  rxPackets  : Nat := 0
  txPackets  : Nat := 0
  heldDrops  : Nat := 0
  noSsrcDrops : Nat := 0
deriving DecidableEq, Repr

/-! ### Fabric (Hierarchy and fabric) -/

/-- What a release-register entry puts on its edge: a response or PPDU on a radio, a frame on an Ethernet
sub-port, a signal; `user` is its row of Table 2-1. -/
structure RelEntry where
  user    : Nat
  instant : Nat
  what    : Nat := 0
  arg     : Nat := 0
  data    : List Byte := []
deriving DecidableEq, Repr

/-- A damper asserted on a junction's endpoint and VC: since which cycle, how many asserters, whether
FAB_DAMPER_LONG has been raised. -/
structure Damper where
  since  : Nat
  count  : Nat := 1
  raised : Bool := false
deriving DecidableEq, Repr

/-- The fabric: retired links per junction (the byte LINK_RETIRED), failed junctions, endpoints moved to
a neighbour's alternate port, endpoints without a route, whether detour tables are loaded and, while they are
being computed, the cycle of the fault; dampers by junction × 4 + VC; the entries of the release
registers by edge domain, oldest first, of which the first four are in the register (R25); and the
cycle at which the present 100 ms miss window of an edge domain began (R27). -/
structure Fab where
  retired  : Tbl Nat := []
  failed   : List Nat := []
  rehomed  : Tbl Nat := []
  cut      : List Nat := []
  detours  : Bool := false
  faultAt  : Option Nat := none
  dampers  : Tbl Damper := []
  release  : Tbl (List RelEntry) := []
  missAt   : Tbl Nat := []
deriving DecidableEq, Repr

/-! ### Power, health and continuity -/

/-- What an engine does (VDE_E_STATUS[1:0] and its like). -/
inductive EngState where
  | inService | spare | retired
deriving DecidableEq, Repr

/-- An engine that is not as fitted (R390). -/
structure Engine where
  state  : EngState := .inService
  failed : Bool := false
deriving DecidableEq, Repr

/-- A margin plan made (HLT_PLAN_*): its voltage, scale in 2⁻¹⁶, time, worst margin and canary. -/
structure MarginPlan where
  mv     : Nat
  scale  : Nat
  time   : DWord
  margin : Int
  worst  : Nat
deriving DecidableEq, Repr

/-- A delay canary (HLT_K_*): rate now and at test in MHz, temperature in 0.25 °C. -/
structure Canary where
  rate   : Nat := 0
  temp   : Int := 0
  failed : Bool := false
deriving DecidableEq, Repr

/-- The health monitor: engines that are not as fitted by subsystem × 2¹⁶ + number, sensors, rails,
canaries, the plans made, newest first, and what has been raised once (R387–R392, R398). -/
structure Health where
  engines   : Tbl Engine := []
  temps     : Tbl Int := []
  vmon      : Tbl Nat := []
  canaries  : Tbl Canary := []
  plans     : List MarginPlan := []
  ageMin    : Nat := 0
  planAt    : Option Nat := none
  marginLow : Bool := false
  uncovered : Bool := false
  hot       : Bool := false
  exhausted : List Nat := []
  migrating : Bool := false
  headroom  : Nat := 0xFFFFFFFF
  tjMax     : Option Int := none
deriving DecidableEq, Repr

/-- PWR_STATUS[1:0], and COLD, in which only the always-on island lives (Table 17-1). -/
inductive PwrState where
  | active | entering | ember | waking | cold
deriving DecidableEq, Repr

/-- An entry of PWR_LOG. -/
structure PwrLog where
  refuser : Nat
  reason  : Nat
  point   : Nat
  target  : Nat
  time    : DWord
  object  : Word
deriving DecidableEq, Repr

/-- A power domain (R380): whether DOZE is permitted, whether it dozes, how often it has. -/
structure Domain where
  permitted : Bool := false
  dozing    : Bool := false
  entries   : Nat := 0
deriving DecidableEq, Repr

/-- The power manager: its state, the entry that runs (its command, step, target, start, the abort
asked for), the wake (step, whether it was retried, start, ready bits), wake sources as set, wake events
pending, the log newest first, domains, and the objects that wait for their reinstall by handle, with
bank, partition and owner (R385). `armed` and the next three are
the wake sources as the present entry armed them, `wakeReply` the reply of a completed EMBER entry that waits for its port's link, `supplyOut`
that a monitored rail is out of range, `fromCold` that the next boot leaves COLD. It keeps its values across COLD (R379). -/
structure Power where
  state     : PwrState := .active
  target    : Nat := 0
  entry     : Option (Nat × Word) := none
  step      : Nat := 0
  entryAt   : Nat := 0
  stepAt    : Nat := 0
  abort     : Bool := false
  sources   : Nat := 0
  edges     : Nat := 0
  gpioMask  : Nat := 0
  wakeAt    : DWord := 0
  pendingWake : List Nat := []
  lastWake  : Option Nat := none
  lastLow   : Nat := 0
  failedStep : Nat := 0
  coldCause : Nat := 0
  wakeStep  : Nat := 0
  retried   : Bool := false
  wakeFrom  : Nat := 0
  ready     : Nat := 0xF
  sleptAt   : Nat := 0
  banksLost : Nat := 0
  vcore     : Nat := 0
  log       : List PwrLog := []
  logged    : Nat := 0
  domains   : Tbl Domain := []
  reinstall : Tbl (Nat × Nat × Word) := []
  armed     : Nat := 0
  armEdges  : Nat := 0
  armGpio   : Nat := 0
  armAt     : DWord := 0
  slept     : Nat := 0
  wakeReply : Option (Nat × Word × List Byte) := none
  supplyOut : Bool := false
  fromCold  : Bool := false
deriving DecidableEq, Repr

/-! ### Flues (Flues and dispatch) -/

/-- FLU_W_CONFIG[17:16] of a flue that is not FREE. -/
inductive FluePhase where
  | active | resetting | deleting
deriving DecidableEq, Repr

/-- A flue (R96–R107). `items` are the items from HEAD to TAIL, oldest first; `head` is
HEAD modulo the depth and `consumed` how many of `items` lie before READ; the two copies of the pointers
(R106) agree but for the upset an operation finds. `headIn` says that HEAD lies inside a packet. `opener` is the producer with a
packet open, `openLen` that packet's length and `openGot` its items so far, `openAt` the cycle of the
last; `closed` lists producers whose packet was closed and whose later items are refused (R104);
`skipping` is a DROP_REMAINDER whose LAST has not arrived (R105); `inPacket` whether the consumer is
inside a packet; `staged` whether its bank's staging is full on its account (R109); `lost` whether unread items were discarded since its last pop (R101). -/
structure Flue where
  phase    : FluePhase := .active
  depthLog : Nat := 3
  ct       : Nat := 0
  retain   : Bool := false
  vc       : Nat := 1
  high     : Nat := 7
  low      : Nat := 0
  items    : List Item := []
  head     : Nat := 0
  consumed : Nat := 0
  opener   : Option Nat := none
  openLen  : Nat := 0
  openGot  : Nat := 0
  openAt   : Nat := 0
  closed   : List Nat := []
  skipping : Bool := false
  inPacket : Bool := false
  headIn   : Bool := false
  staged   : Bool := false
  lost     : Bool := false
  damped   : Bool := false
  producers : List Nat := []
  consumer : Option Nat := none
  users    : List Word := []
  resetAt  : Nat := 0
  corrupts : Nat := 0
  deleter  : Option (Nat × Word) := none
deriving DecidableEq, Repr

/-! ### On-chip SRAM and DRAM -/

/-- SRAM (R117–R123). `part` lists the banks whose partition differs from reset's assignment;
`spares` the spare rows used per bank; `lostBanks` the banks marked LOST with their contents zeroed
(R385); `rowErrs` the corrected errors of a row, by bank × 256 + row, within 24 h with the cycle of
the first; `poison` the byte addresses of poisoned 64-bit words; `cells` the contents, byte by byte
at bank × 128 KiB + offset. -/
structure Sram where
  part      : Tbl Nat := []
  spares    : Tbl Nat := []
  lostBanks : List Nat := []
  rowErrs   : Tbl (Nat × Nat) := []
  lowRaised : List Nat := []
  poison    : List Nat := []
  cells     : List Host.Cell := []
  dbgBase   : Nat := 0
  dbgOpen   : Bool := false
  scrubNext : Nat := 0
  ueSeen    : Bool := false
deriving DecidableEq, Repr

/-- DMC_CH_STATUS[2:0] (Table 6-10). -/
inductive ChState where
  | off | training | active | selfRefresh | switching | retired
deriving DecidableEq, Repr

/-- One DRAM channel (R124–R139). `open_` lists the open rows by bank with the cycle of the last
access and the rows for which a request is queued; `win`/`winConf` count the accesses and conflicts of the
present window of 4,096 (R132); `postponed` the refreshes postponed per bank; `slices` the slices run
of a full retrain and `since` its start cycle, `tries` the step of R137 it stands at; `trains` lists the
DRAM_TRAIN commands that wait for it. -/
structure Channel where
  state     : ChState := .off
  sp        : Nat := 0
  tset      : Nat := 0
  spLimit   : Nat := 0
  gib       : Nat := 8
  ranks     : Nat := 2
  temp      : Int := 25
  trainTemp : Int := 25
  hint      : Bool := false
  openRows  : Tbl (Nat × Nat) := []
  win       : Nat := 0
  winConf   : Nat := 0
  postponed : Tbl Nat := []
  linkEcc   : Nat := 0
  retrain   : Bool := false
  slices    : Nat := 0
  tries     : Nat := 0
  lastSlice : Nat := 0
  readEye   : Nat := 0
  writeEye  : Nat := 0
  byteSwap  : Bool := false
  caRev     : Bool := false
  differs   : Bool := false
  outcome   : Nat := 0
  drift     : Nat := 0
  patrolled : Nat := 0
deriving DecidableEq, Repr

/-- DRAM region state (DRAM_QUERY). -/
inductive RegState where
  | active | degraded | dataLost | deleting
deriving DecidableEq, Repr

/-- A DRAM region (R140–R147): the creation parameters (Table 6-6) with the channels resolved. A stripe on
channel c has a slot c and, mirrored, a slot c xor 16; `lost` are the slots whose data is gone, `moved` where
a rebuilt slot lies (R141). `poison` are the byte offsets of poisoned lines, `users` what uses it. -/
structure Region where
  state     : RegState := .active
  params    : List Byte := []
  sizeMib   : Nat := 0
  channels  : Nat := 0
  bwMbps    : Nat := 0
  rflags    : Nat := 0
  writePct  : Nat := 0
  lost      : List Nat := []
  moved     : Tbl Nat := []
  poison    : List Nat := []
  users     : List Word := []
deriving DecidableEq, Repr

/-- A DRAM_TRAIN that runs: its command, OP and SP, the channels left, whether the retrain of the first of
them is its own, the channels handled, and the channel that found no window (R138, R139). -/
structure TrainCmd where
  rs      : Nat
  tag     : Word
  op      : Nat
  sp      : Nat
  left    : List Nat
  started : Bool := false
  done    : Nat := 0
  failed  : Option Nat := none
deriving DecidableEq, Repr

/-- The DRAM side: channels, regions, the contents by region × 2⁴⁰ + byte offset, the BAR2 map in
force per port, the channels under overcommit (R146), and the DRAM_TRAIN commands that run, in order. -/
structure Dram where
  channels : Tbl Channel := []
  regions  : Tbl Region := []
  cells    : List Host.Cell := []
  bar2     : Tbl Nat := []
  overcommit : List Nat := []
  trains   : List TrainCmd := []
deriving DecidableEq, Repr

/-! ### Packet engine and cipher -/

/-- A flow-table entry (Table 7-4) under its handle index: the 32 bytes, the owner it draws on, an
IPv6 egress remote address's last 8 bytes, where it lies (in the CAM, or way, bucket, slot), its
hits with the short time and cycle of the last, and whether it is removed and waits for its drain (R160). `old` are the bytes packets already
looked up still use. -/
structure Flow where
  bytes   : List Byte := []
  owner   : Word := 0
  ctx     : List Byte := []
  inCam   : Bool := false
  way     : Nat := 0
  bucket  : Nat := 0
  slot    : Nat := 0
  hits    : Nat := 0
  lastHit : DWord := 0
  hitAt   : Nat := 0
  removed : Bool := false
  old     : Option (List Byte) := none
deriving DecidableEq, Repr

/-- A local address (ROUTE_SET OP 3, PKT_LADDR_W_CFG) with its NAT port pools (R163): lowest and
highest port for UDP and for TCP, lowest above highest where unset. -/
structure LAddr where
  addr   : List Byte := []
  flags  : Nat := 0
  zone   : Nat := 0
  vlan   : Nat := 0
  iface  : Nat := 0
  udpLo  : Nat := 1
  udpHi  : Nat := 0
  tcpLo  : Nat := 1
  tcpHi  : Nat := 0
deriving DecidableEq, Repr

/-- A neighbour (R161), static or learnt by the Hearth. -/
structure Neighbour where
  addr   : List Byte
  mac    : List Byte
  iface  : Nat
  static_ : Bool
deriving DecidableEq, Repr

/-- An Ethernet port (PORT_CONFIG, PKT_P_CTRL, PKT_P_STATUS, PKT_P_LANES). `up` is per sub-port. -/
structure EthPort where
  mode   : Nat := 0
  pflags : Nat := 0
  mtu    : Nat := 9216
  eapol  : Nat := 0
  mac    : List Byte := []
  up     : List Bool := [false, false, false, false]
  fault  : List Bool := [false, false]
  lanes  : Nat := 0
deriving DecidableEq, Repr

/-- A MACsec association (R154): its key slot; for a receive one the replay check, the window and
the next packet number expected. -/
structure MacsecSa where
  key     : Nat
  protect : Bool := false
  window  : Nat := 0
  nextPn  : Nat := 1
deriving DecidableEq, Repr

/-- The SecY of one sub-port: the transmit channel with its associations by AN and the AN that
transmits, and up to 16 receive channels by SCI. -/
structure SecY where
  txSci : Nat := 0
  txAn  : Option Nat := none
  tx    : Tbl MacsecSa := []
  rx    : Tbl (Tbl MacsecSa) := []
deriving DecidableEq, Repr

/-- A FLOW_INSTALL that found the CAM full (R158): its command, the entries left, the handles given so far. -/
structure InstallWait where
  rs      : Nat
  tag     : Word
  owner   : Word
  entries : List (List Byte)
  handles : List Nat
  dma     : Option Nat
deriving DecidableEq, Repr

/-- A received packet that waits for room in its flue (R107): its items, and the packet-buffer cells that it holds. -/
structure Handoff where
  flue  : Nat
  items : List Item
  iface : Nat
  cells : Nat
deriving DecidableEq, Repr

/-- A DHCP lease of a station's address: the station's MAC address and the cycle at which it expires. -/
structure Dhcp where
  mac  : List Byte
  ends : Nat
deriving DecidableEq, Repr

/-- The packet engine (R148–R166). `seeds` numbers the hash seed of each way by the free value drawn
for it (never readable, R156); `rehash` is the way under rehash and the seed it leaves;
`drains` lists the flow indices whose markers have not passed; `aclDefault` the default action per
zone pair (Table 7-5); `tcpClosing` CONN pairs with FIN or RST seen, by outbound index, with FIN
count and the cycle at which they expire. `natAt` is the cycle of the last NAT_EXHAUSTED, `icmpAt` and `icmpN` the second in
which ICMP errors were last sent and how many, `bufAt` and `bufDrops` the cycle of the last PKT_BUF_EXHAUSTED and the drops
since. `leases` are the DHCP leases by BSS × 65,536 + place in its pool. -/
structure Pkt where
  flows    : Tbl Flow := []
  seeds    : List Nat := [0, 1, 2, 3]
  rehash   : Option (Nat × Nat) := none
  moved    : Nat := 0
  drains   : List Nat := []
  laddrs   : Tbl LAddr := []
  nextHops : Tbl (List Byte) := []
  neighbours : Tbl Neighbour := []
  aclDefault : List Nat := [1, 0, 0]
  ports    : Tbl EthPort := []
  secys    : Tbl SecY := []
  finSeen  : Tbl Nat := []
  closeAt  : Tbl Nat := []
  natAt    : Option Nat := none
  icmpAt   : Option Nat := none
  icmpN    : Nat := 0
  bufAt    : Option Nat := none
  bufDrops : Nat := 0
  handoffs : List Handoff := []
  leases   : Tbl Dhcp := []
  portCmds : List (Nat × Word × Nat × Nat) := []
  installWait : List InstallWait := []
deriving DecidableEq, Repr

/-- A key slot (Table 7-7, R167–R171). `material` is slot bytes 16–63, which nothing returns (R168);
`left` the generations left behind and not yet zeroised; `inflight` the operations in flight per
generation; `held` the previous generation's material with its number and end cycle (R170); `win` the
replay window's bits below the highest index received, bit 0 that index. -/
structure Key where
  suite    : Nat := 0
  gen      : Nat := 0
  rx       : Bool := false
  written  : Bool := false
  owner    : Word := 0
  counter  : Nat := 0
  counter2 : Nat := 0
  material : List Byte := []
  left     : List Nat := []
  inflight : Tbl Nat := []
  held     : Option (Nat × List Byte × Nat) := none
  eraser   : Option (Nat × Word) := none
  win      : Nat := 0
  fresh    : Bool := true
  warned   : Bool := false
  spent    : Bool := false
  uses     : Nat := 0
  authFail : Nat := 0
  replay   : Nat := 0
deriving DecidableEq, Repr

/-! ### Audio mixing, routing and voice codecs -/

/-- A gain that moves linearly (R190, R197, R203): its value now, where it goes, the samples left and those before it
starts; `next` is a target with its length that starts at the next block boundary. -/
structure Ramp where
  cur  : Rat := 0
  goal : Rat := 0
  left : Nat := 0
  wait : Nat := 0
  next : Option (Rat × Nat) := none
deriving DecidableEq, Repr

/-- Where a member stands between its class encode and its individual encode (R197–R199). -/
inductive TalkPhase where
  | none | pending | entering | talker | leaving | crossing
deriving DecidableEq, Repr

/-- A leg as the mixer sees it (R189–R199, MIX_L_*): `trim` with its ramp, the listening bus and class, the level in 0.25 dBFS,
the block at whose end it was last active. `phase` is since block `since`; `starved`
is the block since which it waits as pending for a free individual encode (R199); `talk` is the part of its contribution in force
(R197, R198), `fade` the crossfade of R203, R186 and R185; `cross` moves its output between its class signal and another
(R199) towards class `toClass`. `dropped`
holds while it is faded under R186; `lvlLow` is the block since which its level is below the threshold; `block` are
its last samples; `oG`, `oQ`, `oGr` are the gain, its step and the limiter reduction of its individual output. -/
structure MixLeg where
  forced     : Bool := false
  muted      : Bool := false
  trim       : Int := 0
  trimG      : Ramp := { cur := 1, goal := 1 }
  bus        : Nat := 0
  cls        : Option Nat := none
  level      : Int := -3072
  lastActive : Option Nat := none
  lvlLow     : Option Nat := none
  phase      : TalkPhase := .none
  since      : Nat := 0
  starved    : Option Nat := none
  talk       : Ramp := {}
  fade       : Ramp := {}
  cross      : Ramp := {}
  toClass    : Option Nat := none
  dropped    : Bool := false
  block      : List Int := []
  oG         : Ramp := { cur := 1, goal := 1 }
  oQ         : Nat := 0
  oGr        : Nat := 0
deriving DecidableEq, Repr

/-- A mix class (R194): what its members share, the sample at which its next frame starts (R195), and the sample at
which it is freed once its last member has gone. -/
structure MixClass where
  bus      : Nat
  codec    : Nat
  rate     : Nat
  frame    : Nat
  channels : Nat
  start    : Nat
  freeAt   : Option Nat := none
  engine   : Nat := 0
deriving DecidableEq, Repr

/-- A feed of an auxiliary bus (R201): from a bus (kind 0) or a leg (kind 1), its gain in 0.25 dB (none: silent) and
linear; `gone` once removed. -/
structure Feed where
  kind : Nat
  src  : Nat
  qdb  : Option Int
  gain : Ramp := {}
  gone : Bool := false
deriving DecidableEq, Repr

/-- A bus routed onto consecutive channels of an audio port (R202). -/
structure BusOut where
  port    : Nat
  channel : Nat
  width   : Nat
  gain    : Ramp := {}
  gone    : Bool := false
deriving DecidableEq, Repr

/-- A bus's parameter set (Table 8-11). -/
structure BusSet where
  gain     : Int := 0
  gainAuto : Bool := true
  limitEn  : Bool := true
  ceiling  : Int := -4
  knee     : Nat := 16
deriving DecidableEq, Repr

/-- A loaded shadow set: the block it swaps at (none: the next) and the command that waits for it (R204). -/
structure ShadowSet where
  set    : BusSet
  at_    : Option Nat
  rs     : Nat
  tag    : Word
deriving DecidableEq, Repr

/-- A mix bus (R189–R191, MIX_B_*): its active set, the loads that wait, in order, its feeds and outputs; n, the step of
G in force and its ramp, BUS_GAIN's ramp, the limiter's reduction, the block last formed with its peak; `clipN` samples
clipped since the last MIX_CLIP at cycle `clipAt`. -/
structure Bus where
  conf    : Nat
  num     : Nat
  active  : BusSet := {}
  shadows : List ShadowSet := []
  feeds   : List Feed := []
  outs    : List BusOut := []
  n       : Nat := 0
  gQ      : Nat := 0
  g       : Ramp := { cur := 1, goal := 1 }
  busG    : Ramp := { cur := 1, goal := 1 }
  gr      : Nat := 0
  block   : List Int := []
  peak    : Int := -3072
  clipAt  : Option Nat := none
  clipN   : Nat := 0
deriving DecidableEq, Repr

/-- A conference: K, auxiliary buses, hold, first bus, the mix plan (Table 8-8), its members in
ascending leg index, those that have left and still fade, its classes, its talker set. -/
structure Conf where
  k         : Nat := 1
  aux       : Nat := 0
  hold      : Nat := 200
  firstBus  : Nat := 0
  pflags    : Nat := 0
  thresh    : Int := -180
  crossfade : Nat := 96
  hyst      : Nat := 6
  members   : List Nat := []
  leaving   : List Nat := []
  classes   : Tbl MixClass := []
  talkers   : List Nat := []
deriving DecidableEq, Repr

/-- VCA_W_STATE[1:0]. -/
inductive JbPhase where
  | idle | filling | playing | concealing
deriving DecidableEq, Repr

/-- A packet in a jitter buffer: sequence number, RTP timestamp in samples at Fs, the interface it came from and the
packet-buffer cells it holds. -/
structure JbPkt where
  seq : Nat
  ts  : Nat
  iface : Nat := 0
  cells : Nat := 0
deriving DecidableEq, Repr

/-- A leg's jitter buffer and codec state (R182–R187, VCA_W_*). `target` is in ms and `depth` in samples; timestamp
`anchorTs` plays at sample `anchor` of the timebase; `nextTs` is the timestamp of the frame due next; `played` the sequence
numbers lately released; `lateness` that of the last 2 s as (arrival ns, ns); `conceal` the run of concealment in 0.5 ms;
drift is in 0.1 ppm, `driftAt` the cycle since which it is too large. -/
structure Jitter where
  phase    : JbPhase := .idle
  target   : Nat := 20
  depth    : Nat := 0
  pkts     : List JbPkt := []
  released : List JbPkt := []
  played   : List Nat := []
  anchor   : Nat := 0
  anchorTs : Nat := 0
  nextTs   : Nat := 0
  lastSeq  : Option Nat := none
  lastTs   : Nat := 0
  lateness : List (Nat × Int) := []
  drift    : Int := 0
  driftAt  : Option Nat := none
  earlyRun : Nat := 0
  conceal  : Nat := 0
  longSaid : Bool := false
  mismatchAt : Option Nat := none
  decEngine : Nat := 0x7F
  encEngine : Nat := 0x7F
  received : Nat := 0
  late     : Nat := 0
  dup      : Nat := 0
  early    : Nat := 0
  dtx      : Nat := 0
  concealed : Nat := 0
  resyncs  : Nat := 0
  mismatch : Nat := 0
deriving DecidableEq, Repr

/-- An insert of a leg or bus (R227): the input it last took, its output last used, the crossfade that brings it in. -/
structure InsState where
  last : List Int
  out  : List Int
  fade : Ramp := {}
deriving DecidableEq, Repr

/-- The mixer and voice codecs: buses by number, legs and jitter buffers by leg, the block last mixed, the PCM and
individual outputs last formed by leg, and the inserts by task × 2¹⁵ + object (a leg, or 2¹⁴ + a bus). -/
structure Audio where
  buses   : Tbl Bus := []
  legs    : Tbl MixLeg := []
  jitter  : Tbl Jitter := []
  lastBlock : Option Nat := none
  outputs : Tbl (List Int) := []
  inserts : Tbl InsState := []
deriving DecidableEq, Repr

/-! ### DSP groves and the dispatcher -/

/-- A register, or a bit of SR, that a result lands in (Tables 9-1 and 9-2). -/
inductive Dest where
  | d (i : Nat) | acc (i : Nat) | p (i : Nat) | n (i : Nat) | l (i : Nat)
  | ls (i : Nat) | le (i : Nat) | lc (i : Nat) | srBit (i : Nat) | spc | ssr
deriving DecidableEq, Repr

/-- A result in flight: the bundle count at which it lands, its register and value (Table 9-7). -/
structure Landing where
  at_  : Nat
  dest : Dest
  val  : Int
deriving DecidableEq, Repr

/-- The register context of Table 9-1. Accumulators are exact integers in units of 2⁻⁶³; `acc` is
what every other reader sees, `accNew` what the next MAC-class operation chains on. -/
structure DspCtx where
  d      : List Word := List.replicate 16 0
  acc    : List Int := [0, 0, 0, 0]
  accNew : List Int := [0, 0, 0, 0]
  p      : List Word := List.replicate 8 0
  n      : List Word := List.replicate 8 0
  l      : List Word := List.replicate 8 0
  ls     : List Nat := [0, 0]
  le     : List Nat := [0, 0]
  lc     : List Word := [0, 0]
  pc     : Nat := 0
  sr     : Nat := 0
  spc    : Nat := 0
  ssr    : Nat := 0
deriving DecidableEq, Repr

/-- A stream-port command (R222): its task, POP or PUSH on a slot, address, length, stride and META; the bytes a
POP has written, and its META once its packet has begun. -/
structure SpCmd where
  task   : Nat
  push   : Bool
  slot   : Nat
  addr   : Nat
  len    : Nat
  stride : Nat
  meta_  : Nat
  got    : Nat := 0
  seen   : Option Nat := none
deriving DecidableEq, Repr

/-- A data window of R211: first byte and length. -/
structure Win where
  base : Nat := 0
  len  : Nat := 0
deriving DecidableEq, Repr

/-- What a core does once the two delay slots of a taken jump have issued (R217). -/
inductive JumpKind where
  | jump (target : Nat) | rti | finish | yield
deriving DecidableEq, Repr

/-- What an interrupt handler runs on top of: the task, if any, its windows, and D0 and P4–P7 as they stood. -/
structure Under where
  task : Option Nat
  wins : List Win
  d0   : Word
  p47  : List Word
deriving DecidableEq, Repr

/-- A DSP core (R207–R222). `issued` counts bundles; `jump` is a taken jump with the delay slots left, at 0
while END or RTI waits for the stream port; `atomRun` and `laneRun` are the runs of R218 and R210; `task` is
the task that runs, `under` what its handler interrupted; `wins` are the windows CONST, PARAM, and STATE
with WORK; `imem` the instruction memory by bundle address, `placed` and `consts` where each program
and its constants stand; `ready` the ready list, in ready order; `stop…` is the core as at its last stop. -/
structure Core where
  ctx      : DspCtx := {}
  land     : List Landing := []
  issued   : Nat := 0
  jump     : Option (JumpKind × Nat) := none
  atomRun  : Nat := 0
  laneRun  : Nat := 0
  task     : Option Nat := none
  under    : Option Under := none
  dmem     : List Host.Cell := []
  imem     : Tbl DWord := []
  placed   : Tbl Nat := []
  consts   : Tbl Nat := []
  wins     : List Win := [{}, {}, {}]
  spAddr   : Nat := 0
  spLen    : Nat := 0
  spMeta   : Nat := 0
  spQueue  : List SpCmd := []
  spNone   : Bool := false
  spTrunc  : Bool := false
  spDrop   : Bool := false
  spLastLen : Nat := 0
  spLastMeta : Nat := 0
  ready    : List Nat := []
  lateAt   : Option Nat := none
  stopCtx  : DspCtx := {}
  stopKind : Nat := 0
  stopTask : Nat := 0
  stopCause : Nat := 0
  trapPc   : Nat := 0
  trapAddr : Nat := 0
  ckptLast : Nat := 0
deriving DecidableEq, Repr

/-- A loaded program (Table 9-10). -/
structure Program where
  pflags     : Nat := 0
  bundles    : List DWord := []
  entry      : Nat := 0
  workAlign  : Nat := 6
  const_     : List Byte := []
  stateBytes : Nat := 0
  stateObj   : Nat := 0
  workBytes  : Nat := 0
  version    : Nat := 0
deriving DecidableEq, Repr

/-- Task states (Table 9-12) other than FREE. -/
inductive TaskState where
  | created | bound | faulted | deleting
deriving DecidableEq, Repr

/-- A checkpoint copy (R228): its dispatch sequence, STATE bytes, items consumed per input. -/
structure Ckpt where
  seq      : Nat := 0
  state    : List Byte := []
  consumed : List Nat := []
deriving DecidableEq, Repr

/-- An insert packet (R227): META and samples. -/
structure InsPkt where
  meta_ : Nat
  data  : List Byte
deriving DecidableEq, Repr

/-- A DSP task (R111–R115, R224–R229). `core` is where its areas stand and `target` its binding;
`inputs` and `outputs` are the flues of slots 0–3 and 4–7; `objs` the insert objects (kind 1 leg or 2 bus,
with its number), which exchange `insIn` and `insOut` with the mixer, `insTaken` packets read since the
last commit; `areas` the bases of PARAM copies 0 and 1, WORK, STATE and CONTEXT; `saved` the context of a
pre-empted or yielded task with its pending jump; `params` the DSP_TASK_PARAM commands that wait with offset and
data; `ran` the cycles of the dispatch; `tick` whether its block tick has arrived. -/
structure Task where
  state     : TaskState := .created
  prog      : Nat := 0
  level     : Nat := 0
  tflags    : Nat := 0
  maxObj    : Nat := 0
  cycles    : Nat := 1
  cyclesObj : Nat := 0
  rate      : Nat := 0
  budget    : Nat := 0
  trigger   : List Nat := [0, 0, 0, 0]
  paramBytes : Nat := 0
  target    : Nat := 0
  core      : Nat := 0
  inputs    : List (Option Nat) := [none, none, none, none]
  outputs   : List (Option Nat) := [none, none, none, none]
  objs      : List (Nat × Nat) := []
  insIn     : List InsPkt := []
  insTaken  : Nat := 0
  insOut    : List InsPkt := []
  areas     : List Nat := [0, 0, 0, 0, 0]
  stateLen  : Nat := 0
  workLen   : Nat := 0
  active    : Nat := 0
  params    : List (Nat × Word × Nat × List Byte) := []
  saved     : Option DspCtx := none
  ready     : Bool := false
  readyAt   : Nat := 0
  tick      : Bool := false
  block     : Nat := 0
  ran       : Nat := 0
  dispatches : Nat := 0
  traps     : Nat := 0
  cause     : Nat := 0
  code      : Nat := 0
  trapPc    : Nat := 0
  largest   : Nat := 0
  ckpts     : List Ckpt := [{}, {}]
  deleter   : Option (Nat × Word) := none
  bypassed  : Bool := false
deriving DecidableEq, Repr

/-- Groves and dispatcher: cores by number, programs loaded by the host, tasks, program images being assembled, the
ready lists of groves, and the inserts per leg and per bus in bind order. -/
structure Dsp where
  cores    : Tbl Core := []
  programs : Tbl Program := []
  tasks    : Tbl Task := []
  asm      : Tbl (List Byte) := []
  groveReady : Tbl (List Nat) := []
  legIns   : Tbl (List Nat) := []
  busIns   : Tbl (List Nat) := []
deriving DecidableEq, Repr

/-! ### Audio serial ports -/

/-- ASP_P_STATUS[2:0] (Table 10-1). -/
inductive AspPhase where
  | disabled | idle | armed | running | hold | relock
deriving DecidableEq, Repr

/-- A slot-mask change that waits for its frame start (R242): direction, masks, and the commands that it answers. -/
structure MaskSet where
  tx    : Bool
  masks : List Nat
  rs    : Nat
  tag   : Word
deriving DecidableEq, Repr

/-- An audio serial port (R230–R247, Table 10-9). `rxRing` and `txRing` hold ring words by number; `unread` is the received
audio that the mixer has not taken, in frames × 1,000; `lastRx`/`lastTx` are the last sample per channel; `lockRate` the
locked rate in mHz; `periods` the last 16 frame periods in ps, newest first; `lastStart` the last frame start in ps;
`startAt` the block of the start instant, `starter` the command that waits for the start, `trig` the trigger's short time where an arm started it; `started` whether a frame has
started; `txFade` the gain of the transmitted channels; `holdAt` the cycle of HOLD entry and `byPin` whether a pin caused it; `stopping` the ASP_STOP that waits, with the cycle its fade
began; `pins` the released pins with cause, failed retries and the cycle of the next retry. -/
structure AspPort where
  phase    : AspPhase := .disabled
  mode     : Nat := 0
  format   : Nat := 0
  lines    : Nat := 0
  slots    : Nat := 0
  slotBits : Nat := 0
  sampleBits : Nat := 0
  offset   : Nat := 0
  cflags   : Nat := 0
  rate     : Nat := 0
  mclkDiv  : Nat := 0
  holdMs   : Nat := 0
  rxMask   : List Nat := [0, 0, 0, 0]
  txMask   : List Nat := [0, 0, 0, 0]
  pendMask : List MaskSet := []
  frame    : Nat := 0
  wptr     : Nat := 0
  rptr     : Nat := 0
  rxRing   : Tbl Int := []
  txRing   : Tbl Int := []
  unread   : Nat := 0
  lastRx   : Tbl Int := []
  lastTx   : Tbl Int := []
  lockRate : Nat := 0
  periods  : List Nat := []
  lastStart : Nat := 0
  startBlock : Nat := 0
  startTime : DWord := 0
  startAt  : Option Nat := none
  starter  : Option (Nat × Word) := none
  started  : Bool := false
  holdAt   : Nat := 0
  byPin    : Bool := false
  faded    : Bool := false
  txFade   : Ramp := { cur := 1, goal := 1 }
  trig     : Option DWord := none
  stopping : Option (Nat × Word × Nat) := none
  pins     : Tbl (Nat × Nat × Nat) := []
deriving DecidableEq, Repr

/-- An arm of ASP_TRIGGER_ARM: ports, source, edge, instant in ns, the waiting command, and the start block with the
trigger's short time once it has come. -/
structure AspArm where
  ports  : Nat
  source : Nat
  edge   : Nat
  rs     : Nat
  tag    : Word
  start  : Option Nat := none
  trig   : DWord := 0
deriving DecidableEq, Repr

/-- The audio serial ports and the one arm held device-wide. -/
structure Asp where
  ports : Tbl AspPort := []
  arm   : Option AspArm := none
deriving DecidableEq, Repr

/-! ### Video decode and composition -/

/-- Decode stream states (Table 11-2) other than FREE. -/
inductive DecState where
  | waitKey | decoding | deleting
deriving DecidableEq, Repr

/-- A picture written by a decode stream: its number in the stream, the instant in ns at which it was
written, its size, and R256's and R257's marks. -/
structure Pic where
  num       : Nat
  at_       : Nat
  w         : Nat := 0
  h         : Nat := 0
  tainted   : Bool := false
  concealed : Bool := false
deriving DecidableEq, Repr

/-- A picture being reassembled (R253): RTP timestamp, first and last sequence number once seen, the
numbers held, the cycle at which a later picture's packet arrived, the ns of the last packet. -/
structure AsmPic where
  ts      : Nat
  first   : Option Nat := none
  last    : Option Nat := none
  seqs    : List Nat := []
  laterAt : Option Nat := none
  lastNs  : Nat := 0
deriving DecidableEq, Repr

/-- A picture gone to decode: timestamp, whether every packet is there, ns of the last packet. -/
structure DecPic where
  ts       : Nat
  complete : Bool
  lastNs   : Nat
deriving DecidableEq, Repr

/-- A decode stream (R248–R259, VDE_W_*). `asm` are the pictures being reassembled, `sent` the timestamps
of the latest pictures gone to decode, `queue` those that wait for the engine. `pics` are the pictures
last written, newest first, `clean` the newest that is neither tainted nor concealed, `dirty` the
numbers of those that are, `gaps` the temporal layers with an open gap, `taint` the tainted
temporal layers. `want` is set from a gap's opening until the taint ends, `kreq` is VDE_W_TAINT[2:1],
`fir` the FIR sequence number of this taint; `rate` the pictures of the last second by cycle, temporal layer
and whether they were kept; `limitAt` the cycle of the last DEC_LIMIT by case of Table 11-3. -/
structure Dec where
  state    : DecState := .waitKey
  codec    : Nat := 0
  dflags   : Nat := 0
  slot     : Nat := 1
  opPoint  : Nat := 0
  source   : Word := 0
  maxW     : Nat := 64
  maxH     : Nat := 64
  fps      : Nat := 1000
  comp     : Word := 0
  reorder  : Nat := 20
  spatial  : Nat := 1
  engine   : Nat := 0
  asm      : List AsmPic := []
  hiSeq    : Option Nat := none
  sent     : List Nat := []
  queue    : List DecPic := []
  num      : Nat := 0
  sinceKey : Nat := 0
  pics     : List Pic := []
  clean    : Option Pic := none
  dirty    : List Nat := []
  gaps     : List Nat := []
  taint    : Nat := 0
  taintAt  : Option Nat := none
  want     : Bool := false
  kreq     : Nat := 0
  reqAt    : Option Nat := none
  reqs     : Nat := 0
  fir      : Option Nat := none
  noKeySaid : Bool := false
  rate     : List (Nat × Nat × Bool) := []
  limitAt  : Tbl Nat := []
  deleter  : Option (Nat × Word) := none
deriving DecidableEq, Repr

/-- The key-picture requests of one incoming stream (R258): the cycle of the last one sent, the one that waits
for the gap (1 PLI, 2 FIR) with those who asked, and the FIR sequence number. -/
structure KeyReq where
  lastAt : Option Nat := none
  pend   : Nat := 0
  by_    : List Word := []
  fir    : Nat := 0
deriving DecidableEq, Repr

/-- A tile entry (Table 11-6). -/
structure TileDef where
  mode   : Nat := 0
  rank   : Nat := 0
  fit    : Nat := 0
  tflags : Nat := 0
  stream : Word := 0
  x      : Nat := 0
  y      : Nat := 0
  w      : Nat := 16
  h      : Nat := 16
  cropX  : Nat := 0
  cropY  : Nat := 0
  cropW  : Nat := 0
  cropH  : Nat := 0
  z      : Nat := 0
  border : Nat := 0
  fill   : Nat := 0
deriving DecidableEq, Repr

/-- A tile as composed: its entry, the leg a rank tile shows, the stream and picture shown, its state
(CMP_QUERY: 0 picture, 1 repeat, 2 frozen on taint, 3 fill), the ns since which its source has written
no new picture, and whether CMP_SOURCE_LOST has been raised for that. -/
structure Tile where
  tdef   : TileDef := {}
  leg    : Option Nat := none
  stream : Option Nat := none
  shown  : Option Nat := none
  state  : Nat := 3
  since  : Nat := 0
  said   : Bool := false
deriving DecidableEq, Repr

/-- An overlay (Table 11-11). -/
structure Overlay where
  format : Nat := 0
  z      : Nat := 0
  alpha  : Nat := 0
  region : Word := 0
  offset : Nat := 0
  x      : Nat := 0
  y      : Nat := 0
  w      : Nat := 0
  h      : Nat := 0
  stride : Nat := 0
  colour : Nat := 0
deriving DecidableEq, Repr

/-- What a change of a composition replaces. -/
inductive LayoutOp where
  | layout (tiles : List TileDef)
  | tile (index : Nat) (t : TileDef)
  | overlay (index : Nat) (o : Overlay)
deriving DecidableEq, Repr

/-- A change that waits for its output picture (R265): from which ns on or at which frame, and the command
that waits for it. -/
structure LayoutChange where
  op      : LayoutOp
  fromNs  : Nat
  atFrame : Option Nat
  rs      : Nat
  tag     : Word
deriving DecidableEq, Repr

/-- Composition states (R261) other than FREE. -/
inductive CmpState where
  | idle | running | deleting
deriving DecidableEq, Repr

/-- A composition (R260–R268, CMP_W_*). `t0` is T0 in ns; `frame` the next output picture's number. -/
structure Comp where
  conf    : Nat
  state   : CmpState := .idle
  w       : Nat := 64
  h       : Nat := 64
  fps     : Nat := 1000
  cflags  : Nat := 0
  bg      : List Nat := [0, 0, 0]
  hl      : Nat := 0
  engine  : Nat := 0
  t0      : Nat := 0
  frame   : Nat := 0
  tiles   : List Tile := []
  overlays : Tbl Overlay := []
  changes : List LayoutChange := []
  lateAt  : Option Nat := none
  deleter : Option (Nat × Word) := none
deriving DecidableEq, Repr

/-! ### Video encode and layer forwarding -/

/-- Encode stream states (Table 12-3) other than FREE. -/
inductive EncState where
  | waitSource | encoding | deleting
deriving DecidableEq, Repr

/-- A source picture handed to an encode stream: its instant in ns, whether it is a repeat marker,
whether it is CONCEALED or TAINTED, and the engine's deadline in ns (R269). -/
structure SrcPic where
  instant  : Nat
  repeat_  : Bool := false
  tainted  : Bool := false
  deadline : Nat := 0
deriving DecidableEq, Repr

/-- An encode stream (R269–R281, VEN_W_*). Per spatial layer: target rate, buffer fullness in bytes
with the ns it was brought up to date, the overrun carried to the next picture, the ns of the last key picture
or switch point, a switch point asked for. `pos` is the place in the temporal pattern; `keyWant`
the spatial layers for which a key picture is pending with its first cause; `force` an
ENC_KEY_PICTURE or structure change, served at the next picture; `wave` the pictures of an intra-refresh wave still to
code and `waveWant` a wave asked for;
`waiters` the ENC_KEY_PICTURE commands that wait, with KMODE and layer. -/
structure Enc where
  state    : EncState := .waitSource
  codec    : Nat := 2
  profile  : Nat := 0
  spatial  : Nat := 1
  temporal : Nat := 1
  source   : Word := 0
  w        : Nat := 64
  h        : Nat := 64
  fpsDiv   : Nat := 1
  eflags   : Nat := 0
  irPeriod : Nat := 0
  target   : List Nat := [0, 0, 0]
  hardCap  : Nat := 250
  keyCap   : Nat := 1000
  bufMs    : Nat := 500
  keyGap   : Nat := 500
  switchMs : Nat := 1000
  payload  : Nat := 1200
  engine   : Nat := 0
  srcSeen  : Nat := 0
  queue    : List SrcPic := []
  fullness : List Rat := [0, 0, 0]
  fullNs   : Nat := 0
  overrun  : List Rat := [0, 0, 0]
  pos      : Nat := 0
  frame    : Nat := 0
  keyNs    : Option Nat := none
  keyWant  : List Nat := []
  keyCause : Nat := 0
  force    : Bool := false
  wave     : Nat := 0
  waveWant : Bool := false
  waveCause : Nat := 0
  swNs     : List Nat := [0, 0, 0]
  swWant   : List Bool := [false, false, false]
  floorAt  : Option Nat := none
  lastStatus : Nat := 0
  lastBytes : Nat := 0
  lastOver : Nat := 0
  waiters  : List (Nat × Word × Nat × Nat) := []
  deleter  : Option (Nat × Word) := none
deriving DecidableEq, Repr

/-- The forwarding policy of a conference (Table 12-11). -/
structure FwdPolicy where
  reqMode  : Nat := 2
  util     : Nat := 90
  pace     : Nat := 250
  upHold   : Nat := 500
  queueMs  : Nat := 100
  start    : Nat := 1000
  maxKbps  : Nat := 50000
  minKbps  : Nat := 100
  fbLost   : Nat := 1000
  overuse  : Nat := 1000
deriving DecidableEq, Repr

/-- A layer (s, t): spatial layer or simulcast stream, temporal layer. -/
structure Layer where
  s : Nat
  t : Nat
deriving DecidableEq, Repr

/-- What an entry carries: one incoming stream or simulcast group of a leg, or an encode stream. -/
inductive FwdSrc where
  | leg (leg slot : Nat)
  | enc (index : Nat)
deriving DecidableEq, Repr

/-- A forward set entry (Table 12-5, R283–R290): the entry, for a rank entry its leg; the source sent now and
the one it should change to; want, target and current layer; `wants` what the evaluations of the last UP_HOLD_MS wanted, by
ns; since when a change waits for a key picture; the counters and the rewritten RTP
timeline (next sequence number, last timestamp, ns of the last picture). -/
structure FwdEntry where
  kind     : Nat := 0
  priority : Nat := 0
  limit    : Nat := 0xF
  source   : Nat := 0
  slot     : Nat := 0
  pt       : Nat := 0
  paused   : Bool := false
  ssrc     : Nat := 0
  leg      : Option Nat := none
  src      : Option FwdSrc := none
  next     : Option FwdSrc := none
  want     : Option Layer := none
  target   : Option Layer := none
  current  : Option Layer := none
  stream   : Nat := 0
  wants    : List (Nat × Option Layer) := []
  waitFrom : Option Nat := none
  waitSaid : Bool := false
  taintHold : Bool := false
  switches : Nat := 0
  seq      : Nat := 0
  lastTs   : Nat := 0
  lastNs   : Nat := 0
  tsOff    : Nat := 0
  sentRate : List (Nat × Nat) := []
deriving DecidableEq, Repr

/-- A packet in a pacing queue (R293): entry, bytes, ns at which it is eligible. -/
structure PacePkt where
  entry    : Nat
  bytes    : Nat
  eligible : Nat
deriving DecidableEq, Repr

/-- A leg's forward set and bandwidth estimator (R282–R294, LFW_W_*). `started`: the estimator runs; `rr` a receiver
report has come; `audioSeq` is the next audio sequence number; `win` are the reports of the present window as
(bytes received, packets reported, packets lost, arrival minus send in µs); `meanPrev` the previous
window's mean; `records` the send records (sequence, bytes, send ns); `paceNs` the ns at which the pacer
is free again; `lastRep` the cycle of the last report. -/
structure FwdSet where
  entries  : Tbl FwdEntry := []
  est      : Rat := 1000
  started  : Bool := false
  rfc8888  : Bool := false
  rr       : Bool := false
  win      : List (Nat × Nat × Nat × Int) := []
  delivered : Rat := 0
  lost     : Rat := 0
  grad     : Rat := 0
  meanPrev : Option Rat := none
  lastRep  : Nat := 0
  noFbSaid : Bool := false
  audio    : List (Nat × Nat) := []
  audioSeq : Nat := 0
  records  : List (Nat × Nat × Nat) := []
  queue    : List PacePkt := []
  paceNs   : Nat := 0
  backAt   : Option Nat := none
  srNs     : Nat := 0
deriving DecidableEq, Repr

/-- An incoming stream as LFW sees it (R288, R291), by leg × 8 + slot: the packets of the last 500 ms
as (ns, s, t, bytes), the tainted temporal layers, open gaps and dirty pictures as in a decode
stream, the size of its pictures, the last picture's timestamp. -/
structure VStream where
  pkts   : List (Nat × Nat × Nat × Nat) := []
  taint  : Nat := 0
  gaps   : List Nat := []
  dirty  : List Nat := []
  reqAt  : Option Nat := none
  firSent : Bool := false
  size   : Nat := 0
  picNs  : Nat := 0
deriving DecidableEq, Repr

/-- Video: decode streams, key-picture requests by incoming stream (leg × 8 + slot), compositions, encode
streams, policies by conference, forward sets by leg, incoming streams, and encode
streams' layers as LFW measures them, by stream × 4 + s. -/
structure Video where
  decs     : Tbl Dec := []
  kreqs    : Tbl KeyReq := []
  comps    : Tbl Comp := []
  encs     : Tbl Enc := []
  policies : Tbl FwdPolicy := []
  fwd      : Tbl FwdSet := []
  streams  : Tbl VStream := []
  encOut   : Tbl VStream := []
  evalNs   : Nat := 0
deriving DecidableEq, Repr

/-! ### Wireless access -/

/-- Station states (Table 13-3) other than FREE. -/
inductive StaState where
  | authenticating | associated | authorized | unreachable | removing
deriving DecidableEq, Repr

/-- A TWT agreement or schedule (Table 13-8): `startNs` is the next SP's start; `new` a change that takes effect at it. -/
structure Twt where
  tflags  : Nat := 0
  wakeUs  : Nat := 1000
  spUs    : Nat := 256
  startNs : Nat := 0
  tids    : Nat := 0
  new     : Option (Nat × Nat × Nat × Nat × Nat) := none
deriving DecidableEq, Repr

/-- A receive scoreboard (R313): the window's size and start, the numbers recorded in it, the MPDUs held for
reorder with the cycle of their arrival, their frames, and those delivered that the packet engine takes next. -/
structure Scoreboard where
  size  : Nat := 1
  start : Nat := 0
  seen  : List Nat := []
  held  : List (Nat × Nat) := []
  msdus : List (Nat × Frame) := []
  ready : List Frame := []
  fresh : Bool := true
deriving DecidableEq, Repr

/-- A station (R304–R318, WMC_W_*). `bss` is 0xFF in the station roles; `links` and the queues by AC (BE, BK, VI, VO); `deficit` in
µs as of `deficitAt`; `unacked` consecutive transmissions not acknowledged per link; `obs` the last 8 observations in
1/1,000 ppm with how many there have been; `misses` and `capMisses` in a row; `request` the cycle of a
pending association request; `admission` and `removers` the commands that wait; `step` the handshake tries; `reason` why it is
REMOVING and who asked; `missed` beacons in a row per link; `wakeTries` of a wake-up in progress; `awakeTo` the ns until which it is awake in a service
period; `parent` the BSSID joined in the station roles. -/
structure Sta where
  state    : StaState := .authenticating
  since    : Nat := 0
  aid      : Nat := 1
  bss      : Nat := 0xFF
  radio    : Nat := 0
  mac      : List Byte := []
  links    : Nat := 0
  mld      : Bool := false
  emlsr    : Bool := false
  eht      : Bool := false
  akm      : Nat := 0
  ps       : Bool := false
  wur      : Bool := false
  twtCap   : Bool := false
  deliv    : Nat := 0
  listen   : Nat := 10
  queues   : List Nat := [0, 0, 0, 0]
  committed : List Nat := [0, 0, 0, 0]
  deficit  : Int := 0
  deficitAt : Nat := 0
  unacked  : List Nat := [0, 0, 0]
  rate     : Nat := 0
  rssi     : Int := 0
  lastRx   : Nat := 0
  obs      : List Nat := []
  obsN     : Nat := 0
  misses   : Nat := 0
  capMisses : Nat := 0
  window   : Nat := 0
  unreachAt : Option Nat := none
  twts     : Tbl Twt := []
  members  : List Nat := []
  boards   : Tbl Scoreboard := []
  request  : Option Nat := none
  admission    : Option (Nat × Word) := none
  removers : List (Nat × Word) := []
  step     : Nat := 0
  stepAt   : Nat := 0
  reassoc  : Bool := false
  reason   : Nat := 0
  byStation : Bool := false
  probes   : Nat := 0
  missed   : List Nat := [0, 0, 0]
  beaconAt : List Nat := [0, 0, 0]
  keySlot  : Option Nat := none
  ssid     : List Byte := []
  password : List Byte := []
  wakeTries : Nat := 0
  wakeAt   : Option Nat := none
  awakeTo  : Nat := 0
  parent   : List Byte := []
deriving DecidableEq, Repr

/-- A BSS (Table 13-6): its parameter block, colours by radio with a change announced, the deletion that runs (command,
reason, stations removed), when its group keys were last renewed, its group key slots, the ns of the last TBTT by radio. -/
structure Bss where
  params   : List Byte := []
  colours  : List Nat := [0, 0, 0]
  gtkAt    : Nat := 0
  stopping : Option (Nat × Word × Nat × Nat) := none
  bcast    : Tbl Twt := []
  keys     : List Nat := []
  beaconNs : List Nat := [0, 0, 0]
deriving DecidableEq, Repr

/-- A radio's role (Table 13-5); `next` is a role set while the radio was OFF. -/
structure WlanRole where
  role     : Nat := 0
  rflags   : Nat := 0
  vlan     : Nat := 0
  maxUsers : Nat := 64
  next     : Option (Nat × Nat × Nat × Nat) := none
deriving DecidableEq, Repr

/-- The wake-up radio service (Table 13-9). -/
structure WurSvc where
  radio    : Nat := 0
  beaconTu : Nat := 0
  minOn    : Nat := 0
  maxPeriod : Nat := 0
  tries    : Nat := 0
  respMs   : Nat := 0
  lastNs   : Nat := 0
deriving DecidableEq, Repr

/-- Wireless access: stations, BSSs by number, roles by radio, scans that run by radio with the command that waits
(none: a background scan), failed authentications by address with their cycles, addresses ignored until a cycle, group
addresses of each radio's filter; `rescan` the uplink lost, by the radio whose background scan looks for its parent. -/
structure Wlan where
  stas    : Tbl Sta := []
  bsss    : Tbl Bss := []
  roles   : Tbl WlanRole := []
  wur     : WurSvc := {}
  scans   : Tbl (Option (Nat × Word)) := []
  fails   : List (List Byte × Nat) := []
  ignored : List (List Byte × Nat) := []
  groups  : Tbl (List (List Byte)) := []
  rescan  : Tbl Sta := []
deriving DecidableEq, Repr

/-! ### Radio control -/

/-- Radio states (Table 14-2). -/
inductive RadioState where
  | off | waking | idle | receive | transmit | retuning | calibrating | refHold
deriving DecidableEq, Repr

/-- A channel: primary, width code, centre, puncture mask. -/
structure RadioChan where
  primary  : Nat := 0
  width    : Nat := 0
  centre   : Nat := 0
  puncture : Nat := 0
deriving DecidableEq, Repr

/-- What sends a PPDU: a frame of WMC, a beacon of a BSS, a response, a replay session, a wake-up frame. -/
inductive TxWhat where
  | frame | beacon (bss : Nat) | response | replay (session : Nat) | wakeUp
deriving DecidableEq, Repr

/-- A transmit request (R323): earliest and latest ns of its first sample, what it sends. -/
structure TxReq where
  earliest : Nat
  latest   : Nat
  what     : TxWhat
deriving DecidableEq, Repr

/-- What waits at a radio in order of arrival (R327): a channel change with the command that waits for
it, or a RADIO_CAL with its bits. -/
inductive RadioJob where
  | channel (c : RadioChan) (by_ : Option (Nat × Word))
  | cal (mask chains : Nat) (rs : Nat) (tag : Word)
deriving DecidableEq, Repr

/-- Calibrations that run: the RADIO_CAL that waits for them, if one does, the bits still to run with the 200 µs steps left of each, steps done, the
first bit that failed, whether it runs in one interval. -/
structure CalRun where
  by_    : Option (Nat × Word)
  chains : Nat
  left   : List (Nat × Nat)
  done   : Nat := 0
  failed : Option Nat := none
  whole  : Bool := false
deriving DecidableEq, Repr

/-- A radio A–C (R320–R341). `back` is the state it left, `endNs` the ns at which WAKING, RETUNING or CALIBRATING
ends; `tuneTo` the channel RETUNING goes to; `on` the RADIO_STATE_SET that waits for IDLE; `tuner` the command that waits
for the lock; `relock` that a lost lock is being retried, with the state at the loss and its ns; `startup` that WAKING runs the
start-up set. `requests` wait for their release, `jobs` for their turn. Calibration: `valid`, `pend` and `failed` by bit,
the temperature of the last start-up set; `calNow` the bits of the interval that runs; `clearAt` the cycle of the next clearing.
The front end as FEM_CONFIG sets it; `limited` the channel and target for which POWER_LIMITED was raised; `announce` the
channel switch that the beacons announce. -/
structure Radio where
  state    : RadioState := .off
  back     : RadioState := .idle
  endNs    : Nat := 0
  chan     : RadioChan := {}
  tuneTo   : RadioChan := {}
  lock     : Bool := false
  on       : Option (Nat × Word) := none
  tuner    : Option (Nat × Word) := none
  relock   : Option (RadioState × Nat) := none
  startup  : Bool := false
  requests : List TxReq := []
  sending  : Option TxReq := none
  jobs     : List RadioJob := []
  cal      : Option CalRun := none
  valid    : Nat := 0
  pend     : Nat := 0
  failed   : Nat := 0
  temp     : Int := 0
  calNow   : List Nat := []
  clearAt  : Nat := 0
  defers   : Nat := 0
  target   : Int := 0
  paLead   : Nat := 0
  lnaLead  : Nat := 0
  femGain  : Int := 0
  aerialGain : Int := 0
  polarity : Nat := 0
  biasEn   : Nat := 0
  rffeMhz  : Nat := 0
  usid     : List Nat := [0, 0, 0, 0]
  limited  : Option (RadioChan × Int) := none
  announce : Option (RadioChan × Nat × Word) := none
deriving DecidableEq, Repr

/-- RAD_C_STATUS[1:0]. -/
inductive ChainState where
  | inService | disabled | fault | retired
deriving DecidableEq, Repr

/-- A chain (R335–R340). `cause` as RAD_C_STATUS[5:2]; `bad` and `worse` count consecutive PPDUs below WARN_RL and FAULT_RL,
`good` consecutive good probes; `searched` a search has followed the last warning; `meas` and `rl` are of the last PPDU,
`rls` the return losses of the last second by cycle, `mean` that of the band profile; `biasOff` the cycle at which the feed was
last switched off or retried, `biasTries` the failed retries. -/
structure Chain where
  state    : ChainState := .inService
  cause    : Nat := 0
  since    : Nat := 0
  probeAt  : Nat := 0
  bad      : Nat := 0
  worse    : Nat := 0
  good     : Nat := 0
  searched : Bool := false
  meas     : Int := 0
  rl       : Nat := 0
  rls      : List (Nat × Nat) := []
  mean     : Nat := 0
  tunerBad : Bool := false
  code     : Nat := 0
  biasOff  : Option Nat := none
  biasTries : Nat := 0
deriving DecidableEq, Repr

/-- A row of the regulatory table (RAD_REG_LIMIT). -/
structure RegLimit where
  centre : Nat
  band   : Nat
  width  : Nat
  limit  : Int
deriving DecidableEq, Repr

/-- Radio W (R342). -/
structure WakeRx where
  listen  : Bool := false
  feed    : Nat := 0
  channel : Nat := 0
  id      : Nat := 0
  lastAt  : DWord := 0
  rssi    : Int := 0
deriving DecidableEq, Repr

/-- The radio die: radios, chains, the wake receiver, the regulatory table as sealed at boot and its version. -/
structure RadioDie where
  radios  : Tbl Radio := []
  chains  : Tbl Chain := []
  wake    : WakeRx := {}
  rows    : List RegLimit := []
  version : Nat := 0
  sealed_ : Bool := false
deriving DecidableEq, Repr

/-! ### Time -/

/-- TMU_STATUS[2:0]. -/
inductive TmuState where
  | unset | locked | slewing | holdover | refLost
deriving DecidableEq, Repr

/-- Domain states (R346). -/
inductive DomState where
  | disabled | listening | uncalibrated | qualified | lost
deriving DecidableEq, Repr

/-- A time domain (Table 15-6, TMU_D_*). `offset` is the estimate minus the timebase in 2⁻¹⁶ ns as of cycle `offAt`, `rate` the
estimate against nominal in 2⁻¹⁶ ppm, `rates` those of the last HOLD_AVG_S by cycle; `syncAt` and `annAt` the cycles of the last
Sync and Announce, `run` consecutive Syncs within LOCK_NS, `qualAt` the cycle since which it is QUALIFIED, `large` that
TIME_OFFSET_LARGE was raised for this excursion. -/
structure TimeDomain where
  state    : DomState := .disabled
  params   : List Byte := []
  gmId     : Nat := 0
  quality  : Nat := 0
  offset   : Int := 0
  offAt    : Nat := 0
  rate     : Int := 0
  rates    : List (Nat × Int) := []
  pathDelay : Nat := 0
  logSync  : Int := 0
  logAnn   : Int := 0
  syncAt   : Nat := 0
  annAt    : Nat := 0
  run      : Nat := 0
  qualAt   : Nat := 0
  large    : Bool := false
deriving DecidableEq, Repr

/-- A transmit time-stamp (Table 15-4); `stamp` is in 2⁻¹⁶ ns. -/
structure TsEntry where
  id    : Nat
  port  : Nat
  flags : Nat
  stamp : Nat
deriving DecidableEq, Repr

/-- The time unit (R344–R357). `sel` is the domain followed, `last` the last one followed, `named` TIME_SELECT's; `slewD` the
ns that a slew began with at cycle `slewAt`, `slewEnd` the cycle at which it is done; `holdAt` the cycle since which the timebase runs in HOLDOVER or REF_LOST;
`lostAt` the cycle at which the reference was lost; `queues` the transmit stamps; the PPS and SyncE block as PPS_CONFIG
sets it. -/
structure TimeUnit where
  state    : TmuState := .unset
  sel      : Option Nat := none
  last     : Option Nat := none
  named    : Nat := 0
  locked   : Bool := false
  intOsc   : Bool := false
  doms     : Tbl TimeDomain := []
  slewD    : Int := 0
  slewAt   : Nat := 0
  slewEnd  : Option Nat := none
  holdAt   : Option Nat := none
  lostAt   : Option Nat := none
  queues   : Tbl (List TsEntry) := []
  pflags   : Nat := 0
  synceIf  : List Nat := [0, 0]
  synceDiv : List Nat := [0, 0]
  widthUs  : Nat := 0
  offsetNs : Int := 0
  ppsIn    : Int := 0
  ppsNext  : Nat := 0
  squelched : List Nat := []
deriving DecidableEq, Repr

/-! ### Capture and replay -/

/-- A record (Table 16-3). `time` is in 2⁻¹⁶ ns; in a pattern it is the offset from the loop start. `chans`
are the DRAM channels it lies on, `pos` the bytes of the ring written before it. -/
structure Rec where
  kind    : Nat
  point   : Nat := 0
  port    : Nat := 0
  time    : Nat := 0
  flags   : Nat := 0
  rssi    : Nat := 0
  rate    : Nat := 0
  seq     : Nat := 0
  meta_   : Nat := 0xFFFFFFFF
  origLen : Nat := 0
  payload : List Byte := []
  chans   : List Nat := []
  pos     : Nat := 0
deriving DecidableEq, Repr

/-- A filter (Table 16-6) with the session that owns it and the matches since its last take. -/
structure CapFilter where
  session : Nat
  action  : Nat := 0
  point   : Nat := 0
  kinds   : Nat := 0
  match_  : Nat := 0
  sample  : Nat := 0
  ports   : Nat := 0
  object  : Word := 0
  snap    : Nat := 0
  offset  : Nat := 0
  value   : List Byte := []
  mask    : List Byte := []
  seen    : Nat := 0
deriving DecidableEq, Repr

/-- Session states (Table 16-1) other than FREE. -/
inductive SesState where
  | idle | running | armed | triggered | loaded | scheduled | done
deriving DecidableEq, Repr

/-- The trigger of a session (Table 16-7); `fired`: its instant has been taken. -/
structure CapTrigger where
  source : Nat := 0
  input  : Nat := 0
  tflags : Nat := 0
  out    : Nat := 0
  at_    : DWord := 0
  fired  : Bool := false
deriving DecidableEq, Repr

/-- A capture or replay session (R358–R376, CAP_S_*). `recs` are the records of the ring or the pattern,
oldest first, `used` their bytes, `wptr` the bytes written so far; `head` the SEQ of the oldest retained; `lossCause`/`lossN` the records lost since the last
record stored; `msIdx`/`msBytes` the present 1 ms and its bytes; `trigSeq` the SEQ of the first record after the
trigger, `postLeft` the POST records still to store; `badCh` the channels of its region that retired; for
a replay `next` and `loop` say which record comes next, `fetched` how many are fetched ahead,
`lateAt`, `lateNew`, `lateIdx` pace REPLAY_LATE, `reports` the ns of the last sender report by leg. -/
structure Session where
  replay   : Bool := false
  mode     : Nat := 0
  sizeMib  : Nat := 64
  pre      : Nat := 0
  post     : Nat := 1
  region   : Nat := 0
  state    : SesState := .idle
  rate     : Nat := 0
  recs     : List Rec := []
  used     : Nat := 0
  wptr     : Nat := 0
  head     : Nat := 0
  tail     : Nat := 0
  lossCause : Nat := 0
  lossN    : Nat := 0
  lossAt   : Option Nat := none
  lossNew  : Nat := 0
  stored   : Nat := 0
  lostSum  : Nat := 0
  msIdx    : Nat := 0
  msBytes  : Nat := 0
  trigger  : CapTrigger := {}
  postLeft : Nat := 0
  badCh    : List Nat := []
  peak     : Nat := 0
  rmode    : Nat := 0
  sflags   : Nat := 0
  loops    : Nat := 0
  start    : Nat := 0
  period   : Nat := 0
  firstLeg : Nat := 0
  legCount : Nat := 0
  stagger  : Nat := 0
  ssrcBase : Nat := 0
  next     : Nat := 0
  loop     : Nat := 0
  fetched  : Nat := 0
  sent     : Nat := 0
  late     : Nat := 0
  lateAt   : Option Nat := none
  lateNew  : Nat := 0
  lateIdx  : Nat := 0
  cause    : Nat := 0
  reports  : Tbl Nat := []
deriving DecidableEq, Repr

/-- Capture and replay: sessions, the 64 device-wide filters, bytes in capture staging. -/
structure Cap where
  sessions : Tbl Session := []
  filters  : Tbl CapFilter := []
  staging  : Nat := 0
deriving DecidableEq, Repr

/-! ### The whole device -/

/-- The device. `pending` is the queue of waiting commands and events, first in, first out (the
model's own); `free` counts the free values taken (the model's own); `out` is what the device has put
on its pins and links, oldest first (the model's own); `regs` holds every register whose home is the
register itself, by BAR0 offset plus 2²⁸ × the instance its window shows, where it differs from
reset; `latches` the latch of each 64-bit register (R9). -/
structure State where
  pending : List Instr := []
  free    : Nat := 0
  out     : List Output := []
  clock   : Clock := {}
  regs    : Tbl DWord := []
  latches : Tbl Word := []
  host    : HostIf := {}
  boot    : Boot := {}
  fuses   : Fuses := {}
  flash   : Flash := {}
  fab     : Fab := {}
  legs    : Tbl Leg := []
  confs   : Tbl Conf := []
  flues   : Tbl Flue := []
  sram    : Sram := {}
  dram    : Dram := {}
  pkt     : Pkt := {}
  keys    : Tbl Key := []
  audio   : Audio := {}
  dsp     : Dsp := {}
  asp     : Asp := {}
  video   : Video := {}
  wlan    : Wlan := {}
  radio   : RadioDie := {}
  time    : TimeUnit := {}
  cap     : Cap := {}
  health  : Health := {}
  power   : Power := {}
deriving DecidableEq, Repr

/-- Why a step stops with a fault. No meaning of this model faults on data. -/
inductive Fault where
  /-- Raised by no command: every command of the table has an effect the spec gives (safe). -/
  | none
deriving DecidableEq, Repr

/-- Why a command has no meaning. -/
inductive Refusal where
  /-- Raised by the arms of Dispatch.lean for a command not modelled yet, by its mnemonic (safe). -/
  | notModelled (mnemonic : String)
deriving DecidableEq, Repr

/-- The device right after reset: every register at its reset value, no object, nothing waiting. -/
def State.reset : State := {}

end Sys2Proof.Machine
end

