-- ==== Sys2Proof/Machine/Table.lean ====
section
/-! DEFINITION. Machine/Table.lean: look-up and update of the sparse tables that State is made of.
Every update keeps the numbers strictly rising (Sys2Proof/Laws/Table.lean). -/

namespace Sys2Proof.Machine

/-- The entry numbered `k`, if listed. -/
def Tbl.get? {α : Type} : Tbl α → Nat → Option α
  | [], _ => none
  | (j, a) :: t, k => if j = k then some a else Tbl.get? t k

/-- The entry numbered `k`, or `d` where it is not listed. -/
def Tbl.getD {α : Type} (t : Tbl α) (k : Nat) (d : α) : α :=
  (Tbl.get? t k).getD d

/-- Whether `k` is listed. -/
def Tbl.has {α : Type} (t : Tbl α) (k : Nat) : Bool :=
  (Tbl.get? t k).isSome

/-- List `a` under `k`, in place of what stood there. -/
def Tbl.put {α : Type} : Tbl α → Nat → α → Tbl α
  | [], k, a => [(k, a)]
  | (j, b) :: t, k, a =>
    if k < j then (k, a) :: (j, b) :: t
    else if k = j then (k, a) :: t
    else (j, b) :: Tbl.put t k a

/-- Take `k` off the list. -/
def Tbl.del {α : Type} : Tbl α → Nat → Tbl α
  | [], _ => []
  | (j, b) :: t, k => if j = k then t else (j, b) :: Tbl.del t k

/-- Change the entry `k` where it is listed. -/
def Tbl.modify {α : Type} (t : Tbl α) (k : Nat) (f : α → α) : Tbl α :=
  t.map fun e => if e.1 = k then (e.1, f e.2) else e

/-- Change entry `k`, taking `d` for it where it is not listed. -/
def Tbl.upd {α : Type} (t : Tbl α) (k : Nat) (d : α) (f : α → α) : Tbl α :=
  Tbl.put t k (f (Tbl.getD t k d))

/-- The numbers listed, rising. -/
def Tbl.keys {α : Type} (t : Tbl α) : List Nat := t.map Prod.fst

/-- The entries listed. -/
def Tbl.vals {α : Type} (t : Tbl α) : List α := t.map Prod.snd

/-- The entries that satisfy `p`. -/
def Tbl.sel {α : Type} (t : Tbl α) (p : Nat → α → Bool) : Tbl α :=
  t.filter fun e => p e.1 e.2

/-- Change every entry. -/
def Tbl.each {α : Type} (t : Tbl α) (f : Nat → α → α) : Tbl α :=
  t.map fun e => (e.1, f e.1 e.2)

/-- The sum of `f` over the entries. -/
def Tbl.sum {α : Type} (t : Tbl α) (f : α → Nat) : Nat :=
  (t.map fun e => f e.2).foldl (· + ·) 0

/-- The lowest number from `lo` up that is not listed (R16), looking at `fuel` numbers at most. -/
def Tbl.lowestFreeFrom {α : Type} (t : Tbl α) (lo : Nat) : Nat → Option Nat
  | 0 => none
  | fuel + 1 => if Tbl.has t lo then Tbl.lowestFreeFrom t (lo + 1) fuel else some lo

/-- The lowest free number of `lo … lo + count − 1` (R16). A run of listed numbers is no longer
than the list, so the search stops one past its length. -/
def Tbl.lowestFree {α : Type} (t : Tbl α) (lo count : Nat) : Option Nat :=
  match Tbl.lowestFreeFrom t lo (min count (t.length + 1)) with
  | some k => if k < lo + count then some k else none
  | none => none

/-- The `k`-th number from `lo` up that is not listed. -/
def Tbl.nthFree {α : Type} : Tbl α → (lo k : Nat) → Nat
  | [], lo, k => lo + k
  | (j, _) :: t, lo, k => if lo + k < j then lo + k else Tbl.nthFree t (j + 1) (k - (j - lo))

/-- The numbers listed rise strictly: the canonical form. -/
def Tbl.wf {α : Type} : Tbl α → Bool
  | [] => true
  | [_] => true
  | (j, _) :: (k, b) :: t => decide (j < k) && Tbl.wf ((k, b) :: t)

end Sys2Proof.Machine
end

