-- ==== Sys2Proof/Machine/Ops.lean ====
section
/-! DEFINITION. Machine/Ops.lean: the named operations that every command uses: the timebase, the
stored registers and counters, free values, interrupt vectors, events and replies. -/

namespace Sys2Proof.Machine

/-! ### Time (R344) -/

/-- 2⁴⁰, the fraction of a nanosecond in which the increment is held. -/
def nsUnit : Nat := 1099511627776

/-- The nominal increment: 1 / 307.2 MHz in 2⁻⁴⁰ ns (R344). -/
def nominalInc : Nat := 3579139413333

/-- The increment at the rate in force (2⁻¹⁶ ppm). -/
def incOf (rate : Int) : Nat :=
  ((nominalInc : Int) + (nominalInc : Int) * rate / 65536000000).toNat

/-- The range of the timebase: 2⁴⁸ seconds, in 2⁻⁴⁰ ns. -/
def tbRange : Nat := 2 ^ 48 * 1000000000 * nsUnit

/-- `n` cycles of the timebase edge clock pass. -/
def Clock.tick (n : Nat) (c : Clock) : Clock :=
  { c with tb := (c.tb + n * incOf c.rate) % tbRange, cycles := c.cycles + n }

/-- `n` cycles pass. -/
def tick (n : Nat) (s : State) : State := { s with clock := Clock.tick n s.clock }

/-- The timebase in ns. -/
def nowNs (s : State) : Nat := s.clock.tb / nsUnit

/-- The timebase in whole seconds. -/
def nowSec (s : State) : Nat := nowNs s / 1000000000

/-- The 64-bit short form of an instant in ns (R10): seconds in the low word, ns in the high. -/
def shortOf (ns : Nat) : Nat := ns / 1000000000 % 2 ^ 32 + ns % 1000000000 * 2 ^ 32

/-- The present time in short form. -/
def nowShort (s : State) : DWord := BitVec.ofNat 64 (shortOf (nowNs s))

/-- The instant, in ns, that a short time names: the one nearest the present time (R60). -/
def nearestNs (s : State) (short : Nat) : Int :=
  ((nowSec s : Int) + signed 32 (short % 2 ^ 32 + 2 ^ 32 - nowSec s % 2 ^ 32)) * 1000000000 + (short / 2 ^ 32 : Nat)

/-- Cycles of the 307.2 MHz clock in `n` ms. -/
def msCycles (n : Nat) : Nat := 307200 * n

/-- Cycles in `n` µs, rounded up. -/
def usCycles (n : Nat) : Nat := (3072 * n + 9) / 10

/-- Cycles in `n` ns, rounded up. -/
def nsCycles (n : Nat) : Nat := (3072 * n + 9999) / 10000

/-- Elapsed `n` cycles in ms, µs and ns, rounded down. -/
def cyclesMs (n : Nat) : Nat := n / 307200
def cyclesUs (n : Nat) : Nat := n * 10 / 3072
def cyclesNs (n : Nat) : Nat := n * 10000 / 3072

/-- Let time pass until cycle `due`, if it lies ahead. -/
def tickTo (due : Nat) (s : State) : State := tick (due - s.clock.cycles) s

/-- Let time pass until the timebase reaches `ns`, if it lies ahead. -/
def tickToNs (ns : Nat) (s : State) : State :=
  tick ((ns * nsUnit - s.clock.tb + incOf s.clock.rate - 1) / max 1 (incOf s.clock.rate)) s

/-! ### Free values and output -/

/-- The next free value (notes/assumptions/3.md), and the state that has taken it. -/
def takeFree (s : State) : Nat × State := (Config.freeValue s.free, { s with free := s.free + 1 })

/-- Put something on the pins or links. -/
def emit (o : Output) (s : State) : State := { s with out := s.out ++ [o] }

/-! ### Stored registers (Table 0-7) -/

/-- Where BAR0 offset `off` falls in a row: the instance and the word. -/
def RegRow.hit (r : RegRow) (off : Nat) : Option (Nat × Nat) :=
  if off < r.base then none
  else if r.stride = 0 then
    if off - r.base < 4 * r.words then some (0, (off - r.base) / 4) else none
  else if (off - r.base) / r.stride < r.count ∧ (off - r.base) % r.stride < 4 * r.words then
    some ((off - r.base) / r.stride, (off - r.base) % r.stride / 4)
  else none

/-- The row, instance and word of a BAR0 offset in a list of rows. -/
def findIn : List RegRow → Nat → Option (RegRow × Nat × Nat)
  | [], _ => none
  | r :: rs, off =>
    match r.hit off with
    | some (i, w) => some (r, i, w)
    | none => findIn rs off

/-- The row, instance and word of a BAR0 offset: its subsystem is offset divided by 4 MiB (R4). -/
def findReg (off : Nat) : Option (RegRow × Nat × Nat) := findIn (rowsOf (off / 0x400000)) off

/-- The reset value of the register at `off`. -/
def resetOf (off : Nat) : Nat :=
  match findReg off with
  | some (r, _, _) => r.reset
  | none => 0

/-- A register's key when a window shows instance `inst`. -/
def winKey (off inst : Nat) : Nat := off + inst * 2 ^ 28

/-- The stored value of a register by its key (the BAR0 offset, or a window's). -/
def rgRaw (s : State) (key : Nat) : Nat :=
  match Tbl.get? s.regs key with
  | some v => v.toNat
  | none => resetOf (key % 2 ^ 28)

/-- Store a register. -/
def setRg (key value : Nat) (s : State) : State :=
  { s with regs := Tbl.put s.regs key (BitVec.ofNat 64 value) }

/-- A 64-bit counter counts `n` more, saturating (R9). -/
def bumpBy (key n : Nat) (s : State) : State := setRg key (satAdd 64 (rgRaw s key) n) s

/-- A 64-bit counter counts one. -/
def bump (key : Nat) (s : State) : State := bumpBy key 1 s

/-- A 32-bit saturating counter counts one. -/
def bump32 (key : Nat) (s : State) : State := setRg key (satAdd 32 (rgRaw s key) 1) s

/-- A tracker of a maximum takes `v`. -/
def trackMax (key v : Nat) (s : State) : State := setRg key (max (rgRaw s key) v) s

/-- A tracker of a minimum takes `v`. -/
def trackMin (key v : Nat) (s : State) : State := setRg key (min (rgRaw s key) v) s

/-- Bits [hi:lo] of a register. -/
def rgBits (s : State) (key hi lo : Nat) : Nat := bits (rgRaw s key) hi lo

/-! ### Ring sets and vectors (R46–R51, R412) -/

/-- The port of a ring set (Table 3-1): four each on HP0–HP2, one on MP. -/
def portOf (rs : Nat) : Nat := rs / 4

/-- The state of ring set `rs`. -/
def ringOf (s : State) (rs : Nat) : RingSet := Tbl.getD s.host.rings rs {}

/-- Change ring set `rs`. -/
def modRing (rs : Nat) (f : RingSet → RingSet) (s : State) : State :=
  { s with host.rings := Tbl.upd s.host.rings rs {} f }

/-- The state of host port `p`. -/
def portSt (s : State) (p : Nat) : Port := Tbl.getD s.host.ports p {}

/-- Change host port `p`. -/
def modPort (p : Nat) (f : Port → Port) (s : State) : State :=
  { s with host.ports := Tbl.upd s.host.ports p {} f }

/-- Whether the port's link is up; MP has no link to lose (Table 3-17). -/
def portUp (s : State) (p : Nat) : Bool := p == 3 || (portSt s p).linkUp

/-- Write bytes into the MP ring memory at offset `o` (Table 3-2). -/
def mpWrite (o : Nat) (bs : List Byte) (s : State) : State :=
  { s with host.mpRing := Memory.writeN s.host.mpRing o bs }

/-- Raise vector `v` of ring set `rs` on the wire, or leave it owed while the holdoff of
HPI_RS_INT_MOD runs (R412). MP has no MSI-X: its line is `gpioLow`. -/
def fireVector (rs v : Nat) (s : State) : State :=
  let m := rgBits s (R.HPI_RS_INT_MOD + 0x30 * rs) 15 0
  let r := ringOf s rs
  if v < 2 ∧ m ≠ 0 ∧ s.clock.cycles < r.hold.getD v 0 then
    modRing rs (fun r => { r with owed := r.owed.set v true }) s
  else
    let s := if v < 2 ∧ m ≠ 0 then
        modRing rs (fun r => { r with hold := r.hold.set v (s.clock.cycles + usCycles m), owed := r.owed.set v false }) s
      else s
    if rs = 12 then s else emit (.vector rs v) s

/-- Write the shadow block (R51). -/
def writeShadow (rs : Nat) (s : State) : State :=
  let r := ringOf s rs
  let lost := rgRaw s (R.HPI_RS_EVT_LOST + 0x30 * rs)
  let s := modRing rs (fun r => { r with shadowAt := [r.sqHead, r.rplTail, r.evtTail, lost] }) s
  if rs = 12 then
    mpWrite 0x28000 (leN r.sqHead 4 ++ leN r.rplTail 4 ++ leN r.evtTail 4 ++ leN 0 4 ++ leN lost 8) s
  else s

/-- The cause of vector `v` arises: the shadow block is written, then the cause becomes pending and
the vector is raised if unmasked. A cause already pending raises nothing more (R51, R412). -/
def raiseCause (rs v : Nat) (s : State) : State :=
  let s := writeShadow rs s
  let key := R.HPI_RS_INT_STATUS + 0x30 * rs
  let st := rgRaw s key
  if bit st v then s
  else
    let s := setRg key (setBit st v true) s
    if bit (rgRaw s (R.HPI_RS_INT_MASK + 0x30 * rs)) v then s else fireVector rs v s

/-- GPIO[0] is low while any cause of MP is pending and unmasked, if the strap assigns it (Table 3-1). -/
def gpioLow (s : State) : Bool :=
  s.host.gpioIrq &&
    w1c (rgRaw s (R.HPI_RS_INT_STATUS + 0x30 * 12)) (rgRaw s (R.HPI_RS_INT_MASK + 0x30 * 12)) != 0

/-! ### Events (R57, R75–R77, R418) -/

/-- The 32 bytes of an event packet. -/
def eventBytes (e : Event) : List Byte :=
  leN e.code 2 ++ leN e.subsys 1 ++ leN e.severity 1 ++ leN e.handle.toNat 4 ++ leN e.time.toNat 8
    ++ fit e.detail 16

/-- An event ring is full when its tail may not advance onto its head (R49). -/
def evtFull (r : RingSet) : Bool := (r.evtTail + 1) % max 1 r.evtSlots == r.evtHead

/-- Write an event packet at the event tail and raise vector 1 (Table 3-4). -/
def putEvent (rs : Nat) (e : Event) (s : State) : State :=
  let r := ringOf s rs
  let s := if rs = 12 then mpWrite (0x20000 + 32 * r.evtTail) (eventBytes e) s else s
  raiseCause rs 1
    (modRing rs (fun r => { r with events := r.events ++ [e], evtTail := (r.evtTail + 1) % max 1 r.evtSlots }) s)

/-- Discard an event due to a ring set and count it (R76). -/
def loseEvent (rs : Nat) (s : State) : State :=
  bump (R.HPI_RS_EVT_LOST + 0x30 * rs)
    (modRing rs (fun r =>
      { r with lost := satAdd 32 r.lost 1, lostAt := if r.lost = 0 then nowShort s else r.lostAt }) s)

/-- The EVENT_OVERFLOW of a count and the time of the first event lost (Table 3-13a). -/
def overflowEvent (s : State) (lost : Nat) (at_ : DWord) : Event :=
  { code := Ev.EVENT_OVERFLOW.code, subsys := Ev.EVENT_OVERFLOW.subsys, severity := Ev.EVENT_OVERFLOW.severity
    time := nowShort s, detail := leN lost 4 ++ leN at_.toNat 8 }

/-- Where events were lost and the ring has room again, one EVENT_OVERFLOW comes first (R76). -/
def flushLost (rs : Nat) (s : State) : State :=
  let r := ringOf s rs
  if r.lost = 0 ∨ evtFull r ∨ ¬ portUp s (portOf rs) then s
  else putEvent rs (overflowEvent s r.lost r.lostAt) (modRing rs (fun r => { r with lost := 0, lostAt := 0 }) s)

/-- Hand an event to one ring set: into its ring, or counted as lost (R76). -/
def sendEvent (rs : Nat) (e : Event) (s : State) : State :=
  if (ringOf s rs).phase = .disabled then s
  else
    let s := flushLost rs s
    if evtFull (ringOf s rs) || !portUp s (portOf rs) then loseEvent rs s else putEvent rs e s

/-- Whether a ring set's filter passes an event (R75). -/
def passes (r : RingSet) (e : Event) : Bool :=
  decide (r.minSev ≤ e.severity) && bit r.mask.toNat e.subsys

/-- Hand an event to every ring set whose filter passes it. -/
def sendAll (e : Event) : List Nat → State → State
  | [], s => s
  | rs :: t, s => sendAll e t (if passes (ringOf s rs) e then sendEvent rs e s else s)

/-- The thirteen ring sets. -/
def allRings : List Nat := [0, 1, 2, 3, 4, 5, 6, 7, 8, 9, 10, 11, 12]

/-- Keep an event in the boot log: its first 16 entries, the rest counted (R418). -/
def logBoot (e : Event) (s : State) : State :=
  if s.host.bootLog.length < 16 then { s with host.bootLog := s.host.bootLog ++ [e] }
  else { s with host.bootLost := s.host.bootLost + 1
                host.bootLostAt := if s.host.bootLost = 0 then e.time else s.host.bootLostAt }

/-- The event packet of a kind, raised now. -/
def mkEvent (k : EvKind) (h : Word) (detail : List Byte) (s : State) : Event :=
  { code := k.code, subsys := k.subsys, severity := k.severity, handle := h, time := nowShort s
    detail := fit detail 16 }

/-- A severity-4 event sets DEV_ALARM.FATAL (R77). -/
def markFatal (k : EvKind) (s : State) : State :=
  if k.severity = 4 then { s with boot.fatal := true } else s

/-- Raise an event: to the boot log before READY (R418), after it to every ring set whose filter
passes it. -/
def raise (k : EvKind) (h : Word) (detail : List Byte) (s : State) : State :=
  let e := mkEvent k h detail s
  let s := markFatal k s
  if s.boot.ready then sendAll e allRings s else logBoot e s

/-- Raise an event that bit `n` of its subsystem's event mask register suppresses when set. -/
def raiseUnless (mask n : Nat) (k : EvKind) (h : Word) (detail : List Byte) (s : State) : State :=
  if bit (rgRaw s mask) n then s else raise k h detail s

/-- Raise an event that goes to ring set 0 of a port, whatever that set's filter (R68, notes/assumptions/25.md). -/
def raiseTo (port : Nat) (k : EvKind) (h : Word) (detail : List Byte) (s : State) : State :=
  sendEvent (4 * port) (mkEvent k h detail s) s

/-! ### Replies (R55–R57) -/

/-- The slots a packet of `len` bytes takes (R48). -/
def slotsOf (len : Nat) : Nat := (len + 63) / 64

/-- The reply flags of the moment (R57). -/
def rflagsOf (s : State) (rs : Nat) (partialResult : Bool) : Nat :=
  b2n s.boot.untested + 2 * b2n partialResult + 4 * b2n s.boot.degraded
    + 8 * b2n ((ringOf s rs).events.any (fun e => decide (2 ≤ e.severity)) || decide (0 < (ringOf s rs).lost))

/-- The bytes of a reply packet (Table 3-7). -/
def replyBytes (r : Reply) : List Byte :=
  leN r.opcode 2 ++ leN 3 1 ++ leN r.rflags 1 ++ leN r.tag.toNat 4 ++ leN r.status 2 ++ leN r.detail 2
    ++ leN r.progress 4 ++ leN r.result.length 2 ++ leN 0 6 ++ leN r.doneAt.toNat 8 ++ r.result

/-- The free slots of a reply ring: one slot always stays unused (R49). -/
def rplFree (r : RingSet) : Nat :=
  r.rplSlots - 1 - (r.rplTail + r.rplSlots - r.rplHead) % max 1 r.rplSlots

/-- Write one packet at the reply tail. -/
def putPacket (rs slots : Nat) (p : Reply) (s : State) : State :=
  let r := ringOf s rs
  let s := if rs = 12 then mpWrite (0x10000 + 64 * r.rplTail) (replyBytes p) s else s
  modRing rs (fun r =>
    { r with replies := r.replies ++ [(slots, p)], rplTail := (r.rplTail + slots) % max 1 r.rplSlots }) s

/-- Write a reply, a PAD packet before it where it would wrap (R48), and raise vector 0. -/
def putReply (rs : Nat) (p : Reply) (s : State) : State :=
  let n := slotsOf (32 + p.result.length)
  let r := ringOf s rs
  let s := if r.rplTail + n ≤ r.rplSlots then s
    else putPacket rs (r.rplSlots - r.rplTail)
      { opcode := 0, result := List.replicate (64 * (r.rplSlots - r.rplTail) - 32) 0 } s
  raiseCause rs 0 (putPacket rs n p s)

/-- The slots a reply needs with the PAD packet that may precede it. -/
def replyNeed (r : RingSet) (p : Reply) : Nat :=
  let n := slotsOf (32 + p.result.length)
  if r.rplTail + n ≤ r.rplSlots then n else r.rplSlots - r.rplTail + n

/-- Write every waiting reply for which there is room, in completion order (R55). -/
def drainWaiting (rs : Nat) : Nat → State → State
  | 0, s => s
  | fuel + 1, s =>
    match (ringOf s rs).waiting with
    | [] => s
    | p :: t =>
      if replyNeed (ringOf s rs) p ≤ rplFree (ringOf s rs) then
        drainWaiting rs fuel (putReply rs p (modRing rs (fun r => { r with waiting := t }) s))
      else s

/-- Hand over a reply: discarded and counted while the port's link is down (Table 3-13a), held until
the ring has room where it has none (notes/assumptions/9.md). -/
def sendReply (rs : Nat) (p : Reply) (s : State) : State :=
  if portUp s (portOf rs) then
    drainWaiting rs ((ringOf s rs).waiting.length + 1)
      (modRing rs (fun r => { r with waiting := r.waiting ++ [p] }) s)
  else bump (R.HPI_PORT_RPL_DISCARD + 0x20 * portOf rs) s

end Sys2Proof.Machine
end

