-- ==== Sys2Proof/Machine/Objects.lean ====
section
/-! DEFINITION. Machine/Objects.lean: object handles (Table 3-6): index ranges, existence, and the
dependants that a lease covers (R65). -/

namespace Sys2Proof.Machine

/-- How many indices a class has (Table 3-6 and the chapters' limits). -/
def clsCount : Nat → Nat
  | 0x01 => 1
  | 0x02 => 16384
  | 0x03 => 4096
  | 0x04 => 8
  | 0x05 => 16384
  | 0x06 => 6144
  | 0x07 => 512
  | 0x08 => 1536
  | 0x09 => 16384
  | 0x0A => 1048576
  | 0x0B => 65536
  | 0x0C => 1024
  | 0x0D => 4
  | 0x0E => 2
  | 0x0F => 16
  | 0x10 => 6
  | 0x11 => 12
  | 0x12 => 65536
  | 0x13 => 4096
  | _ => 0

/-- Whether an object exists, that is, is not FREE. -/
def objExists (s : State) (cls idx : Nat) : Bool :=
  match cls with
  | 0x01 => idx == 0
  | 0x02 => Tbl.has s.legs idx
  | 0x03 => Tbl.has s.confs idx
  | 0x04 => true
  | 0x05 => Tbl.has s.dsp.tasks idx
  | 0x06 => Tbl.has s.video.decs idx
  | 0x07 => Tbl.has s.video.comps idx
  | 0x08 => Tbl.has s.video.encs idx
  | 0x09 => Tbl.has s.video.fwd idx
  | 0x0A => Tbl.has s.pkt.flows idx
  | 0x0B => Tbl.has s.keys idx
  | 0x0C => Tbl.has s.wlan.stas idx
  | 0x0D => true
  | 0x0E => true
  | 0x0F => Tbl.has s.cap.sessions idx
  | 0x10 => true
  | 0x11 => decide (1 ≤ idx % 4)
  | 0x12 => decide (idx < 4096) || Tbl.has s.flues idx
  | 0x13 => Tbl.has s.dram.regions idx
  | _ => false

/-- The handle names an existing object of one of the classes. -/
def handleIn (s : State) (classes : List Nat) (h : Word) : Bool :=
  classes.contains (hCls h) && decide (hIdx h < clsCount (hCls h)) && objExists s (hCls h) (hIdx h)

/-- The handle names an index of the class, or asks the device to choose one (R16). -/
def handleNew (cls : Nat) (h : Word) : Bool :=
  hCls h == cls && (decide (hIdx h < clsCount cls) || hIdx h == idxChoose)

/-- The index a create takes: the one named, or the lowest free of `lo … lo + n − 1` (R16). -/
def newIndex {α : Type} (t : Tbl α) (h : Word) (lo n : Nat) : Option Nat :=
  if hIdx h = idxChoose then Tbl.lowestFree t lo n else some (hIdx h)

/-- A create on an index that is not FREE: WRONG_STATE (R13), its DETAIL open (notes/assumptions/11.md). -/
def notFree {α : Type} (op : Nat) (t : Tbl α) (h : Word) : Option Err :=
  if hIdx h ≠ idxChoose ∧ Tbl.has t (hIdx h) then some (wrongState (Config.detail op 0)) else none

/-- A handle carried as a parameter names an existing object of one of the classes (R409). -/
def paramHandle (s : State) (classes : List Nat) (v : Nat) : Bool := handleIn s classes (BitVec.ofNat 32 v)

/-- The handle is the device's (R78). -/
def handleDev (h : Word) : Bool := h == devH

end Sys2Proof.Machine
end

