-- ==== Sys2Proof/Machine/Commands.lean ====
section
/-! DEFINITION. Machine/Commands.lean: how every Edham command is taken: fetched, held behind earlier
ones (R59), checked in the order of R58 and R409, committed, and answered (R55–R57). -/

namespace Sys2Proof.Machine

/-- What a step answers. -/
abbrev Out := Host.Outcome State Fault Refusal

/-! ### Header flags (Table 3-5) -/

def Cmd.wantReply (c : Cmd) : Bool := bit c.flags.toNat 0
def Cmd.ordered (c : Cmd) : Bool := bit c.flags.toNat 1
def Cmd.timed (c : Cmd) : Bool := bit c.flags.toNat 2
def Cmd.abortable (c : Cmd) : Bool := bit c.flags.toNat 3
def Cmd.dryRun (c : Cmd) : Bool := bit c.flags.toNat 4
/-- The sending port. -/
def Cmd.port (c : Cmd) : Nat := portOf c.rs

/-! ### Plans -/

/-- What a command that passed its checks does: it commits and is answered with a status, DETAIL,
PROGRESS and result, or it starts and is answered by a later event. -/
inductive Done where
  | reply (s : State) (status detail progress : Nat) (result : List Byte)
  | defer (s : State)

/-- Committed, with no results. -/
def Done.ok (s : State) : Done := .reply s St.OK 0 1 []

/-- Committed, with results. -/
def Done.okWith (s : State) (result : List Byte) : Done := .reply s St.OK 0 1 result

/-- One command on one state: its opcode and privilege (0 OBSERVE, 1 OPERATE, 2 ADMIN) and whether
SAFE_HOLD accepts it (Table 3-13); whether the header handle is right (R78); the objects it changes (R66);
objects that must not be under another port's lease though it changes none (`claims`), and a lease
failure its parameters cause; `exempt` if it runs on an object that waits for its reinstall (R385); the first state, parameter and resource failure; the parameter length (R409; none: any); and what
it does. -/
structure Plan where
  op       : Nat
  priv     : Nat := 1
  safe     : Bool := false
  handleOk : Bool
  touches  : List Word := []
  claims   : List Word := []
  leaseErr : Option Err := none
  exempt   : Bool := false
  state    : Option Err := none
  len      : Option Nat := some 8
  param    : Option Err := none
  res      : Option Err := none
  run      : State → Done

/-- A query: OBSERVE, changes nothing, answers a result (R56). -/
def Plan.query (op : Nat) (safe handleOk : Bool) (len : Nat) (param : Option Err) (answer : State → Nat × Nat × List Byte) : Plan :=
  { op, priv := 0, safe, handleOk, len := some len, param
    run := fun s => let a := answer s; .reply s a.1 0 a.2.1 a.2.2 }

/-! ### Results (R56) -/

/-- As many of the items from index `i` as fit in `room` bytes: their bytes and the next index. -/
def takeItems : List (List Byte) → (i room : Nat) → List Byte × Nat × Bool
  | [], i, _ => ([], i, true)
  | x :: xs, i, room =>
    if x.length ≤ room then
      let r := takeItems xs (i + 1) (room - x.length)
      (x ++ r.1, r.2)
    else ([], i, false)

/-- The answer of a query with a fixed part and items from index `start` on: status, PROGRESS, bytes
after the cookie. Offsets count from result offset 8. -/
def itemsAnswer (fixed : List Byte) (items : List (List Byte)) (start : Nat) : Nat × Nat × List Byte :=
  let r := takeItems (items.drop start) start (4056 - fixed.length)
  if r.2.2 then (St.OK, r.2.1 - start, fixed ++ r.1) else (St.OK_PARTIAL, r.2.1, fixed ++ r.1)

/-- A query's answer of a fixed record. -/
def recordAnswer (b : List Byte) : Nat × Nat × List Byte := (St.OK, 1, b)

/-! ### Leases (R65, R66) -/

/-- The objects directly above an object: a leg's conference, a flow's, key's or forward set's leg,
a composition's conference. -/
def parents (s : State) (h : Word) : List Word :=
  let i := hIdx h
  match hCls h with
  | 0x02 => match (Tbl.get? s.legs i).bind Leg.conf with | some c => [mkH 3 c] | none => []
  | 0x07 => match Tbl.get? s.video.comps i with | some c => [mkH 3 c.conf] | none => []
  | 0x09 => [mkH 2 i]
  | 0x0A => match Tbl.get? s.pkt.flows i with | some f => if hCls f.owner = 2 then [f.owner] else [] | none => []
  | 0x0B => match Tbl.get? s.keys i with | some k => if hCls k.owner = 2 then [k.owner] else [] | none => []
  | _ => []

/-- The object, and whatever a lease may name to cover it (R65). -/
def above (s : State) (h : Word) : List Word :=
  h :: (parents s h).flatMap (fun p => p :: parents s p) ++ [devH]

/-- Whether a lease covers an object. -/
def Lease.covers (s : State) (l : Lease) (h : Word) : Bool :=
  (above s h).any fun o => l.objs.contains o

/-- Milliseconds left of a lease. -/
def Lease.leftMs (s : State) (l : Lease) : Nat := cyclesMs (l.ends - s.clock.cycles)

/-- A refusal with the result bytes that go with it. -/
structure Fail where
  err    : Err
  result : List Byte := []

/-- Another port's lease over one of the objects, as R66 reports it. -/
def othersLease (s : State) (port : Nat) (objs : List Word) : Option Fail :=
  (objs.findSome? (fun h => s.host.leases.find? (fun e => e.2.port != port && e.2.covers s h))).map
    (fun e => ⟨⟨St.LEASE_CONFLICT, e.2.port⟩, leN (e.2.leftMs s) 4 ++ leN 0 4⟩)

/-- The lease check of R66 for the objects a command changes. -/
def leaseCheck (s : State) (port leaseId : Nat) (touches : List Word) : Option Fail :=
  let leases := s.host.leases
  let own := leases.filter (fun e => e.2.port == port)
  let named := own.find? (fun e => e.1 == leaseId)
  if leaseId ≠ 0 ∧ named.isNone then some ⟨⟨St.LEASE_CONFLICT, 0x10⟩, []⟩
  else
    match othersLease s port touches with
    | some f => some f
    | none =>
      let leased := touches.filter (fun h => own.any (fun e => e.2.covers s h))
      match named with
      | some l => if leased.all (fun h => l.2.covers s h) then none else some ⟨⟨St.LEASE_CONFLICT, 0x11⟩, []⟩
      | none =>
        if 2 ≤ (own.filter (fun e => leased.any (fun h => e.2.covers s h))).length then
          some ⟨⟨St.LEASE_CONFLICT, 0x11⟩, []⟩
        else none

/-- An object that returns to FREE leaves every lease that covers it; a lease left with no object
ends and raises LEASE_EXPIRED with cause 1 (R417). -/
def leaveLeases (h : Word) (s : State) : State :=
  let gone := (s.host.leases.filter (fun e => e.2.objs == [h]))
  let s := { s with host.leases :=
    (s.host.leases.map (fun e => (e.1, { e.2 with objs := e.2.objs.filter (· != h) }))).filter (fun e => e.2.objs != []) }
  gone.foldl (fun s e =>
    raiseTo e.2.port Ev.LEASE_EXPIRED h (leN e.1 2 ++ leN e.2.port 1 ++ leN 1 1) s) s

/-! ### Outstanding commands (R52, R59) -/

/-- Commands outstanding of a ring set. -/
def outstanding (s : State) (rs : Nat) : Nat := (s.host.cmds.filter (fun e => e.cmd.rs == rs)).length

/-- TIMED commands waiting device-wide (DEV_TIMED_PENDING). -/
def timedPending (s : State) : Nat := (s.host.cmds.filter (fun e => e.phase == .waitingTime)).length

/-- The entry of a command that has been fetched and not started. -/
def queuedEntry (op : Nat) (c : Cmd) (s : State) : Option OutCmd :=
  s.host.cmds.find? (fun e => e.opcode == op && e.phase == .queued && e.cmd == c)

/-- Whether fetching from a ring set is allowed (R52); an entry to EMBER pauses it on every ring set (R381). -/
def fetchAllowed (s : State) (rs : Nat) : Bool :=
  s.boot.ready && s.power.state == .active && (ringOf s rs).phase == .enabled && portUp s (portOf rs)
    && decide (64 ≤ rplFree (ringOf s rs)) && decide (outstanding s rs < 1024)
    && decide (s.host.cmds.length < 16384)

/-- Enter a fetched command among the outstanding ones and count it (HPI_PORT_CMDS). -/
def addEntry (op : Nat) (c : Cmd) (s : State) : State :=
  bump (R.HPI_PORT_CMDS + 0x20 * portOf c.rs)
    { s with host.cmds := s.host.cmds ++ [{ seq := s.host.fetched, opcode := op, cmd := c }]
             host.fetched := s.host.fetched + 1 }

/-- DEV_ABORT and QUERY_PROGRESS ignore ORDERED (R59). -/
def ignoresOrder (op : Nat) : Bool := op == 0x0103 || op == 0x0104

/-- Whether a command still waits behind earlier commands of its ring set (R59). -/
def heldBack (e : OutCmd) (s : State) : Bool :=
  let earlier := s.host.cmds.filter (fun x => x.cmd.rs == e.cmd.rs && decide (x.seq < e.seq))
  !ignoresOrder e.opcode &&
    ((Cmd.ordered e.cmd && earlier != [])
      || earlier.any (fun x => Cmd.ordered x.cmd)
      || earlier.any (fun x => x.cmd.handle == e.cmd.handle && x.phase == .queued))

/-- Change the outstanding command numbered `seq`. -/
def modEntry (seq : Nat) (f : OutCmd → OutCmd) (s : State) : State :=
  { s with host.cmds := s.host.cmds.map (fun e => if e.seq = seq then f e else e) }

/-! ### DOZE (R380) -/

/-- Whether an object exists that a power domain serves (Table 17-2). -/
def domainServes (s : State) (d : Nat) : Bool :=
  match d with
  | 0 => s.video.decs != [] || s.video.comps != [] || s.video.encs != []
  | 1 => s.legs.any fun l => decide (l.2.type ≤ 1)
  | 2 => s.dsp.tasks.any fun t => t.2.state != .created
  | 3 => s.asp.ports.any fun p => p.2.phase != .disabled
  | 4 => s.radio.radios.any fun r => r.2.state != .off
  | _ => s.cap.sessions != []

def domainOf (s : State) (d : Nat) : Domain := Tbl.getD s.power.domains d {}

/-- A domain enters or leaves DOZE. -/
def setDoze (d : Nat) (on : Bool) (s : State) : State :=
  raiseUnless R.PWR_EVENT_MASK 1 Ev.PWR_STATE (mkH 0x10 d) (leN (b2n (!on)) 1 ++ leN (b2n on) 1)
    { s with power.domains := Tbl.upd s.power.domains d {} fun x => { x with dozing := on, entries := min 0xFFFFFF (x.entries + b2n on) } }

/-- Each domain dozes where that is permitted and it serves nothing, and is awake elsewhere. -/
def settleDomains (s : State) : State :=
  [0, 1, 2, 3, 4, 5].foldl (fun s d =>
    let on := (domainOf s d).permitted && !domainServes s d
    if on = (domainOf s d).dozing then s else setDoze d on s) s

/-- The command numbered `seq` completes: its final status is kept (R73), it is counted, and its reply
is written where R55 asks for one. -/
def finishOne (e : OutCmd) (status detail progress : Nat) (result : List Byte) (s : State) : State :=
  let s := settleDomains { s with host.cmds := s.host.cmds.filter (fun x => x.seq != e.seq) }
  let s := bump R.DEV_CMD_DONE s
  let s := modRing e.cmd.rs (fun r =>
    { r with kept := (⟨e.cmd.tag, status, detail, progress, if status < 0x100 then progress else e.total⟩ :: r.kept).take 256 }) s
  if Cmd.wantReply e.cmd || !(status == St.OK || status == St.OK_PARTIAL || status == St.FAULT_MIGRATED) then
    sendReply e.cmd.rs
      { opcode := e.opcode, rflags := rflagsOf s e.cmd.rs (status == St.OK_PARTIAL), tag := e.cmd.tag
        status, detail, progress
        result := fit (leN e.cmd.cookie.toNat 8 ++ result) (up8 (8 + result.length)), doneAt := nowShort s } s
  else s

/-- The results of a DEV_ABORT: the target's final STATUS, DETAIL and PROGRESS (R72). -/
def abortResult (status detail progress : Nat) : List Byte := leN status 2 ++ leN detail 2 ++ leN progress 4

/-- A command completes, and after its reply each DEV_ABORT that waits for it (R71, R72). -/
def finishChain : Nat → OutCmd → (status detail progress : Nat) → List Byte → State → State
  | 0, e, status, detail, progress, result, s => finishOne e status detail progress result s
  | n + 1, e, status, detail, progress, result, s =>
    let s := finishOne e status detail progress result s
    let mine := s.host.aborts.filter (fun a => a.1 == e.seq)
    mine.foldl (fun s a =>
      match s.host.cmds.find? (fun x => x.seq == a.2) with
      | some x => finishChain n x (if status = St.ABORTED then St.OK else St.ABORT_TOO_LATE) 0 1
          (abortResult status detail progress) s
      | none => s) { s with host.aborts := s.host.aborts.filter (fun a => a.1 != e.seq) }

/-- A command completes. -/
def finishEntry (e : OutCmd) (status detail progress : Nat) (result : List Byte) (s : State) : State :=
  finishChain s.host.aborts.length e status detail progress result s

/-- A started command, named by ring set and tag, ends. -/
def finishRunning (rs : Nat) (tag : Word) (status detail progress : Nat) (result : List Byte) (s : State) : State :=
  match s.host.cmds.find? (fun e => e.cmd.rs == rs && e.cmd.tag == tag && e.phase == .running) with
  | some e => finishEntry e status detail progress result s
  | none => s

/-- The commands of a list all end with the same status. -/
def finishAll (l : List (Nat × Word)) (status detail progress : Nat) (s : State) : State :=
  l.foldl (fun s w => finishRunning w.1 w.2 status detail progress [] s) s

/-! ### The checks (R58, R409) -/

/-- The privilege of the sending port. -/
def privOf (s : State) (c : Cmd) : Nat := (portSt s (Cmd.port c)).priv

/-- Version and opcode, SAFE_HOLD with the opcode (R78). -/
def checkOpcode (p : Plan) (c : Cmd) (s : State) : Option Err :=
  if c.version ≠ 3 then some ⟨St.BAD_OPCODE, 1⟩
  else if s.boot.safeHold ∧ ¬ p.safe then some ⟨St.SAFE_HOLD, 0⟩
  else none

/-- Privilege (R63): a dry run may be made from any port. -/
def checkPriv (p : Plan) (c : Cmd) (s : State) : Option Err :=
  if Cmd.dryRun c ∨ p.priv ≤ privOf s c then none else some ⟨St.NOT_PERMITTED, 1⟩

/-- The come-up checks of a TIMED command (R60). -/
def checkComeUp (c : Cmd) (s : State) : Option Err :=
  let at_ := nearestNs s c.execAt.toNat
  if at_ < nowNs s then some ⟨St.TIME_PASSED, 0⟩
  else if at_ > (nowNs s : Int) + 3600 * 1000000000 then some (badParam 0x8010)
  else if 4096 ≤ timedPending s then some (noResource 0x12)
  else none

/-- The header fields of R409, in header order. -/
def checkHeader (p : Plan) (e : OutCmd) (s : State) : Option Err :=
  let c := e.cmd
  firstBad
    [ (decide (c.flags.toNat < 32), badParam 0x8003)
    , (!(s.host.cmds.any (fun x => x.cmd.rs == c.rs && x.cmd.tag == c.tag && decide (x.seq < e.seq))), badParam 0x8004)
    , ((match p.len with | some n => c.paramLen == n && c.params.length == n | none => true), badParam 0x800C)
    , (Cmd.timed c || c.execAt == 0, badParam 0x8010) ]

/-- RETENTION_LOST with the bank, where a command touches an object that waits for its reinstall (R15,
R385). -/
def checkRetained (p : Plan) (c : Cmd) (s : State) : Option Err :=
  if p.exempt then none
  else ((c.handle :: p.touches).findSome? (fun h => Tbl.get? s.power.reinstall h.toNat)).map
    (fun b => ⟨St.RETENTION_LOST, b.1⟩)

/-- Handle, lease, state, parameters, resources: the checks after privilege, in order. -/
def checkRest (p : Plan) (e : OutCmd) (s : State) : Option Fail :=
  if ¬ p.handleOk then some ⟨⟨St.BAD_HANDLE, 0⟩, []⟩
  else
    match (leaseCheck s (Cmd.port e.cmd) e.cmd.leaseId p.touches
        <|> othersLease s (Cmd.port e.cmd) p.claims <|> p.leaseErr.map (fun x => ⟨x, []⟩)) with
    | some f => some f
    | none =>
      match checkRetained p e.cmd s <|> p.state with
      | some x => some ⟨x, []⟩
      | none =>
        match checkHeader p e s with
        | some x => some ⟨x, []⟩
        | none =>
          match p.param with
          | some x => some ⟨x, []⟩
          | none => p.res.map (fun x => ⟨x, []⟩)

/-- Every check of R58, in order. -/
def checkAll (p : Plan) (e : OutCmd) (s : State) : Option Fail :=
  match checkOpcode p e.cmd s with
  | some x => some ⟨x, []⟩
  | none =>
    match checkPriv p e.cmd s with
    | some x => some ⟨x, []⟩
    | none =>
      match (if Cmd.dryRun e.cmd && Cmd.timed e.cmd then checkComeUp e.cmd s else none) with
      | some x => some ⟨x, []⟩
      | none => checkRest p e s

/-! ### Starting a command -/

/-- The units that a command will perform (Table 3-10, Table 3-11): channels of DRAM_TRAIN, entries of FLOW_INSTALL, register
writes of DEV_REG_WRITE, else the one object named. -/
def unitsOf (op : Nat) (p : List Byte) : Nat :=
  match op with
  | 0x1204 => ((List.range 32).filter fun k => bit (u32 p 4) k).length
  | 0x0A03 => u16 p 2
  | 0x0102 => u16 p 0
  | _ => 1

/-- A command starts: the first failed check decides and nothing is changed; else it commits. A dry
run answers what the command would answer and changes nothing (R62). -/
def runPlan (p : Plan) (e : OutCmd) (s : State) : State :=
  let s := modEntry e.seq (fun e => { e with phase := .running, total := unitsOf p.op e.cmd.params }) s
  match checkAll p e s with
  | some f => finishEntry e f.err.status f.err.detail 0 f.result s
  | none =>
    if Cmd.dryRun e.cmd then
      let lacks := decide (privOf s e.cmd < p.priv)
      match p.run s with
      | .reply _ status detail progress result =>
        finishEntry e status (if status < 0x100 then b2n lacks else detail) progress result s
      | .defer _ => finishEntry e St.OK (b2n lacks) 0 [] s
    else
      match p.run s with
      | .reply s' status detail progress result => finishEntry e status detail progress result s'
      | .defer s' => s'

/-- A command comes up to start: at once, or, TIMED, after the checks of R60 it waits (R60). -/
def comeUp (p : Plan) (e : OutCmd) (s : State) : State :=
  let s := tick 1 s
  if Cmd.timed e.cmd && !Cmd.dryRun e.cmd then
    match checkOpcode p e.cmd s with
    | some x => finishEntry e x.status x.detail 0 [] s
    | none =>
      match checkPriv p e.cmd s with
      | some x => finishEntry e x.status x.detail 0 [] s
      | none =>
        match checkComeUp e.cmd s with
        | some x => finishEntry e x.status x.detail 0 [] s
        | none => modEntry e.seq (fun e => { e with phase := .waitingTime }) s
  else runPlan p e s

/-- A command row: the fetched command `c` comes up to start unless it is held behind earlier ones
(R59). A command not yet fetched is fetched first where fetching is allowed; where it is not,
nothing happens (notes/assumptions/10.md). -/
def hostCmd (op : Nat) (plan : Cmd → State → Plan) (c : Cmd) (s : State) : State :=
  let s := if (queuedEntry op c s).isNone && fetchAllowed s c.rs then addEntry op c s else s
  match queuedEntry op c s with
  | none => s
  | some e => if heldBack e s then s else comeUp (plan c (tick 1 s)) e s

end Sys2Proof.Machine
end

