-- ==== Sys2Proof/Machine/CapOps.lean ====
section
/-! DEFINITION. Machine/CapOps.lean: capture rings, filters and triggers as the taps drive them (R360–R370). -/

namespace Sys2Proof.Machine

/-! ### Sessions -/

/-- Change a session. -/
def modSession (i : Nat) (f : Session → Session) (s : State) : State :=
  { s with cap.sessions := Tbl.modify s.cap.sessions i f }

/-- A session block register (Table 16-13). -/
def capReg (r i : Nat) : Nat := r + 0x30 * i

/-- A capture session that records. -/
def Session.recording (x : Session) : Bool :=
  !x.replay && (x.state == .running || x.state == .armed || x.state == .triggered)

/-- Bytes a record occupies (R363). -/
def recSize (r : Rec) : Nat := up8 (32 + r.payload.length)

/-- The usable bytes of a ring: each retired channel costs 1/32 (R368). -/
def Session.space (x : Session) : Nat := x.sizeMib * 1048576 / 32 * (32 - x.badCh.length)

/-- The channels on which `n` bytes from the logical position `pos` lie: 4 KiB granules over the channels left. -/
def Session.chansAt (x : Session) (pos n : Nat) : List Nat :=
  let good := (List.range 32).filter (fun c => !x.badCh.contains c)
  ((List.range ((pos + n - 1) / 4096 - pos / 4096 + 1)).map
    (fun k => good.getD ((pos / 4096 + k) % max 1 good.length) 0)).eraseDups

/-- Where a region's contents stand in Dram.cells. -/
def regionBase (i : Nat) : Nat := i * 2 ^ 40

/-- The byte of the region at the logical position `pos`: granules of retired channels are skipped (R368). -/
def Session.placeOf (x : Session) (pos : Nat) : Nat :=
  let good := (List.range 32).filter (fun c => !x.badCh.contains c)
  let n := max 1 good.length
  let g := pos / 4096 % max 1 (x.sizeMib * 256 / 32 * n)
  (g / n * 32 + good.getD (g % n) 0) * 4096 + pos % 4096

/-- The header of Table 16-3 and the payload, padded with zeros to a multiple of 8 bytes. -/
def unitBytes (r : Rec) : List Byte :=
  let ns := r.time / 65536
  let b := leN r.payload.length 2 ++ leN r.origLen 2 ++ leN r.kind 1 ++ leN r.point 1 ++ leN r.port 2
    ++ leN (ns / 1000000000) 6 ++ leN (ns % 1000000000) 4 ++ leN (r.time % 65536) 2 ++ leN r.flags 2 ++ leN r.rssi 1
    ++ leN r.rate 1 ++ leN r.seq 4 ++ leN r.meta_ 4 ++ r.payload
  fit b (up8 b.length)

/-- Bytes go into the ring, granule by granule. -/
def ringBytes (x : Session) (pos : Nat) (b : List Byte) (s : State) : State :=
  let first := pos / 4096
  (List.range ((pos + b.length - 1) / 4096 - first + 1)).foldl (fun s k =>
    let lo := max pos ((first + k) * 4096)
    let piece := slice b (lo - pos) ((first + k + 1) * 4096 - lo)
    { s with dram.cells := Memory.writeN s.dram.cells (regionBase x.region + x.placeOf lo) piece }) s

/-- The records of `x` from SEQ `from_` on go into its region. -/
def ringStore (x : Session) (from_ : Nat) (s : State) : State :=
  (x.recs.filter fun r => decide (from_ ≤ r.seq)).foldl (fun s r => ringBytes x r.pos (unitBytes r) s) s

/-- A channel retires: the position goes on at the next byte that is left. -/
def Session.skip (c : Nat) (x : Session) : Session :=
  let o := x.placeOf x.wptr
  let y := { x with badCh := x.badCh ++ [c] }
  let good := (List.range 32).filter (fun c => !y.badCh.contains c)
  { y with wptr := (o / 4096 / 32 * good.length + (good.filter (fun g => decide (g < o / 4096 % 32))).length) * 4096
                     + if o / 4096 % 32 = c then 0 else o % 4096 }

/-! ### Losses (R364) -/

/-- `n` records of session `i` are lost for a cause: counted, and CAP_LOSS raised at most once per session
per second. The marker that goes ahead of the next stored record carries the cause of the first loss
(notes/assumptions/18.md). -/
def capLose (i cause ch n : Nat) (s : State) : State :=
  match Tbl.get? s.cap.sessions i with
  | none => s
  | some x =>
    let s := bumpBy R.CAP_LOST n (bumpBy (capReg R.CAP_S_LOST i) n s)
    let x := { x with lossCause := if x.lossN = 0 then cause else x.lossCause, lossN := x.lossN + n
                      lostSum := x.lostSum + n }
    let quiet := match x.lossAt with
      | some t => decide (s.clock.cycles < t + msCycles 1000)
      | none => false
    if quiet then modSession i (fun _ => { x with lossNew := x.lossNew + n }) s
    else
      raiseUnless R.CAP_EVENT_MASK 1 Ev.CAP_LOSS (mkH 0x0F i)
        (leN cause 1 ++ leN ch 1 ++ leN 0 2 ++ leN (x.lossNew + n) 4)
        (modSession i (fun _ => { x with lossAt := some s.clock.cycles, lossNew := 0 }) s)

/-- The oldest record leaves a ring. -/
def Session.dropOldest (x : Session) : Session :=
  match x.recs with
  | [] => x
  | r :: t => { x with recs := t, used := x.used - recSize r, head := x.head + 1 }

/-- Oldest records leave until `n` bytes fit; answers how many left. -/
def Session.makeRoom (n : Nat) : Nat → Session → Session × Nat
  | 0, x => (x, 0)
  | fuel + 1, x =>
    if x.used + n ≤ x.space ∨ x.recs = [] then (x, 0)
    else
      let (y, k) := Session.makeRoom n fuel x.dropOldest
      (y, k + 1)

/-- Append a record with the next SEQ. -/
def Session.append (x : Session) (r : Rec) : Session :=
  { x with recs := x.recs ++ [{ r with seq := x.tail, chans := x.chansAt x.wptr (recSize r), pos := x.wptr }]
           used := x.used + recSize r, wptr := x.wptr + recSize r, tail := x.tail + 1 }

/-- A marker record (R364). -/
def lossMarker (cause n time flags : Nat) : Rec :=
  { kind := 5, port := cause, time, flags, meta_ := n, origLen := 0 }

/-- Write a record or marker into the ring, making room as the mode gives (R365, R369); `none` where a STREAM
ring is full. Answers the records overwritten. -/
def Session.write (x : Session) (r : Rec) : Option (Session × Nat) :=
  if x.mode = 1 then
    if x.used + recSize r ≤ x.space then some (x.append r, 0) else none
  else
    let (y, k) := Session.makeRoom (recSize r) (x.recs.length + 1) x
    some (y.append r, k)

/-- The time now in 2⁻¹⁶ ns. -/
def nowFrac (s : State) : Nat := s.clock.tb / 16777216

/-- CAP_DONE (Table 16-14); the session is DONE. -/
def capDone (i cause : Nat) (s : State) : State :=
  match Tbl.get? s.cap.sessions i with
  | none => s
  | some x =>
    raise Ev.CAP_DONE (mkH 0x0F i) (leN cause 1 ++ leN 0 3 ++ leN x.stored 4 ++ leN x.lostSum 4)
      (modSession i (fun x => { x with state := .done, cause }) s)

/-- Whether an overcommitted channel loses the record (R368): where one is, the spec leaves it open. -/
def capStarved (s : State) : Bool × State :=
  match s.dram.overcommit with
  | [] => (false, s)
  | _ :: _ => ((takeFree s).1 % 2 == 1, (takeFree s).2)

/-- The session after the loss marker that is due and then the record are written, with the records that made
room; `none` where there is none. -/
def writeMarked (x : Session) (r : Rec) (s : State) : Option (Session × Nat) :=
  let marked := if x.lossN = 0 then some (x, 0)
    else ({ x with lossN := 0 } : Session).write (lossMarker x.lossCause x.lossN (nowFrac s) 0)
  marked.bind (fun m => (m.1.write r).map (fun w => (w.1, m.2 + w.2)))

/-- A record is in the ring of session `i`, which was `x` and became `y`; `k` older ones gave way. -/
def capStored (i : Nat) (r : Rec) (x y : Session) (k : Nat) (s : State) : State :=
  let y := { y with stored := y.stored + 1
                    postLeft := if x.state = .triggered ∧ ¬ bit r.flags 4 then y.postLeft - 1 else y.postLeft }
  let s := bump R.CAP_RECORDS (bump (capReg R.CAP_S_RECORDS i)
    (bumpBy (capReg R.CAP_S_BYTES i) (recSize r) (ringStore y x.tail (modSession i (fun _ => y) s))))
  let s := if x.state = .triggered ∧ 0 < k then capLose i 5 0 k s else s
  if x.state = .triggered ∧ y.postLeft = 0 then capDone i 1 s else s

/-- A record reaches session `i`: the rate of R367, the overcommit of R368 (whether a record is lost then, the
spec leaves open), the loss marker, the ring. -/
def capStore (i : Nat) (r : Rec) (s : State) : State :=
  match Tbl.get? s.cap.sessions i with
  | none => s
  | some x =>
    if ¬ x.recording then s
    else
      let ms := nowNs s / 1000000
      let base := if x.msIdx = ms then x.msBytes else 0
      let (starved, s) := capStarved s
      if x.rate * 125 < base + recSize r then capLose i 0 0 1 s
      else if starved then capLose i 3 0 1 s
      else
        let x := { x with msIdx := ms, msBytes := base + recSize r }
        match writeMarked x r s with
        | none => capLose i 2 0 1 s
        | some (y, k) => capStored i r x y k s

/-! ### Triggers (R369, R370) -/

/-- The instant, in ns, at which TRIG_OUT rises for a trigger: the first microsecond boundary at least 2 µs
after it (R370). -/
def pulseNs (instNs : Nat) : Nat := (instNs + 2000 + 999) / 1000 * 1000

/-- The pulse enters the release register of edge domain 94. -/
def capPulse (x : Session) (instNs : Nat) (s : State) : State :=
  if bit x.trigger.tflags 1 then
    { s with fab.release := Tbl.upd s.fab.release 94 [] (· ++ [{ user := 5, instant := pulseNs instNs, what := 2, arg := x.trigger.out }]) }
  else s

/-- A trigger of session `i` at `instNs` (R369): in ARMED the session becomes TRIGGERED, keeping its last PRE
records; in modes 0 and 1 a marker of cause 6 is written; in mode 2 outside ARMED it is counted (R370). `own` is 1 where the
triggering unit is stored, which is neither a PRE nor a POST record. -/
def capTrigger (i instNs own : Nat) (s : State) : State :=
  match Tbl.get? s.cap.sessions i with
  | none => s
  | some x =>
    if x.state = .armed then
      let kept := x.recs.drop (x.recs.length - x.pre)
      let y := { x with
        state := .triggered, postLeft := x.post
        recs := kept.map (fun r => { r with flags := setBit r.flags 5 true })
        used := (kept.map recSize).foldl (· + ·) 0, head := x.tail - kept.length }
      capPulse x instNs
        (raiseUnless R.CAP_EVENT_MASK 0 Ev.CAP_TRIGGERED (mkH 0x0F i)
          (leN x.trigger.source 1 ++ leN 0 3 ++ leN (x.tail + own) 4 ++ leN (shortOf instNs) 8)
          (ringStore y y.head (modSession i (fun _ => y) s)))
    else if x.recording ∧ x.mode ≠ 2 then
      let y := match x.write (lossMarker 6 0 (instNs * 65536) 16) with
        | some (y, _) => y
        | none => x
      capPulse x instNs (ringStore y x.tail (modSession i (fun _ => y) s))
    else if x.mode = 2 then bump R.CAP_TRIG_IGNORED s else s

/-! ### Taps and filters (R360–R363) -/

/-- A unit at a tap: its record without SEQ, and the flow entry it hit with that entry's owner. -/
structure TapUnit where
  rec_  : Rec
  flow  : Option Nat := none
  owner : Word := 0

/-- The bytes at OFFSET and MASK equal VALUE (R361); a byte the unit does not have matches only where MASK is
zero. -/
def bytesMatch (f : CapFilter) (p : List Byte) : Bool :=
  (List.range 16).all fun k =>
    let m := f.mask.getD k 0
    m == 0 || match p[f.offset + k]? with
      | some b => (b &&& m) == f.value.getD k 0
      | none => false

/-- Whether a filter's source, point and MATCH test hold for a unit. -/
def CapFilter.hits (f : CapFilter) (u : TapUnit) : Bool :=
  let r := u.rec_
  bit f.kinds r.kind && f.point == r.point
    && (if r.kind = 4 then f.object == mkH 0x12 r.port else bit f.ports r.port)
    && match f.match_ with
      | 0 => true
      | 1 => bytesMatch f r.payload
      | 2 => decide (r.kind < 2) && u.flow.isSome && u.owner == f.object
      | _ => decide (r.kind < 2) && u.flow.map (mkH 0x0A) == some f.object

/-- The deciding filter of a session for a unit: the first, in ascending index, whose test and sampling
match. Every filter tried counts its match. -/
def decideFilter (u : TapUnit) : List (Nat × CapFilter) → State → Option (Nat × CapFilter) × State
  | [], s => (none, s)
  | (n, f) :: t, s =>
    if f.hits u then
      if f.seen + 1 = 2 ^ f.sample then
        (some (n, f), { s with cap.filters := Tbl.modify s.cap.filters n (fun f => { f with seen := 0 }) })
      else decideFilter u t { s with cap.filters := Tbl.modify s.cap.filters n (fun f => { f with seen := f.seen + 1 }) }
    else decideFilter u t s

/-- A unit passes a tap: session `i` takes what its deciding filter says. -/
def tapSession (u : TapUnit) (s : State) (i : Nat) : State :=
  match decideFilter u (s.cap.filters.filter (fun e => e.2.session == i)) s with
  | (none, s) => s
  | (some (n, f), s) =>
    let fires := (f.action == 1 || f.action == 2)
      && ((Tbl.get? s.cap.sessions i).map (fun x => x.trigger.source == 1)).getD false
    let r := u.rec_
    let r := if f.snap ≠ 0 ∧ f.snap < r.payload.length then
        { r with payload := r.payload.take f.snap, flags := setBit r.flags 0 true }
      else r
    let r := { r with flags := setBit (r.flags % 256 + n * 256) 4 fires }
    let armed := ((Tbl.get? s.cap.sessions i).map (fun x => x.state == .armed)).getD false
    if f.action = 3 then s
    else if f.action = 2 then (if fires then capTrigger i (r.time / 65536) 0 s else s)
    else if fires ∧ armed then capStore i r (capTrigger i (r.time / 65536) 1 s)
    else if fires then capTrigger i (r.time / 65536) 0 (capStore i r s)
    else capStore i r s

/-- A unit passes a tap; every session with filters sees it (R361). -/
def tap (u : TapUnit) (s : State) : State :=
  ((s.cap.sessions.filter (fun e => e.2.recording)).map Prod.fst).foldl (tapSession u) s

/-- A DRAM channel retires: records on it are lost, the rings skip it (R368). -/
def capRetire (c : Nat) (s : State) : State :=
  s.cap.sessions.foldl (fun s e =>
    if e.2.replay then s
    else
      let n := (e.2.recs.filter (fun r => r.chans.contains c && !r.chans.any e.2.badCh.contains)).length
      let s := modSession e.1 (Session.skip c) s
      if n = 0 ∧ ¬ e.2.recording then s
      else
        raiseUnless R.CAP_EVENT_MASK 1 Ev.CAP_LOSS (mkH 0x0F e.1) (leN 4 1 ++ leN c 1 ++ leN 0 2 ++ leN n 4)
          (bumpBy R.CAP_LOST n (bumpBy (capReg R.CAP_S_LOST e.1) n
            (modSession e.1 (fun x => { x with lostSum := x.lostSum + n }) s)))) s

end Sys2Proof.Machine
end

