-- ==== Sys2Proof/Machine/Pools.lean ====
section
/-! DEFINITION. Machine/Pools.lean: engines, the reservations of R18–R20, and the DRAM bandwidth
worksheet (R144, R145). -/

namespace Sys2Proof.Machine

/-! ### Engines (Table 17-8, R390) -/

/-- Engines in service and spares as fitted, by subsystem number (R178, R269, R172, the introductions of
the video chapters; 256 DSP cores with a spare per grove). -/
def fitted : Nat → Nat × Nat
  | 0x01 => (20, 4)
  | 0x09 => (48, 2)
  | 0x0A => (64, 4)
  | 0x0C => (256, 16)
  | 0x0E => (48, 4)
  | 0x0F => (16, 1)
  | 0x10 => (24, 2)
  | _ => (0, 0)

/-- Whether an engine is fitted as a spare: core 16 of each grove (R207); elsewhere the highest-numbered ones
(notes/assumptions/16.md). -/
def fittedSpare (sub e : Nat) : Bool :=
  if sub = 0x0C then e % 17 == 16 else decide ((fitted sub).1 ≤ e)

/-- The state of an engine. -/
def engineOf (s : State) (sub e : Nat) : Engine :=
  Tbl.getD s.health.engines (65536 * sub + e) { state := if fittedSpare sub e then .spare else .inService }

/-- The engines of a subsystem in a state. -/
def enginesIn (s : State) (sub : Nat) (st : EngState) : List Nat :=
  (List.range ((fitted sub).1 + (fitted sub).2)).filter fun e => (engineOf s sub e).state == st

/-- The published floor scale in 2⁻¹⁶ (R388, R389). -/
def scaleOf (s : State) : Nat := (s.health.plans.head?.map MarginPlan.scale).getD 65536

/-- A placement: each user of one engine with its load; `cap` a load one engine serves, `ctxs` the contexts it holds. -/
structure Placed where
  user   : Nat
  engine : Nat
  load   : Nat
deriving DecidableEq, Repr

/-- The load and contexts on an engine. -/
def engineLoad (l : List Placed) (e : Nat) : Nat := ((l.filter (fun p => p.engine == e)).map Placed.load).foldl (· + ·) 0
def engineCtxs (l : List Placed) (e : Nat) : Nat := (l.filter (fun p => p.engine == e)).length

/-- Whether an engine has room for a further load. -/
def hasRoom (l : List Placed) (cap ctxs load e : Nat) : Bool :=
  decide (engineLoad l e + load ≤ cap) && decide (engineCtxs l e < ctxs)

/-- Insert by falling load. -/
def insertByLoad (p : Placed) : List Placed → List Placed
  | [] => [p]
  | q :: t => if q.load < p.load then p :: q :: t else q :: insertByLoad p t

/-- Every user placed anew, the largest first, on the first engine with room (the moves of R178, R251
and R269, whose order the spec leaves open: notes/assumptions/17.md). -/
def repack (engines : List Nat) (cap ctxs : Nat) (l : List Placed) : List Placed :=
  (l.foldl (fun a p => insertByLoad p a) []).foldl (fun done p =>
    let e := (engines.find? (hasRoom done cap ctxs p.load)).getD (engines.headD 0)
    done ++ [{ p with engine := e }]) []

/-- Place a new user whole on one engine (R178, R251, R269): on any with room, which one the spec
leaves open; where none has room, users move until it fits. Answers every placement. -/
def placeUser (engines : List Nat) (cap ctxs : Nat) (l : List Placed) (user load : Nat) (s : State) : List Placed × State :=
  let room := engines.filter (hasRoom l cap ctxs load)
  if room = [] then (repack engines cap ctxs (l ++ [⟨user, 0, load⟩]), s)
  else
    let (v, s) := takeFree s
    (l ++ [⟨user, room.getD (v % room.length) 0, load⟩], s)

/-! ### Codec units (R19, R20) -/

/-- The weight of a coding (Table 1-9); FRAME in 0.5 ms units. -/
def codecWeight (codec frame channels : Nat) : Nat :=
  let two := channels == 2
  match codec with
  | 0 => if 80 ≤ frame then (if two then 26 else 14) else if frame = 40 then (if two then 28 else 16)
         else if frame = 20 then (if two then 32 else 20) else (if two then 36 else 24)
  | 1 => if two then 12 else 6
  | 2 => if two then 4 else 2
  | 3 => if two then 4 else 2
  | _ => 0

/-- The decode weight of a leg. -/
def legWeight (l : Leg) : Nat := codecWeight l.codec l.frame l.channels

/-- wmax of a conference (R20). -/
def wmax (s : State) (members : List Nat) : Nat :=
  (members.map (fun i => ((Tbl.get? s.legs i).map legWeight).getD 0)).foldl max 0

/-- The encode reservation of a conference with the given K, members and classes (R20). -/
def encUnitsOf (s : State) (k : Nat) (members : List Nat) (classes : List MixClass) : Nat :=
  k * wmax s members + (classes.map (fun m => codecWeight m.codec m.frame m.channels)).foldl (· + ·) 0

/-- The encode reservation of conference `c` as it stands. -/
def confUnits (s : State) (c : Conf) : Nat := encUnitsOf s c.k c.members (Tbl.vals c.classes)

/-- Flow entries, key slots, forward set entries a leg reserves (Table 1-2). -/
def legFlows (l : Leg) : Nat :=
  if l.type = 2 then 0 else if l.type = 3 then 2 else 2 + l.videoIn + b2n (!bit l.flags 1)
def legKeys (l : Leg) : Nat := if l.type < 2 ∧ bit l.flags 3 then 2 else 0
def legFwd (l : Leg) : Nat := if l.type < 2 then l.fwdOut else 0

/-! ### Video charges (R249, R260, R272), in 1/64,000 sample/s -/

/-- F of R249 and R272 in sixteenths. -/
def spatialF : Nat → Nat
  | 2 => 20
  | 3 => 21
  | _ => 16

/-- The charge of a decode stream. -/
def decCharge (d : Dec) : Nat := d.maxW * d.maxH * d.fps * spatialF d.spatial * 4

/-- The charge of a composition. -/
def cmpCharge (c : Comp) : Nat := c.w * c.h * c.fps * 64

/-- The source picture rate of an encode stream in 1/1,000 fps (R274). -/
def encSrcFps (s : State) (source : Word) : Nat :=
  if hCls source = 7 then ((Tbl.get? s.video.comps (hIdx source)).map Comp.fps).getD 0
  else ((Tbl.get? s.video.decs (hIdx source)).map Dec.fps).getD 0

/-- The charge of an encode stream (R272). -/
def encCharge (s : State) (e : Enc) : Nat := e.w * e.h * encSrcFps s e.source * spatialF e.spatial * 4 / max 1 e.fpsDiv

/-- A charge in ksample/s, rounded down. -/
def kSample (charge : Nat) : Nat := charge / 64000000

/-- A charge in Msample/s, rounded down. -/
def mSample (charge : Nat) : Nat := charge / 64000000000

/-- Sums of the charges admitted. -/
def decTotal (s : State) : Nat := Tbl.sum s.video.decs decCharge
def cmpTotal (s : State) : Nat := Tbl.sum s.video.comps cmpCharge
def encTotal (s : State) : Nat := Tbl.sum s.video.encs (encCharge s)

/-- A rate-bound capacity of `gs` Gsample/s at the published scale, in 1/64,000 sample/s (R389). -/
def rateCap (s : State) (gs : Nat) : Nat := gs * 1000000000 * 64000 * scaleOf s / 65536

/-- One engine's floor rate: `gs` Gsample/s over `n` engines. -/
def engineCap (s : State) (gs n : Nat) : Nat := rateCap s gs / n

/-! ### What an object draws (Table 1-8) -/

/-- A need from every pool of Table 1-8; video in 1/64,000 sample/s. `dram` are further DRAM loads. -/
structure Need where
  legs    : Nat := 0
  confs   : Nat := 0
  buses   : Nat := 0
  classes : Nat := 0
  flows   : Nat := 0
  keys    : Nat := 0
  fwd     : Nat := 0
  dec     : Nat := 0
  enc     : Nat := 0
  vdec    : Nat := 0
  vdecN   : Nat := 0
  venc    : Nat := 0
  vencN   : Nat := 0
  comp    : Nat := 0
  compN   : Nat := 0
deriving DecidableEq, Repr

/-- Flow entries drawn: the reservations of legs, and every entry that no leg owns (Table 1-8). -/
def flowsDrawn (s : State) : Nat :=
  Tbl.sum s.legs legFlows + (s.pkt.flows.filter (fun e => hCls e.2.owner != 2)).length

/-- Key slots drawn: the reservations of legs, and every slot reserved or written that no leg owns. -/
def keysDrawn (s : State) : Nat :=
  Tbl.sum s.legs legKeys + (s.keys.filter (fun e => hCls e.2.owner != 2)).length

/-- What is drawn from the pools now. -/
def drawn (s : State) : Need :=
  { legs := s.legs.length, confs := s.confs.length
    buses := Tbl.sum s.confs (fun c => 1 + c.aux)
    classes := Tbl.sum s.confs (fun c => c.classes.length)
    flows := flowsDrawn s, keys := keysDrawn s
    fwd := Tbl.sum s.legs legFwd
    dec := Tbl.sum s.legs legWeight
    enc := Tbl.sum s.confs (confUnits s)
    vdec := decTotal s, vdecN := s.video.decs.length
    venc := encTotal s, vencN := s.video.encs.length
    comp := cmpTotal s, compN := s.video.comps.length }

/-- The lowest pool code that `n` would overdraw, DRAM aside (R18). A need of nothing is never
refused. -/
def shortIn (s : State) (had n : Need) : Option Nat :=
  let chk := fun (code now want cap : Nat) => (want ≤ now || decide (want ≤ cap), code)
  let units := 262144 * scaleOf s / 65536
  firstBad
    [ chk 1 had.legs n.legs 16384, chk 2 had.confs n.confs 4096, chk 3 had.buses n.buses 4096
    , chk 4 had.classes n.classes 8192, chk 5 had.flows n.flows 1048576, chk 6 had.keys n.keys 65536
    , chk 7 had.fwd n.fwd 262144, chk 8 had.dec n.dec units, chk 9 had.enc n.enc units
    , chk 10 had.vdec n.vdec (rateCap s 40), chk 10 had.vdecN n.vdecN 6144
    , chk 11 had.venc n.venc (rateCap s 20), chk 11 had.vencN n.vencN 1536
    , chk 12 had.comp n.comp (rateCap s 40), chk 12 had.compN n.compN 512 ]

/-! ### DRAM (R128, R144, R145) -/

/-- A channel's state. -/
def chanOf (s : State) (c : Nat) : Channel := Tbl.getD s.dram.channels c {}

/-- Change a channel. -/
def modChan (c : Nat) (f : Channel → Channel) (s : State) : State :=
  { s with dram.channels := Tbl.upd s.dram.channels c {} f }

/-- The 32 channels. -/
def allChans : List Nat := List.range 32

/-- A retired channel. -/
def chanRetired (s : State) (c : Nat) : Bool := (chanOf s c).state == .retired

/-- The bandwidth of a set point in kB/s × 100 and its admission limit in kB/s (Table 6-2). -/
def spLimitKb : Nat → Nat
  | 0 => 17664000
  | 1 => 13800000
  | 2 => 11776000
  | _ => 5888000
def spRateKb : Nat → Nat
  | 0 => 19200000
  | 1 => 15000000
  | 2 => 12800000
  | _ => 6400000

/-- The unit in which loads are summed: 1/64,000 byte/s, by 400, by the least common multiple of 1 to 32,
so that every spreading of Table 6-4 is exact. -/
def lcm32 : Nat := 144403552893600
def dramUnit : Nat := 64000 * 400 * lcm32

/-- The channels of a mask, ascending. -/
def chansOf (mask : Nat) : List Nat := allChans.filter (bit mask)

/-- The charge of a region in `dramUnit`⁻¹ × `lcm32`⁻¹ byte/s: BW × (1 + WRITE_PCT/100) if mirrored, × 1.25 if
ordered (Table 6-4). -/
def regionCharge (r : Region) : Nat :=
  r.bwMbps * 1000000 * 64000 * (if bit r.rflags 0 then 100 + r.writePct else 100) * (if bit r.rflags 1 then 5 else 4)

/-- Media charge spread over all 32 channels, same unit: 2.25 B per sample decoded, 3 per sample encoded, 1.25
per sample composed, 1 per byte captured (`capB` in byte/s). -/
def mediaCharge (vdec venc comp capB : Nat) : Nat :=
  vdec * 900 + venc * 1200 + comp * 500 + capB * 64000 * 400

/-- Bytes per second of the running capture sessions (R367) and of the replays admitted (R375). -/
def captureBytes (s : State) : Nat :=
  ((s.cap.sessions.filter (fun e => match e.2.state with
      | .running | .armed | .triggered | .scheduled => true
      | _ => false)).map
    (fun e => if e.2.replay then e.2.rate else e.2.rate * 125000)).foldl (· + ·) 0

/-- STATE bytes checkpointed per second, of the tasks bound (R228). -/
def ckptRate (s : State) : Nat :=
  Tbl.sum s.dsp.tasks (fun t => if t.state = .created then 0 else t.stateLen * t.rate)

/-- What capture, replay and the mirrored checkpoint writes of R228 load, in byte/s. -/
def otherBytes (s : State) : Nat := captureBytes s + 2 * ckptRate s

/-- The load of channel `c` in `dramUnit`: the media load and the regions on it (R145). -/
def chanLoad (media : Nat) (regions : List Region) (c : Nat) : Nat :=
  media * (lcm32 / 32)
    + ((regions.filter (fun r => bit r.channels c)).map
        (fun r => regionCharge r * (lcm32 / (chansOf r.channels).length))).foldl (· + ·) 0

/-- The media load now. -/
def mediaNow (s : State) : Nat := mediaCharge (decTotal s) (encTotal s) (cmpTotal s) (otherBytes s)

/-- The load admitted on a channel now. -/
def loadNow (s : State) (c : Nat) : Nat := chanLoad (mediaNow s) (Tbl.vals s.dram.regions) c

/-- Whether a channel's load stays within 92 % of its rate. -/
def withinLimit (s : State) (c load : Nat) : Bool :=
  decide (load ≤ spLimitKb (chanOf s c).sp * 1000 * dramUnit)

/-- The worksheet admits the media load and regions (R145). -/
def worksheetOk (s : State) (media : Nat) (regions : List Region) : Bool :=
  allChans.all fun c => chanRetired s c || withinLimit s c (chanLoad media regions c)

/-- NO_RESOURCE, detail 0x000D, where the media load rises to `media` and does not fit. -/
def mediaErr (s : State) (media : Nat) : Option Err :=
  if media ≤ mediaNow s ∨ worksheetOk s media (Tbl.vals s.dram.regions) then none else some (noResource 0x0D)

/-- The first pool found short, in ascending order of codes, DRAM last (R18). -/
def admission (s : State) (n : Need) : Option Err :=
  match shortIn s (drawn s) n with
  | some d => some (noResource d)
  | none => mediaErr s (mediaCharge n.vdec n.venc n.comp (otherBytes s))

/-- Megabytes per second of a load. -/
def loadMb (load : Nat) : Nat := load / (dramUnit * 1000000)

end Sys2Proof.Machine
end

