-- ==== Sys2Proof/Machine/DramOps.lean ====
section
/-! DEFINITION. Machine/DramOps.lean: channels, regions and requests (R124–R142). -/

namespace Sys2Proof.Machine

/-! ### Capacity and placement (R126, R140) -/

/-- A channel register (Table 6-10). -/
def chReg (r c : Nat) : Nat := r + 0x80 * c

/-- Usable MiB of a channel: 15/16 of what is fitted, nothing once retired (R126). -/
def chanMib (s : State) (c : Nat) : Nat := if chanRetired s c then 0 else (chanOf s c).gib * 960

/-- Usable MiB in all (DMC_CAPACITY). -/
def usableMib (s : State) : Nat := (allChans.map (chanMib s)).foldl (· + ·) 0

/-- The device-wide admission limit in MB/s (DMC_BW_FLOOR). -/
def bwFloor (s : State) : Nat :=
  (allChans.map (fun c => if chanRetired s c then 0 else spLimitKb (chanOf s c).sp / 1000)).foldl (· + ·) 0

/-- The mirror partner of a channel (R140). -/
def partner (c : Nat) : Nat := if c < 16 then c + 16 else c - 16

/-- The slots of a region: one per stripe, and with MIRROR its copy's. -/
def Region.slots (r : Region) : List Nat :=
  chansOf r.channels ++ (if bit r.rflags 0 then (chansOf r.channels).map partner else [])

/-- The channel on which a slot lies. -/
def Region.chan (r : Region) (slot : Nat) : Nat := Tbl.getD r.moved slot slot

/-- A slot's share of the region's size, in MiB × `lcm32`. -/
def Region.share (r : Region) : Nat := r.sizeMib * (lcm32 / max 1 (chansOf r.channels).length)

/-- What regions draw from a channel, in MiB × `lcm32`. -/
def chanDrawn (regions : List Region) (c : Nat) : Nat :=
  (regions.map (fun r =>
    r.share * (r.slots.filter (fun k => r.chan k == c && !r.lost.contains k)).length)).foldl (· + ·) 0

/-- Free capacity of a channel, in MiB × `lcm32`. -/
def chanFree (s : State) (c : Nat) : Nat := chanMib s c * lcm32 - chanDrawn (Tbl.vals s.dram.regions) c

/-- The regions fit on every channel. -/
def regionsFit (s : State) (regions : List Region) : Bool :=
  allChans.all fun c => decide (chanDrawn regions c ≤ chanMib s c * lcm32)

/-- Bytes of the granule (Table 6-6); ORDER_7224 always has 4 KiB (R134). -/
def Region.granLog (r : Region) : Nat :=
  if bit r.rflags 1 then 12 else match bits r.rflags 3 2 with | 0 => 8 | 1 => 12 | _ => 21

/-- The stripe (its first slot) of a byte offset. -/
def Region.stripe (r : Region) (o : Nat) : Nat :=
  let cs := chansOf r.channels
  cs.getD (o / 2 ^ r.granLog % max 1 cs.length) 0

/-- The slots that hold a byte offset and are not lost, the first copy first. -/
def Region.live (r : Region) (o : Nat) : List Nat :=
  let c := r.stripe o
  (c :: (if bit r.rflags 0 then [partner c] else [])).filter fun k => !r.lost.contains k

/-- Stripes whose every slot is lost. -/
def Region.lostStripes (r : Region) : List Nat :=
  (chansOf r.channels).filter fun c =>
    r.lost.contains c && (!bit r.rflags 0 || r.lost.contains (partner c))

/-- Change a region. -/
def modRegion (i : Nat) (f : Region → Region) (s : State) : State :=
  { s with dram.regions := Tbl.modify s.dram.regions i f }

/-- The handle of a region. -/
def regionH (i : Nat) : Word := mkH 0x13 i

/-! ### Lost data -/

/-- An overlay whose region is deleted or enters DATA_LOST is switched off (R268). -/
def overlaysOff (h : Word) (s : State) : State :=
  s.video.comps.foldl (fun s c =>
    c.2.overlays.foldl (fun s o =>
      if o.2.format ≠ 0 ∧ o.2.region = h then
        raiseUnless R.CMP_EVENT_MASK 0 Ev.CMP_SOURCE_LOST (mkH 7 c.1) (leN (0x80 + o.1) 1 ++ leN 0 3 ++ leN h.toNat 4)
          (bump (winKey R.CMP_W_SOURCE_LOST c.1)
            { s with video.comps := Tbl.modify s.video.comps c.1 (fun x => { x with overlays := Tbl.del x.overlays o.1 }) })
      else s) s) s

/-- A region enters DATA_LOST (R127, R138). -/
def regionLost (i : Nat) (s : State) : State :=
  overlaysOff (regionH i) (modRegion i (fun r => { r with state := .dataLost }) s)

/-! ### Overcommit, set points, retirement (R129, R137, R138, R146) -/

/-- Channel `c` is looked at again after its limit changed (R146). -/
def checkOvercommit (c : Nat) (s : State) : State :=
  let load := loadNow s c
  if chanRetired s c ∨ withinLimit s c load then
    { s with dram.overcommit := s.dram.overcommit.filter (· != c) }
  else
    raise Ev.DRAM_OVERCOMMIT 0 (leN c 1 ++ leN 0 3 ++ leN (loadMb load) 4 ++ leN (spLimitKb (chanOf s c).sp / 1000) 4)
      { s with dram.overcommit := if s.dram.overcommit.contains c then s.dram.overcommit else s.dram.overcommit ++ [c], boot.degraded := true }

/-- Channel `c` changes to set point `sp`: the other timing set comes into use (R129, R130). -/
def changeSp (c sp cause stallNs : Nat) (s : State) : State :=
  let old := (chanOf s c).sp
  let s := modChan c (fun x => { x with sp, tset := 1 - x.tset }) s
  let s := trackMax (chReg R.DMC_CH_SP_STALL_MAX c) (min 6000 stallNs) s
  checkOvercommit c (raiseUnless R.DMC_EVENT_MASK 0 Ev.DRAM_SETPOINT 0
    (leN c 1 ++ leN old 1 ++ leN sp 1 ++ leN cause 1 ++ leN (min 6000 stallNs) 4) s)

/-- The position of `c` in a list. -/
def posIn : List Nat → Nat → Nat
  | [], _ => 0
  | x :: t, c => if x = c then 0 else posIn t c + 1

/-- What the retirement of channel `c` does to region `i` (R138): a mirrored stripe goes on with its other
copy; a stripe without one is lost. -/
def retireRegion (c : Nat) (s : State) (i : Nat) : State :=
  match Tbl.get? s.dram.regions i with
  | none => s
  | some r =>
    let hit := r.slots.filter (fun k => r.chan k == c && !r.lost.contains k)
    let r' := { r with lost := r.lost ++ hit }
    let s := modRegion i (fun _ => r') s
    hit.foldl (fun s k =>
      let stripe := if (chansOf r.channels).contains k then k else partner k
      if r'.lostStripes.contains stripe then
        let bytes := r.sizeMib * 1048576 / max 1 (chansOf r.channels).length
        raise Ev.DRAM_CHANNEL_RETIRED (regionH i)
          (leN c 1 ++ leN (posIn (chansOf r.channels) stripe) 1 ++ leN (chansOf r.channels).length 1 ++ leN r.granLog 1
            ++ leN 0 4 ++ leN bytes 8)
          (regionLost i s)
      else
        raise Ev.DRAM_MIRROR_LOST (regionH i) (leN c 1 ++ leN (r.chan (if k = stripe then partner stripe else stripe)) 1)
          (modRegion i (fun r => { r with state := if r.state = .dataLost then .dataLost else .degraded }) s)) s

/-- A DRAM_TRAIN has handled its first channel: the next one follows, or it is answered (R138). -/
def TrainCmd.next (t : TrainCmd) (fail : Option Nat) : TrainCmd :=
  { t with left := t.left.drop 1, started := false, done := t.done + 1, failed := t.failed <|> fail }

/-- The DRAM_TRAIN commands that have handled every channel are answered. -/
def finishTrains (s : State) : State :=
  let over_ := s.dram.trains.filter (fun t => t.left == [])
  over_.foldl (fun s t =>
    match t.failed with
    | some c => finishRunning t.rs t.tag St.NO_TRAINING_WINDOW c t.done [] s
    | none => finishRunning t.rs t.tag St.OK 0 t.done [] s)
    { s with dram.trains := s.dram.trains.filter (fun t => t.left != []) }

/-- A full retrain of channel `c` starts (R136). -/
def startRetrain (c : Nat) (s : State) : State :=
  modChan c (fun x => { x with retrain := true, slices := 0, tries := 0 }) s

/-- Each DRAM_TRAIN whose turn has come on its first channel starts it (R139); a retired one has no window. -/
def kickTrains : Nat → State → State
  | 0, s => s
  | fuel + 1, s =>
    match s.dram.trains.find? (fun t => !t.started && match t.left with
        | c :: _ => chanRetired s c || !(chanOf s c).retrain
        | [] => false) with
    | none => finishTrains s
    | some t =>
      let c := t.left.headD 0
      let put := fun (t' : TrainCmd) (s : State) =>
        { s with dram.trains := s.dram.trains.map (fun u => if u.rs = t.rs ∧ u.tag = t.tag then t' else u) }
      if chanRetired s c then kickTrains fuel (put (t.next (some c)) s)
      else if t.op = 0 then kickTrains fuel (put { t with started := true } (startRetrain c s))
      else kickTrains fuel (put { t with started := true } s)

/-- Fuel for `kickTrains`: every channel of every command. -/
def trainFuel (s : State) : Nat := (s.dram.trains.map (fun t => t.left.length + 1)).foldl (· + ·) 1

/-- Channel `c` is done for the DRAM_TRAIN that waits on it. -/
def trainHandled (c : Nat) (fail : Option Nat) (s : State) : State :=
  let s := { s with dram.trains := s.dram.trains.map (fun t =>
    if t.started ∧ t.left.head? = some c then t.next fail else t) }
  kickTrains (trainFuel s) s

/-- Channel `c` retires (R138, R368). -/
def retireChannel (c : Nat) (s : State) : State :=
  let s := modChan c (fun x => { x with state := .retired, retrain := false, outcome := 3 }) s
  let s := (Tbl.keys s.dram.regions).foldl (retireRegion c) s
  let s := capRetire c s
  let mask := (allChans.filter (chanRetired s)).foldl (fun m k => m + 2 ^ k) 0
  let s := raise Ev.DRAM_FIGURES 0 (leN (usableMib s) 4 ++ leN (bwFloor s) 4 ++ leN mask 4) s
  trainHandled c (some c) (checkOvercommit c s)

/-! ### Requests (R126, R127, R131–R133) -/

/-- Hint mode: IDLE_NS 0, or a window of thrashing (R132). -/
def hintMode (s : State) (c : Nat) : Bool := rgBits s R.DMC_CTRL 9 0 == 0 || (chanOf s c).hint

/-- A window of 4,096 accesses ends (R132). -/
def endWindow (c : Nat) (s : State) : State :=
  let x := chanOf s c
  if x.win < 4096 then s
  else
    let s := if hintMode s c then bump32 (chReg R.DMC_CH_THRASH c) s else s
    let hint := if x.hint then decide (512 < x.winConf)
      else bit (rgRaw s R.DMC_CTRL) 24 && decide (1024 < x.winConf)
    modChan c (fun x => { x with win := 0, winConf := 0, hint }) s

/-- An access to a row of a bank: hit or conflict is counted, and the row stays open or closes (R131, R132). -/
def accessRow (c bank row hint : Nat) (queued : Bool) (s : State) : State :=
  let x := chanOf s c
  let (hit, conflict) := match Tbl.get? x.openRows bank with
    | some (r, _) => (r == row, r != row)
    | none => (false, false)
  let s := if hit then bump (chReg R.DMC_CH_ROW_HITS c) s else s
  let s := if conflict then bump (chReg R.DMC_CH_ROW_CONFLICTS c) s else s
  let close := if hintMode s c then hint != 1 else hint == 2 && !queued
  let rows := if close then Tbl.del x.openRows bank else Tbl.put x.openRows bank (row, s.clock.cycles)
  endWindow c (modChan c (fun x =>
    { x with openRows := rows, win := x.win + 1, winConf := x.winConf + b2n conflict }) s)

/-- What a channel answers a reader of a line. -/
inductive LineRead where
  | data | lost (chan : Nat)
deriving DecidableEq, Repr

/-- The inline ECC looks at the line of region `i` at byte offset `o` on channel `c` (R127): `ecc` is 0 clean, 1
corrected, 2 uncorrectable. Answers whether the data came. -/
def eccCheck (i o c ecc : Nat) (s : State) : Bool × State :=
  let line := o / 64 * 64
  match Tbl.get? s.dram.regions i with
  | none => (false, s)
  | some r =>
    if r.poison.contains line then (false, s)
    else if ecc = 0 then (true, s)
    else if ecc = 1 then (true, bump R.DMC_CORRECTED (bump (chReg R.DMC_CH_CORRECTED c) s))
    else
      let s := setRg (chReg R.DMC_CH_LAST_ERR c) (o / 64)
        (bump R.DMC_UNCORRECTABLE (bump (chReg R.DMC_CH_UNCORRECTABLE c) s))
      if 2 ≤ (r.live o).length then
        (true, raise Ev.DRAM_UNCORRECTABLE (regionH i) (leN c 1 ++ leN 0 7 ++ leN line 8) (bump R.DMC_MIRROR_READS s))
      else
        (false, raise Ev.DRAM_UNCORRECTABLE (regionH i) (leN c 1 ++ leN 1 1 ++ leN 0 6 ++ leN line 8)
          (regionLost i (modRegion i (fun r => { r with poison := r.poison ++ [line] }) s)))

/-- Write bytes at an offset of a region: both copies take them; a line written whole is poisoned no longer. -/
def regionWrite (i o : Nat) (bs : List Byte) (s : State) : State :=
  let s := { s with dram.cells := Memory.writeN s.dram.cells (regionBase i + o) bs }
  modRegion i (fun r => { r with poison := r.poison.filter (fun l => !(decide (o ≤ l) && decide (l + 64 ≤ o + bs.length))) }) s

/-- The bytes at an offset of a region. -/
def regionRead (s : State) (i o n : Nat) : List Byte := Memory.readN s.dram.cells (regionBase i + o) n

/-- The bytes a request moves. -/
def reqBytes (q : DramReq) : Nat :=
  match q.write with
  | some b => b.length
  | none => q.count

/-- The channel that serves a request, `none` where it lies outside its region or every channel of it is lost. -/
def dramTarget (q : DramReq) (s : State) : Option Nat :=
  match Tbl.get? s.dram.regions q.region with
  | none => none
  | some r =>
    if r.sizeMib * 1048576 < q.offset + reqBytes q then none
    else (r.live q.offset).head?.map r.chan

/-- A read is answered by channel `c`: the data, or a poisoned signal where the channel's ECC gives none up. -/
def dramRead (q : DramReq) (c n : Nat) (s : State) : State :=
  let r := eccCheck q.region q.offset c q.ecc s
  if r.1 then
    emit (.readData (uN (regionRead r.2 q.region q.offset n) 0 n)) (bumpBy (chReg R.DMC_CH_RD_BYTES c) n r.2)
  else emit (.signal 0x07 q.region (-1)) r.2

/-- Channel `c` serves a request of `n` bytes: the row, the counters, the store or the read. -/
def dramServe (q : DramReq) (c n : Nat) (s : State) : State :=
  let s := bumpBy (chReg R.DMC_CH_LINK_ECC c) q.linkEcc (modChan c (fun x => { x with linkEcc := x.linkEcc + q.linkEcc }) s)
  let s := trackMax (chReg R.DMC_CH_AGE_MAX c) q.waitNs (accessRow c q.bank q.row q.hint q.rowQueued s)
  match q.write with
  | some b => bumpBy (chReg R.DMC_CH_WR_BYTES c) n (regionWrite q.region q.offset b s)
  | none => dramRead q c n s

/-- A request at its channel (R126–R134): the row, the ECC, the data. A read that cannot be served gives an
error completion. -/
def dramRequest (q : DramReq) (s : State) : State :=
  match dramTarget q s with
  | some c => dramServe q c (reqBytes q) s
  | none => emit (.signal 0x07 q.region (-1)) s

end Sys2Proof.Machine
end

