-- ==== Sys2Proof/Machine/CipherOps.lean ====
section
/-! DEFINITION. Machine/CipherOps.lean: key slots, their generations, counters and replay windows (R167–R173). -/

namespace Sys2Proof.Machine

/-- The state of a key slot; an unlisted one is unwritten and reserved by no one. -/
def keyOf (s : State) (k : Nat) : Key := Tbl.getD s.keys k {}

/-- Change a listed key slot. -/
def modKey (k : Nat) (f : Key → Key) (s : State) : State := { s with keys := Tbl.modify s.keys k f }

/-- The handle of a key slot. -/
def keyH (k : Nat) : Word := mkH 0x0B k

/-- SRTP suites (Table 7-6). -/
def isSrtp (suite : Nat) : Bool := decide (1 ≤ suite) && decide (suite ≤ 4)

/-- The highest counter value of a suite (R171). -/
def counterLimit (suite : Nat) : Nat := if suite = 5 then 2 ^ 64 - 1 else 2 ^ 48 - 1

/-- The blocks a packet of `L` authenticated bytes is charged (Table 7-9). -/
def cipherBlocks (suite l : Nat) : Nat :=
  let n := (l + 15) / 16
  match suite with
  | 1 => n + 6
  | 2 => n + 6
  | 6 => 2 * n + 2
  | 8 => n + 1
  | 9 => n + 1
  | _ => n + 2

/-- Operations in flight on a slot, of every generation. -/
def Key.flying (k : Key) : Nat := (k.inflight.map Prod.snd).foldl (· + ·) 0

/-- A slot is zeroised: nothing of it stays, its reservation ends. The generations it held are counted; leases
let go of it. -/
def zeroiseSlot (k : Nat) (s : State) : State :=
  let x := keyOf s k
  let gens := b2n x.written + x.left.length + b2n x.held.isSome
  leaveLeases (keyH k) (bumpBy R.CIP_ZEROISED gens { s with keys := Tbl.del s.keys k })

/-- A waiting KEY_ERASE completes once nothing is in flight (R169). -/
def finishErase (k : Nat) (s : State) : State :=
  let x := keyOf s k
  match x.eraser with
  | some (rs, tag) => if x.flying = 0 then finishRunning rs tag St.OK 0 1 [] (zeroiseSlot k s) else s
  | none => s

/-- An erase without NOW begins on slot `k` (R169): at once where nothing is in flight; with no command behind it, as
when a leg closes (R14), the slot waits the same way. -/
def eraseSlot (k : Nat) (by_ : Nat × Word) (s : State) : State :=
  let s := modKey k (fun x => { x with eraser := some by_ }) s
  finishErase k s

/-- The last operation of generation `g` on slot `k` drains (R169). -/
def generationDrained (k g : Nat) (s : State) : State :=
  match Tbl.get? s.keys k with
  | none => s
  | some x =>
    let left := x.left.contains g
    let s := modKey k (fun x => { x with inflight := Tbl.del x.inflight g, left := x.left.filter (· != g) }) s
    finishErase k (if left then bump R.CIP_ZEROISED s else s)

/-- The previous generation held under HOLD_MS is zeroised (R170). -/
def dropHeld (k : Nat) (s : State) : State :=
  if (keyOf s k).held.isSome then bump R.CIP_ZEROISED (modKey k (fun x => { x with held := none }) s) else s

/-- A packet of `bytes` authenticated bytes passes a pipe under slot `k`: blocks, uses, the cache load of a fresh SRTP
generation (R173). -/
def chargePipe (k bytes : Nat) (lingers : Bool) (s : State) : State :=
  let x := keyOf s k
  let load := x.fresh && isSrtp x.suite
  let s := if load then bump R.CIP_CACHE_LOADS s else s
  let s := bumpBy R.CIP_BLOCKS (cipherBlocks x.suite bytes + 8 * b2n load) s
  modKey k (fun x => { x with
    fresh := false, uses := satAdd 64 x.uses 1
    inflight := if lingers then Tbl.upd x.inflight x.gen 0 (· + 1) else x.inflight }) s

/-- The remaining count of a slot falls: KEY_NONCE_WARN once per generation (R171). -/
def warnNonce (k remaining : Nat) (s : State) : State :=
  let x := keyOf s k
  let w := rgBits s R.CIP_CTRL 5 0
  if w = 0 ∨ x.warned ∨ 2 ^ w < remaining then s
  else
    raiseUnless R.CIP_EVENT_MASK 0 Ev.KEY_NONCE_WARN (keyH k) (leN x.gen 1 ++ leN 0 7 ++ leN remaining 8)
      (modKey k (fun x => { x with warned := true }) s)

/-- A transmit operation on slot `k` (R171): answers the counter value it takes, or none where it is dropped. -/
def cipherSend (k bytes : Nat) (rtcp lingers : Bool) (s : State) : Option Nat × State :=
  let x := keyOf s k
  if ¬ x.written ∨ x.eraser.isSome then (none, bump R.CIP_KEY_ABSENT s)
  else
    let limit := if rtcp then 2 ^ 31 - 1 else counterLimit x.suite
    let now := if rtcp then x.counter2 else x.counter
    if limit < now then
      let s := bump R.CIP_NONCE_LIMIT s
      if x.spent then (none, s)
      else (none, raise Ev.KEY_NONCE_EXHAUSTED (keyH k) (leN x.gen 1 ++ leN x.suite 1) (modKey k (fun x => { x with spent := true }) s))
    else
      let s := modKey k (fun x => if rtcp then { x with counter2 := now + 1 } else { x with counter := now + 1 }) s
      (some now, warnNonce k (limit - now) (chargePipe k bytes lingers s))

/-- Whether a receive index passes the 128-packet replay window (R167): bit n of `win` is the index n below the highest. -/
def replayOk (x : Key) (index : Nat) : Bool :=
  decide (x.counter < index) || (decide (x.counter - index < 128) && !bit x.win (x.counter - index))

/-- The replay window after an index has been received. -/
def replayMark (x : Key) (index : Nat) : Key :=
  if x.counter < index then { x with counter := index, win := (x.win * 2 ^ (index - x.counter) + 1) % 2 ^ 128 }
  else { x with win := setBit x.win (x.counter - index) true }

/-- A receive operation on slot `k` (R167, R169–R171): whether the packet passes. `authNew` and `authOld` say whether
it authenticates under the present and under the held generation. -/
def cipherReceive (k bytes index : Nat) (authNew authOld lingers : Bool) (s : State) : Bool × State :=
  let x := keyOf s k
  if ¬ x.written ∨ x.eraser.isSome then (false, bump R.CIP_KEY_ABSENT s)
  else if counterLimit x.suite < index then (false, s)
  else if isSrtp x.suite && !replayOk x index then
    (false, bump R.CIP_REPLAY_DROP (modKey k (fun x => { x with replay := satAdd 64 x.replay 1 }) s))
  else
    let s := chargePipe k bytes lingers s
    if authNew then (true, dropHeld k (modKey k (fun x => if isSrtp x.suite then replayMark x index else x) s))
    else if authOld && x.held.isSome then (true, modKey k (fun x => replayMark x index) s)
    else (false, bump R.CIP_AUTH_FAIL (modKey k (fun x => { x with authFail := satAdd 64 x.authFail 1 }) s))

end Sys2Proof.Machine
end

