-- ==== Sys2Proof/Machine/FlowTable.lean ====
section
/-! DEFINITION. Machine/FlowTable.lean: the flow table: keys, ways, displacement, overflow CAM and rehash
(R156–R160). -/

namespace Sys2Proof.Machine

/-! ### Entries (Table 7-4) -/

/-- A byte of a flow entry. -/
def Flow.byte (f : Flow) (n : Nat) : Nat := u8 f.bytes n

/-- KIND and IPV6 of an entry. -/
def entryKind (e : List Byte) : Nat := bits (u8 e 0) 3 0
def Flow.kind (f : Flow) : Nat := entryKind f.bytes
def Flow.v6 (f : Flow) : Bool := bit (f.byte 0) 4

/-- The hashed bytes of an entry with its kind: bytes 0–23, without the data bytes of EGRESS and ACL entries. -/
def entryKey (e : List Byte) : List Byte :=
  match entryKind e with
  | 4 => fit (slice e 0 9) 24
  | 9 => fit (slice e 0 4) 24
  | _ => fit e 24

/-- The flow that a key finds; a removed entry is found no more (R157). -/
def findFlow (s : State) (key : List Byte) : Option (Nat × Flow) :=
  s.pkt.flows.find? fun f => entryKey f.2.bytes == key && !f.2.removed

/-- Change a flow. -/
def modFlow (i : Nat) (f : Flow → Flow) (s : State) : State :=
  { s with pkt.flows := Tbl.modify s.pkt.flows i f }

/-! ### Placement (R156, R158) -/

/-- The seed of a way, the fresh one while the way is rehashed. -/
def waySeed (s : State) (w : Nat) : Nat :=
  match s.pkt.rehash with
  | some (r, seed) => if r = w then seed else s.pkt.seeds.getD w 0
  | none => s.pkt.seeds.getD w 0

/-- The bucket of a key in a way. -/
def bucketOf (s : State) (w : Nat) (key : List Byte) : Nat := Config.flowHash (waySeed s w) key % 65536

/-- Whether a slot of a bucket is taken. -/
def slotTaken (s : State) (w b k : Nat) : Bool :=
  s.pkt.flows.any fun f => !f.2.inCam && f.2.way == w && f.2.bucket == b && f.2.slot == k

/-- The lowest free slot of a bucket. -/
def freeSlot (s : State) (w b : Nat) : Option Nat := [0, 1, 2, 3].find? fun k => !slotTaken s w b k

/-- The first of a key's four buckets, way 0 first, with a free slot (notes/assumptions/20.md). -/
def freePlace (s : State) (key : List Byte) : Option (Nat × Nat × Nat) :=
  [0, 1, 2, 3].findSome? fun w => (freeSlot s w (bucketOf s w key)).map fun k => (w, bucketOf s w key, k)

/-- The flows in a key's four buckets. -/
def residents (s : State) (key : List Byte) : List Nat :=
  (s.pkt.flows.filter fun f => !f.2.inCam && f.2.bucket == bucketOf s f.2.way key).map Prod.fst

/-- The breadth-first search of R158. A path lists flows to displace, the last one first; `seen` those already
on a path. Answers a path and the free place of its last flow. -/
def searchChain (s : State) : Nat → List (List Nat) → List Nat → Option (List Nat × Nat × Nat × Nat)
  | 0, _, _ => none
  | _ + 1, [], _ => none
  | fuel + 1, path :: queue, seen =>
    let key := ((path.head?.bind (Tbl.get? s.pkt.flows)).map (fun f => entryKey f.bytes)).getD []
    match freePlace s key with
    | some (w, b, k) => some (path, w, b, k)
    | none =>
      if 500 ≤ path.length then searchChain s fuel queue seen
      else
        let next := (residents s key).filter (fun i => !seen.contains i)
        searchChain s fuel (queue ++ next.map (· :: path)) (seen ++ next)

/-- Put a flow at a place of the table. -/
def place (i w b k : Nat) (s : State) : State :=
  modFlow i (fun f => { f with inCam := false, way := w, bucket := b, slot := k }) s

/-- Each flow of a path moves, the last one to the free place, each other to the place its follower leaves;
answers the place left by the first. -/
def shiftChain : List Nat → (w b k : Nat) → State → (Nat × Nat × Nat) × State
  | [], w, b, k, s => ((w, b, k), s)
  | i :: t, w, b, k, s =>
    match Tbl.get? s.pkt.flows i with
    | some f => shiftChain t f.way f.bucket f.slot (place i w b k (bump R.PKT_DISPLACEMENTS s))
    | none => shiftChain t w b k s

/-- Entries in the CAM (PKT_CAM_USED). -/
def camUsed (s : State) : Nat := (s.pkt.flows.filter fun f => f.2.inCam).length

/-- The lowest free CAM index. -/
def camFree (s : State) : Option Nat :=
  (List.range (camUsed s + 1)).find? fun k =>
    decide (k < 8192) && !s.pkt.flows.any fun f => f.2.inCam && f.2.bucket == k

/-- A place in the table for flow `i`, listed already: its own buckets, then a chain of displacements.
Answers whether one was found. -/
def placeInTable (i : Nat) (s : State) : Bool × State :=
  let key := ((Tbl.get? s.pkt.flows i).map (fun f => entryKey f.bytes)).getD []
  match freePlace s key with
  | some (w, b, k) => (true, place i w b k s)
  | none =>
    let roots := (residents s key).filter (· != i)
    match searchChain s (s.pkt.flows.length + 1) (roots.map fun r => [r]) (i :: roots) with
    | some (path, w, b, k) =>
      let ((w, b, k), s) := shiftChain path w b k s
      (true, place i w b k s)
    | none => (false, s)

/-- The way that holds the most entries, the lowest among equals. -/
def fullestWay (s : State) : Nat :=
  let n := fun w => (s.pkt.flows.filter fun f => !f.2.inCam && f.2.way == w).length
  ([0, 1, 2, 3].find? fun w => [0, 1, 2, 3].all fun v => decide (n v ≤ n w)).getD 0

/-- Once the CAM holds 7,680 entries the fullest way is rehashed under a fresh seed, drawn at random (R158). -/
def startRehash (s : State) : State :=
  if camUsed s < 7680 ∨ s.pkt.rehash.isSome then s
  else
    let w := fullestWay s
    let (seed, s) := takeFree s
    raise Ev.FLOW_REHASH 0 (leN 0 1 ++ leN w 1 ++ leN 0 6 ++ leN (camUsed s) 4)
      { s with pkt.rehash := some (w, seed), pkt.moved := 0 }

/-- List a new flow and place it (R158, R159); `none` where the CAM is full and it must wait. The index is the
lowest free one. -/
def addFlow (f : Flow) (s : State) : Option (Nat × State) :=
  let i := (Tbl.lowestFree s.pkt.flows 0 1048576).getD 0
  let listed := { s with pkt.flows := Tbl.put s.pkt.flows i { f with inCam := true, bucket := 8192 } }
  match placeInTable i listed with
  | (true, s') => some (i, s')
  | (false, s') =>
    (camFree s).map fun k => (i, startRehash (modFlow i (fun f => { f with bucket := k }) s'))

/-- An entry of the rehashed way whose bucket changed is placed anew. -/
def rehashEntry (w : Nat) (s : State) (i : Nat) : State :=
  match Tbl.get? s.pkt.flows i with
  | none => s
  | some f =>
    if f.inCam ∨ f.way ≠ w ∨ f.bucket = bucketOf s w (entryKey f.bytes) then s
    else
      let s := modFlow i (fun f => { f with inCam := true, bucket := 8192 }) { s with pkt.moved := s.pkt.moved + 1 }
      match placeInTable i s with
      | (true, s) => s
      | (false, s) => modFlow i (fun f => { f with bucket := (camFree s).getD 8191 }) s

/-- An entry of the CAM that finds a place in the table leaves it. -/
def leaveCam (s : State) (i : Nat) : State :=
  match Tbl.get? s.pkt.flows i with
  | some f => if f.inCam then (match placeInTable i s with | (_, s) => s) else s
  | none => s

/-- Mark a flow for its drain (R160). -/
def drainFlow (i : Nat) (s : State) : State :=
  { s with pkt.drains := if s.pkt.drains.contains i then s.pkt.drains else s.pkt.drains ++ [i] }

/-- A flow is removed: packets looked up under it drain first (R160). -/
def removeFlow (i : Nat) (s : State) : State := drainFlow i (modFlow i (fun f => { f with removed := true }) s)

/-! ### Installing for a leg (R175, R385) -/

/-- Flow entries installed by an owner. -/
def flowsOwned (s : State) (owner : Word) : Nat :=
  (s.pkt.flows.filter fun f => f.2.owner == owner && !f.2.removed).length

/-- One reinstall of an owner's lost entries of a class clears the lowest such entry; the owner itself is clear
once none is left (R15, R385). The index of a lost flow entry is free from then on. -/
def reinstalled (cls : Nat) (owner : Word) (h : Option Word) (s : State) : State :=
  let lost : Tbl (Nat × Nat × Word) := s.power.reinstall.filter (fun e => e.2.2.2 == owner && e.1 != owner.toNat)
  let hit : Option (Nat × Nat × Nat × Word) := match h with
    | some h => lost.find? (fun e => e.1 == h.toNat)
    | none => lost.find? (fun e => e.1 / 16777216 == cls)
  match hit with
  | none => s
  | some e =>
    let r := Tbl.del s.power.reinstall e.1
    let left := r.any (fun x => x.2.2.2 == owner && x.1 != owner.toNat)
    { s with power.reinstall := if left then r else Tbl.del r owner.toNat
             pkt.flows := if e.1 / 16777216 = 0x0A then Tbl.del s.pkt.flows (e.1 % 16777216) else s.pkt.flows }

end Sys2Proof.Machine
end

