-- ==== Sys2Proof/Machine/DspIsa.lean ====
section
/-! DEFINITION. Machine/DspIsa.lean: the DSP instruction set: what one bundle reads, computes, stores and
where control goes (R207–R219, Tables 9-1 to 9-9). Nothing here touches the rest of the device. -/

namespace Sys2Proof.Machine

/-! ### Fields (Tables 9-4 and 9-6) -/

def fAtom (b : Nat) : Bool := bit b 3
def fMop (b : Nat) : Nat := bits b 63 58
def fA (b : Nat) : Nat := bits b 57 56
def fRd (b : Nat) : Nat := bits b 55 52
def fRs (b : Nat) : Nat := bits b 51 48
def fRt (b : Nat) : Nat := bits b 47 44
def fBsel (b : Nat) : Nat := bits b 43 42
def fImm6 (b : Nat) : Nat := bits b 41 36
def fImm12 (b : Nat) : Int := signed 12 (bits b 47 36)
def fLop (b : Nat) : Nat := bits b 35 30
def fDa (b : Nat) : Nat := bits b 29 26
def fDb (b : Nat) : Nat := bits b 25 22
def fX (b : Nat) : Nat := bits b 21 14
def fY (b : Nat) : Nat := bits b 13 6
def fSize (b : Nat) : Nat := bits b 5 4
def fImm21 (b : Nat) : Int := signed 21 (bits b 24 4)
def fOffset (b : Nat) : Int := signed 12 (bits b 25 14)
def fEnd (b : Nat) : Nat := bits b 25 14
def fPk (b : Nat) : Nat := bits b 13 11

/-- P, MODE and N of a lane address. -/
def lanP (a : Nat) : Nat := bits a 7 5
def lanMode (a : Nat) : Nat := bits a 4 3
def lanN (a : Nat) : Nat := bits a 2 0

/-- An operation that jumps: J, JL, JR, RTI, YIELD, END (R217). -/
def isJump (b : Nat) : Bool := [0x20, 0x21, 0x22, 0x25, 0x26, 0x27].contains (fLop b)

/-- LOOP and LOOPR. -/
def isLoop (b : Nat) : Bool := fLop b == 0x23 || fLop b == 0x24

/-! ### Legal encodings (Tables 9-5 and 9-6) -/

/-- The MOPs of Table 9-5. -/
def mops : List Nat :=
  [0x00, 0x01, 0x02, 0x03, 0x04, 0x05, 0x06, 0x07, 0x08, 0x09, 0x0A, 0x10, 0x11, 0x12, 0x13, 0x14, 0x18,
   0x20, 0x21, 0x22, 0x23, 0x24, 0x25, 0x26, 0x27, 0x28, 0x29, 0x2A, 0x2B, 0x2C, 0x2D, 0x2E, 0x2F,
   0x30, 0x31, 0x32]

/-- Slot M is a defined encoding. IMM12 stands in place of BSEL in the immediate forms. -/
def legalM (b : Nat) : Bool :=
  mops.contains (fMop b) && (decide (0x30 ≤ fMop b) || fBsel b != 3)

/-- The D registers that a lane loads: a register, or a pair. -/
def loadRegs (size r : Nat) : List Nat := if size = 1 then [r, r + 1] else [r]

/-- A pair is named by its even register. -/
def pairOk (size r : Nat) : Bool := size == 0 || r % 2 == 0

/-- Slot L is a defined encoding: every bit that the operation's form does not name is reserved
(notes/assumptions/21.md). -/
def legalL (b : Nat) : Bool :=
  let mem := decide (fSize b < 2)
  match fLop b with
  | 0x00 => bits b 29 4 == 0
  | 0x01 => mem && pairOk (fSize b) (fDa b)
  | 0x02 => mem && pairOk (fSize b) (fDa b) && pairOk (fSize b) (fDb b)
      && (lanMode (fX b) == 3 || lanMode (fY b) == 3
        || (loadRegs (fSize b) (fDa b)).all (fun r => !(loadRegs (fSize b) (fDb b)).contains r))
  | 0x03 => mem && fDa b % 4 == 0
  | 0x04 => mem && pairOk (fSize b) (fDa b)
  | 0x05 => mem && pairOk (fSize b) (fDa b) && pairOk (fSize b) (fDb b)
  | 0x06 => mem && fDa b % 4 == 0
  | 0x07 => mem
  | 0x08 => mem && pairOk (fSize b) (fDa b) && pairOk (fSize b) (fDb b)
  | 0x10 => bits b 26 25 != 3
  | 0x11 => bits b 26 25 != 3
  | 0x12 => bits b 18 4 == 0
      && (if [3, 4, 5, 7].contains (bits b 24 22) then decide (bits b 21 19 < 2) else true)
  | 0x20 => decide (fDa b ≤ 6) && bits b 13 4 == 0
  | 0x21 => bits b 10 4 == 0
  | 0x22 => bits b 10 4 == 0
  | 0x23 => bits b 29 27 == 0 && decide (1 ≤ fEnd b) && decide (fEnd b ≤ 2047) && bits b 13 4 != 0
  | 0x24 => bits b 29 27 == 0 && decide (1 ≤ fEnd b) && decide (fEnd b ≤ 2047) && bits b 9 4 == 0
  | 0x25 => bits b 13 4 == 0
  | 0x26 => bits b 13 4 == 0
  | 0x27 => bits b 13 4 == 0
  | 0x28 => bits b 29 4 == 0
  | 0x29 => bits b 13 11 == 0
  | _ => false

/-- A bundle that no core traps as ILLEGAL for its encoding. -/
def legalBundle (b : Nat) : Bool := legalM b && legalL b && bits b 2 0 == 0

/-! ### Results -/

/-- A result: bundles until it is visible (1 the next bundle), register and value (Table 9-7). -/
structure Res where
  lat  : Nat
  dest : Dest
  val  : Int
deriving DecidableEq, Repr

/-- D register `i` as a signed number. -/
def dInt (c : DspCtx) (i : Nat) : Int := (c.d.getD i 0).toInt

/-- The register that MAC-class operations chain on. -/
def accOf (c : DspCtx) (i : Nat) : Int := c.accNew.getD i 0

/-- The accumulator that every other reader sees. -/
def accSeen (c : DspCtx) (i : Nat) : Int := c.acc.getD i 0

/-- V is set. -/
def setV (cond : Bool) : List Res := if cond then [⟨1, .srBit 2, 1⟩] else []

/-- The limits of Q9.63. -/
def accMin : Int := -(2 ^ 71)
def accMax : Int := 2 ^ 71 - 1

/-- An accumulator takes a value, saturated at ±256 (R212). -/
def accRes (i : Nat) (v : Int) : List Res :=
  let w := clampI accMin accMax v
  ⟨3, .acc i, w⟩ :: setV (decide (w ≠ v))

/-- The exact product of two whole registers (Q1.31), in 2⁻⁶³. -/
def prodW (x y : Int) : Int := x * y * 2

/-- The exact product of two halves (Q1.15), in 2⁻⁶³. -/
def prodH (x y : Int) : Int := x * y * 2 ^ 33

/-- The low and high half of a register. -/
def lo16 (w : Word) : Int := signed 16 w.toNat
def hi16 (w : Word) : Int := signed 16 (w.toNat / 65536)

/-- RT(BSEL) times a whole register, in 2⁻⁶³: a half is Q1.15. -/
def prodB (x : Int) (rt : Word) (sel : Nat) : Int :=
  match sel with
  | 1 => x * lo16 rt * 2 ^ 17
  | 2 => x * hi16 rt * 2 ^ 17
  | _ => prodW x rt.toInt

/-- Element `i` of quad `q`. -/
def qElem (c : DspCtx) (q i : Nat) : Word := c.d.getD (4 * q + i) 0

/-- The two half-word products of element `i` of two quads. -/
def halves (c : DspCtx) (qs qt i : Nat) : Int :=
  prodH (lo16 (qElem c qs i)) (lo16 (qElem c qt i)) + prodH (hi16 (qElem c qs i)) (hi16 (qElem c qt i))

/-- The four lanes of a quad operation. -/
def quad (f : Nat → Int) : List Res := [0, 1, 2, 3].flatMap fun i => accRes i (f i)

/-- Rounding at bit 32 of a Q1.63 value by SR.RM, saturated to Q1.31 (R213). -/
def roundSat (rm : Bool) (v : Int) : Int × Bool :=
  let q := v / 2 ^ 32
  let r := v % 2 ^ 32
  let up := if rm then decide (2 ^ 31 < r) || (r == 2 ^ 31 && q % 2 == 1) else decide (2 ^ 31 ≤ r)
  let w := if up then q + 1 else q
  let z := clampI (-(2 ^ 31)) (2 ^ 31 - 1) w
  (z, decide (z ≠ w))

/-- Bits needed for a number, sign aside. -/
def bitLen (n : Nat) : Nat := if n = 0 then 0 else Nat.log2 n + 1

/-- The redundant sign bits of an accumulator, 0–71 (NORM). -/
def normOf (v : Int) : Nat := 71 - bitLen (if v < 0 then (-v - 1).toNat else v.toNat)

/-- A 32-bit result wraps. -/
def wrap32 (v : Int) : Int := signed 32 (toTwos 32 v)

/-- An ALU result: RD, Z and N, and V where it saturated. -/
def aluRes (rd : Nat) (v : Int) (sat : Bool) : List Res :=
  [⟨1, .d rd, v⟩, ⟨1, .srBit 0, b2n (v == 0)⟩, ⟨1, .srBit 1, b2n (decide (v < 0))⟩] ++ setV sat

/-- An ALU result that wraps. -/
def aluWrap (rd : Nat) (v : Int) : List Res := aluRes rd (wrap32 v) false

/-- An ALU result that saturates. -/
def aluSat (rd : Nat) (v : Int) : List Res :=
  let w := clampI (-(2 ^ 31)) (2 ^ 31 - 1) v
  aluRes rd w (decide (w ≠ v))

/-! ### Slot M (Table 9-5) -/

/-- The multiply-accumulate operations. -/
def macOp (b : Nat) (c : DspCtx) : List Res :=
  let a := fA b
  let qs := fRs b / 4
  let qt := fRt b / 4
  let rt := c.d.getD (fRt b) 0
  let one := prodW (dInt c (fRs b)) rt.toInt
  let w := fun i => prodW (qElem c qs i).toInt (qElem c qt i).toInt
  let br := fun i => prodB (qElem c qs i).toInt rt (fBsel b)
  match fMop b with
  | 0x01 => accRes a (accOf c a + one)
  | 0x02 => accRes a (accOf c a - one)
  | 0x03 => quad fun i => accOf c i + w i
  | 0x04 => quad fun i => accOf c i + br i
  | 0x05 => quad w
  | 0x06 => quad br
  | 0x07 => accRes a (accOf c a + (w 0 + w 1 + w 2 + w 3))
  | 0x08 => quad fun i => accOf c i + halves c qs qt i
  | 0x09 => quad (halves c qs qt)
  | 0x0A => accRes a (accOf c a + (halves c qs qt 0 + halves c qs qt 1 + halves c qs qt 2 + halves c qs qt 3))
  | 0x10 => accRes a 0
  | 0x11 => accRes a (accOf c a / 2 ^ fImm6 b)
  | 0x12 => accRes a (dInt c (fRs b) * 2 ^ 32)
  | _ => []

/-- RND, NORM and MPYF. -/
def accReadOp (b : Nat) (c : DspCtx) : List Res :=
  let late := 1 + Config.accReadLatency
  match fMop b with
  | 0x13 =>
    let r := roundSat (bit c.sr 3) (accSeen c (fA b))
    ⟨late, .d (fRd b), r.1⟩ :: setV r.2
  | 0x14 => [⟨late, .d (fRd b), normOf (accSeen c (fA b))⟩]
  | 0x18 =>
    let r := roundSat (bit c.sr 3) (prodW (dInt c (fRs b)) (dInt c (fRt b)))
    ⟨3, .d (fRd b), r.1⟩ :: setV r.2
  | _ => []

/-- The ALU operations. -/
def aluOp (b : Nat) (c : DspCtx) : List Res :=
  let rd := fRd b
  let x := dInt c (fRs b)
  let y := dInt c (fRt b)
  let xu := (c.d.getD (fRs b) 0).toNat
  let yu := (c.d.getD (fRt b) 0).toNat
  let k := fImm6 b
  match fMop b with
  | 0x20 => aluWrap rd (x + y)
  | 0x21 => aluWrap rd (x - y)
  | 0x22 => aluSat rd (x + y)
  | 0x23 => aluSat rd (x - y)
  | 0x24 => aluWrap rd (Nat.land xu yu)
  | 0x25 => aluWrap rd (Nat.lor xu yu)
  | 0x26 => aluWrap rd (Nat.xor xu yu)
  | 0x27 => aluWrap rd (min x y)
  | 0x28 => aluWrap rd (max x y)
  | 0x29 => aluSat rd (if x < 0 then -x else x)
  | 0x2A => aluSat rd (-x)
  | 0x2B => aluWrap rd x
  | 0x2C => aluWrap rd (x * 2 ^ k)
  | 0x2D => aluWrap rd ((xu / 2 ^ k : Nat) : Int)
  | 0x2E => aluWrap rd (x / 2 ^ k)
  | 0x2F => aluSat rd (x * 2 ^ k)
  | 0x30 => aluWrap rd (x + fImm12 b)
  | 0x31 => aluWrap rd (Nat.land xu (toTwos 32 (fImm12 b)))
  | 0x32 => aluWrap rd (fImm12 b)
  | _ => []

/-- The results of slot M. -/
def slotM (b : Nat) (c : DspCtx) : List Res :=
  if fMop b < 0x13 then macOp b c else if fMop b < 0x20 then accReadOp b c else aluOp b c

/-! ### Addresses (R214) -/

/-- ⌈log2 n⌉. -/
def clog2 (n : Nat) : Nat := if n ≤ 1 then 0 else Nat.log2 (n - 1) + 1

/-- Pk with Nn added, linear or in the modulo buffer that Lk gives. -/
def addrNext (c : DspCtx) (k n : Nat) : Nat :=
  let p := (c.p.getD k 0).toNat
  let o := (c.n.getD n 0).toInt
  let l := (c.l.getD k 0).toNat
  if l = 0 then toTwos 32 (p + o)
  else
    let base := p / 2 ^ clog2 l * 2 ^ clog2 l
    toTwos 32 (base + ((p : Int) - base + o) % l)

/-- The address a lane accesses; none where MODE is 3. -/
def laneAddr (c : DspCtx) (a : Nat) : Option Nat :=
  match lanMode a with
  | 3 => none
  | 2 => some (addrNext c (lanP a) (lanN a))
  | _ => some (c.p.getD (lanP a) 0).toNat

/-- The post-modification of a lane. -/
def lanePost (c : DspCtx) (a : Nat) : List Res :=
  if lanMode a = 1 then [⟨1, .p (lanP a), addrNext c (lanP a) (lanN a)⟩] else []

/-! ### Data accesses (R209–R211) -/

/-- One 32- or 64-bit access of a lane: a load of registers, or a store of words. -/
structure Acc where
  lane  : Nat
  addr  : Nat
  loads : List Nat
  words : List Nat
deriving DecidableEq, Repr

/-- The words an access moves. -/
def Acc.count (a : Acc) : Nat := a.loads.length + a.words.length

/-- The accesses of slot L, lane X first. -/
def accesses (b : Nat) (c : DspCtx) : List Acc :=
  let x := laneAddr c (fX b)
  let y := laneAddr c (fY b)
  let ra := loadRegs (fSize b) (fDa b)
  let rb := loadRegs (fSize b) (fDb b)
  let val := fun r => (c.d.getD r 0).toNat
  let ld := fun lane a rs => (a : Option Nat).toList.map fun o => (⟨lane, o, rs, []⟩ : Acc)
  let st := fun lane a ws => (a : Option Nat).toList.map fun o => (⟨lane, o, [], ws⟩ : Acc)
  let q := fDa b
  let rnd := fun i => toTwos 32 (roundSat (bit c.sr 3) (accSeen c i)).1
  match fLop b with
  | 0x01 => ld 0 x ra
  | 0x02 => ld 0 x ra ++ ld 1 y rb
  | 0x03 => ld 0 x [q, q + 1] ++ ld 1 (x.map (· + 8)) [q + 2, q + 3]
  | 0x04 => st 0 x (ra.map val)
  | 0x05 => st 0 x (ra.map val) ++ st 1 y (rb.map val)
  | 0x06 => st 0 x [val q, val (q + 1)] ++ st 1 (x.map (· + 8)) [val (q + 2), val (q + 3)]
  | 0x07 => st 0 x [rnd 0, rnd 1] ++ st 1 (x.map (· + 8)) [rnd 2, rnd 3]
  | 0x08 => ld 0 x ra ++ st 1 y (rb.map val)
  | _ => []

/-- The post-modifications of slot L. -/
def posts (b : Nat) (c : DspCtx) : List Res :=
  if fLop b = 0 ∨ 8 < fLop b then []
  else if [0x02, 0x05, 0x08].contains (fLop b) then lanePost c (fX b) ++ lanePost c (fY b)
  else lanePost c (fX b)

/-- STAQ sets V where a rounding saturates (R213). -/
def staqV (b : Nat) (c : DspCtx) : List Res :=
  if fLop b = 7 ∧ lanMode (fX b) ≠ 3 then
    setV ([0, 1, 2, 3].any fun i => (roundSat (bit c.sr 3) (accSeen c i)).2)
  else []

/-- The control region (Table 9-9). -/
def ctlBase : Nat := 0x20000

/-- The addresses of `n` bytes from `a` lie in a window. -/
def Win.holds (w : Win) (a n : Nat) : Bool := decide (w.base ≤ a) && decide (a + n ≤ w.base + w.len)

/-- Whether an access goes to the control region. -/
def Acc.ctl (a : Acc) : Bool := decide (ctlBase ≤ a.addr) && decide (a.addr + 4 * a.count ≤ ctlBase + 64)

/-- Whether R211 permits an access: aligned, and in a window that allows it, or in the control region at
registers that may be written. -/
def Acc.ok (wins : List Win) (a : Acc) : Bool :=
  let n := 4 * a.count
  a.addr % n == 0 &&
    (if a.ctl then a.words == [] || decide (a.addr + n ≤ ctlBase + 16)
     else (wins.getD 2 {}).holds a.addr n
      || (a.words == [] && ((wins.getD 0 {}).holds a.addr n || (wins.getD 1 {}).holds a.addr n)))

/-- What a load brings: `ctl` gives the words of the control region by lane and word number. -/
def loadRes (mem : List Host.Cell) (ctl : Nat → Nat → Nat) (a : Acc) : List Res :=
  a.loads.zipIdx.map fun e =>
    ⟨3, .d e.1, signed 32 (if a.ctl then ctl a.lane ((a.addr + 4 * e.2 - ctlBase) / 4)
      else uN (Memory.readN mem (a.addr + 4 * e.2) 4) 0 4)⟩

/-- The data memory after a store. -/
def storeMem (mem : List Host.Cell) (a : Acc) : List Host.Cell :=
  if a.ctl ∨ a.words = [] then mem
  else Memory.writeN mem a.addr (a.words.flatMap fun w => leN w 4)

/-- The words that a store writes to the control region, by word number, in order. -/
def ctlWrites (a : Acc) : List (Nat × Nat) :=
  if a.ctl then a.words.zipIdx.map fun e => ((a.addr - ctlBase) / 4 + e.2, e.1) else []

/-! ### Slot L without memory -/

/-- A register of SETA and ADDA, with its value. -/
def sForm (b : Nat) (c : DspCtx) : Dest × Int :=
  let i := bits b 29 27
  match bits b 26 25 with
  | 0 => (.p i, (c.p.getD i 0).toInt)
  | 1 => (.n i, (c.n.getD i 0).toInt)
  | _ => (.l i, (c.l.getD i 0).toInt)

/-- MOVR, both ways. A write to SR changes bits [3:0] only. -/
def movr (b : Nat) (c : DspCtx) : List Res :=
  let r := fDa b
  let i := bits b 21 19
  let d := c.d.getD r 0
  if bit b 25 then
    let v : Nat := match bits b 24 22 with
      | 0 => (c.p.getD i 0).toNat
      | 1 => (c.n.getD i 0).toNat
      | 2 => (c.l.getD i 0).toNat
      | 3 => c.ls.getD i 0
      | 4 => c.le.getD i 0
      | 5 => (c.lc.getD i 0).toNat
      | 6 => c.sr
      | _ => if i = 0 then c.spc else c.ssr
    [⟨1, .d r, signed 32 v⟩]
  else
    match bits b 24 22 with
    | 0 => [⟨1, .p i, d.toInt⟩]
    | 1 => [⟨1, .n i, d.toInt⟩]
    | 2 => [⟨1, .l i, d.toInt⟩]
    | 3 => [⟨1, .ls i, d.toNat % 4096⟩]
    | 4 => [⟨1, .le i, d.toNat % 4096⟩]
    | 5 => [⟨1, .lc i, d.toNat⟩]
    | 6 => [0, 1, 2, 3].map fun k => ⟨1, .srBit k, b2n (bit d.toNat k)⟩
    | _ => if i = 0 then [⟨1, .spc, d.toNat % 4096⟩] else [⟨1, .ssr, d.toNat % 65536⟩]

/-- LOOP and LOOPR: the registers and LA; a LOOPR of 0 starts no loop. -/
def loopRes (b : Nat) (c : DspCtx) : List Res :=
  let n := b2n (bit b 26)
  let count := if fLop b = 0x23 then bits b 13 4 else (c.d.getD (bits b 13 10) 0).toNat
  [⟨1, .ls n, (c.pc + 1) % 4096⟩, ⟨1, .le n, (c.pc + fEnd b) % 4096⟩, ⟨1, .lc n, count⟩]
    ++ (if count = 0 then [] else [⟨1, .srBit (5 + n), 1⟩])

/-- LOOPR with a count of 0 skips the body. -/
def skipsBody (b : Nat) (c : DspCtx) : Bool :=
  fLop b == 0x24 && c.d.getD (bits b 13 10) 0 == 0

/-- COND of J. -/
def condHolds (cond sr : Nat) : Bool :=
  match cond with
  | 0 => true
  | 1 => bit sr 0
  | 2 => !bit sr 0
  | 3 => bit sr 1
  | 4 => !bit sr 1
  | 5 => bit sr 2
  | _ => !bit sr 2

/-- The jump a bundle takes; `offer` says that a task at a higher level waits for the core (YIELD). -/
def jumpOf (b : Nat) (c : DspCtx) (offer : Bool) : Option JumpKind :=
  match fLop b with
  | 0x20 => if condHolds (fDa b) c.sr then some (.jump (toTwos 12 (c.pc + fOffset b))) else none
  | 0x21 => some (.jump (toTwos 12 (c.pc + fOffset b)))
  | 0x22 => some (.jump ((c.p.getD (fPk b) 0).toNat % 4096))
  | 0x25 => some .rti
  | 0x26 => if offer then some .yield else none
  | 0x27 => some .finish
  | _ => none

/-- The results of slot L that no memory gives. -/
def slotL (b : Nat) (c : DspCtx) : List Res :=
  match fLop b with
  | 0x10 => [⟨1, (sForm b c).1, fImm21 b⟩]
  | 0x11 => [⟨1, (sForm b c).1, wrap32 ((sForm b c).2 + fImm21 b)⟩]
  | 0x12 => movr b c
  | 0x21 => [⟨1, .p (fPk b), ((c.pc + 3) % 4096 : Nat)⟩]
  | 0x23 => loopRes b c
  | 0x24 => loopRes b c
  | _ => posts b c ++ staqV b c

/-! ### Loops (R215) -/

/-- Whether loop `n` is active and ends within `d` bundles after `pc`. -/
def loopEndsIn (c : DspCtx) (n d : Nat) : Bool :=
  bit c.sr (5 + n) && decide (c.pc ≤ c.le.getD n 0) && decide (c.le.getD n 0 ≤ c.pc + d)

/-- A taken jump here would break a loop. -/
def loopOrder (c : DspCtx) : Bool := loopEndsIn c 0 2 || loopEndsIn c 1 2

/-- The bundle after this one without a jump, and what ending or repeating a loop changes. Loop 1 is tested
first. -/
def loopNext (c : DspCtx) : Nat × List Res :=
  let at1 := loopEndsIn c 1 0
  let at0 := loopEndsIn c 0 0
  let lc := fun n => (c.lc.getD n 0).toNat
  if at1 ∧ 1 < lc 1 then (c.ls.getD 1 0, [⟨1, .lc 1, (lc 1 - 1 : Nat)⟩])
  else
    let end1 : List Res := if at1 then [⟨1, .srBit 6, 0⟩] else []
    if at0 ∧ 1 < lc 0 then (c.ls.getD 0 0, end1 ++ [⟨1, .lc 0, (lc 0 - 1 : Nat)⟩])
    else ((c.pc + 1) % 4096, end1 ++ (if at0 then [⟨1, .srBit 5, 0⟩] else []))

/-! ### Landing (R216) -/

/-- Put a value into a register. -/
def putReg (c : DspCtx) (r : Dest) (v : Int) : DspCtx :=
  let w : Word := BitVec.ofInt 32 v
  match r with
  | .d i => { c with d := c.d.set i w }
  | .acc i => { c with acc := c.acc.set i v }
  | .p i => { c with p := c.p.set i w }
  | .n i => { c with n := c.n.set i w }
  | .l i => { c with l := c.l.set i w }
  | .ls i => { c with ls := c.ls.set i v.toNat }
  | .le i => { c with le := c.le.set i v.toNat }
  | .lc i => { c with lc := c.lc.set i w }
  | .srBit i => { c with sr := setBit c.sr i (v == 1) }
  | .spc => { c with spc := v.toNat }
  | .ssr => { c with ssr := v.toNat }

/-- Results of one bundle that land in one register together with different values: which is kept the spec
leaves open, so each takes the free value `free` gives (notes/assumptions/22.md). -/
def settleTies (free : Nat → Nat) (rs : List Res) : List Res :=
  rs.zipIdx.map fun e =>
    if rs.any (fun r => r.lat == e.1.lat && r.dest == e.1.dest && r.val != e.1.val) then
      let j := (rs.findIdx? (fun r => r.lat == e.1.lat && r.dest == e.1.dest)).getD e.2
      { e.1 with val := match e.1.dest with
        | .srBit _ => ((free j % 2 : Nat) : Int)
        | .ls _ => ((free j % 4096 : Nat) : Int)
        | .le _ => ((free j % 4096 : Nat) : Int)
        | _ => signed 32 (free j) }
    else e.1

/-- Results due by bundle `t` land, in the order of their issue. -/
def landDue (t : Nat) (l : List Landing) (c : DspCtx) : DspCtx × List Landing :=
  ((l.filter (fun e => decide (e.at_ ≤ t))).foldl (fun c e => putReg c e.dest e.val) c,
   l.filter (fun e => decide (t < e.at_)))

/-- Every result in flight lands (R220). -/
def landAll (l : List Landing) (c : DspCtx) : DspCtx :=
  l.foldl (fun c e => putReg c e.dest e.val) c

/-- MAC-class results are chained on at once (Table 9-7). -/
def chain (rs : List Res) (c : DspCtx) : DspCtx :=
  rs.foldl (fun c r => match r.dest with
    | .acc i => { c with accNew := c.accNew.set i r.val }
    | _ => c) c

/-! ### Static checks (R219, R229) -/

/-- Whether a bundle reads or writes a register: the first two bundles of a handler must not. -/
def usesRegs (b : Nat) : Bool :=
  fMop b != 0 || !([0x00, 0x26, 0x28, 0x29].contains (fLop b) || (fLop b == 0x20 && fDa b == 0))

/-- Whether a bundle's control target lies in the program. -/
def targetOk (count i b : Nat) : Bool :=
  if fLop b = 0x20 ∨ fLop b = 0x21 then
    decide (0 ≤ (i : Int) + fOffset b) && decide ((i : Int) + fOffset b < count)
  else if isLoop b then decide (i + fEnd b < count)
  else true

/-- Whether bundle `i` of a program passes the checks of DSP_LOAD; `at_` gives the bundles, `safe` is
INTERRUPT_SAFE. -/
def bundleOk (bs : List Nat) (entry : Nat) (safe : Bool) (i : Nat) : Bool :=
  let b := bs.getD i 0
  let inSlot := fun j => decide (j < i) && isJump (bs.getD j 0)
  let delayed := inSlot (i - 1) || inSlot (i - 2)
  let nop := b == 0 || b == 8
  let handlerSlot := fun j => decide (j < i) && (fLop (bs.getD j 0) == 0x25 || fLop (bs.getD j 0) == 0x27)
  legalBundle b && targetOk bs.length i b
    && !(delayed && (isJump b || isLoop b))
    && !(isJump b && decide (bs.length ≤ i + 2))
    && !(safe && (i == entry || i == entry + 1) && usesRegs b)
    && !(safe && (handlerSlot (i - 1) || handlerSlot (i - 2)) && !nop)

/-- The first bundle that fails, if any. -/
def firstBadBundle (bs : List Nat) (entry : Nat) (safe : Bool) : Option Nat :=
  (List.range bs.length).find? (fun i => !bundleOk bs entry safe i)

end Sys2Proof.Machine
end

