-- ==== Sys2Proof/Machine/Fabric.lean ====
section
/-! DEFINITION. Machine/Fabric.lean: the mesh, its faults and dampers, and the release registers of the
edge clock domains (R25–R44). -/

namespace Sys2Proof.Machine

/-! ### The mesh (R32, R44) -/

/-- The neighbour of a junction in direction 0 N, 1 E, 2 S, 3 W, if there is one. -/
def neighbour (n dir : Nat) : Option Nat :=
  match dir with
  | 0 => if 16 ≤ n then some (n - 16) else none
  | 1 => if n % 16 < 15 then some (n + 1) else none
  | 2 => if n < 240 then some (n + 16) else none
  | 3 => if 0 < n % 16 then some (n - 1) else none
  | _ => none

/-- The neighbours of a junction. -/
def neighbours (n : Nat) : List Nat := [0, 1, 2, 3].filterMap (neighbour n)

/-- The subsystem of a junction's endpoint (Table 2-5): fixed in the edge rows and columns, one of
those of its area where the table gives only the area. -/
def ownerOf (n : Nat) : Nat :=
  let r := n / 16
  let c := n % 16
  if c = 0 ∨ c = 15 then 0x07
  else if r = 0 then (if 3 ≤ c ∧ c ≤ 10 then 0x08 else if c = 11 ∨ c = 12 then 0x16 else 0x02)
  else if r = 1 then (if 2 ≤ c ∧ c ≤ 13 then 0x09 else 0x16)
  else if r = 14 then (if 3 ≤ c ∧ c ≤ 13 then 0x09 else 0x16)
  else if r = 15 then (if 3 ≤ c ∧ c ≤ 10 then 0x08 else if 11 ≤ c then 0x12 else if c = 2 then 0x16 else 0x00)
  else if n = 35 ∨ n = 220 then 0x09
  else if 4 ≤ c ∧ c ≤ 11 then
    [0x01, 0x0A, 0x0C, 0x0B, 0x04, 0x05, 0x11, 0x06].getD (Config.owner n % 8) 0
  else [0x0E, 0x10, 0x0F, 0x05].getD (Config.owner n % 4) 0

/-- Where an endpoint is served: its own junction, or the neighbour it moved to (R42). -/
def servedBy (s : State) (n : Nat) : Nat := Tbl.getD s.fab.rehomed n n

/-- The bit of LINK_RETIRED of a link: north at [7:6], east [5:4], south [3:2], west [1:0]. -/
def linkBit (dir link : Nat) : Nat := 2 * (3 - dir) + link

/-- Whether a link is retired. -/
def linkRetired (s : State) (n dir link : Nat) : Bool := bit (Tbl.getD s.fab.retired n 0) (linkBit dir link)

/-- Whether the connection out of `n` in a direction is lost: both links retired, or an end failed. -/
def connLost (s : State) (n dir : Nat) : Bool :=
  match neighbour n dir with
  | none => true
  | some m => (linkRetired s n dir 0 && linkRetired s n dir 1) || s.fab.failed.contains n || s.fab.failed.contains m

/-- An endpoint has no route: the junction serving it failed, or no connection leads into it or none
out of it (R43). -/
def noRoute (s : State) (e : Nat) : Bool :=
  let j := servedBy s e
  s.fab.failed.contains j
    || [0, 1, 2, 3].all (connLost s j)
    || [0, 1, 2, 3].all (fun d => match neighbour j d with
        | some m => connLost s m ((d + 2) % 4)
        | none => true)

/-- Endpoints that a fault has left without a route raise FAB_UNREACHABLE (R43). -/
def markUnreachable (s : State) : State :=
  let new := (List.range 256).filter fun e => noRoute s e && !s.fab.cut.contains e
  new.foldl (fun s e => raise Ev.FAB_UNREACHABLE 0 (leN e 1 ++ leN (ownerOf e) 1) s)
    { s with fab.cut := s.fab.cut ++ new }

/-- The Hearth starts computing detours, unless route-around is off (R41). -/
def startDetour (s : State) : State :=
  if bit (rgRaw s R.FAB_CTRL) 0 then
    { s with fab.faultAt := some (s.fab.faultAt.getD s.clock.cycles) }
  else s

/-- FAB_CTRL.HOP_RETRY_MAX, 0 treated as 1 (Table 2-7). -/
def hopRetryMax (s : State) : Nat := max 1 (rgBits s R.FAB_CTRL 7 4)

/-- FAB_LINK_FAULT (R36, R40, R41): the link is retired; a CRC fault has used up its retries first,
counted at the junction that received them. -/
def fabLinkFault (n dir link cause : Nat) (s : State) : State :=
  match neighbour n dir with
  | none => s
  | some m =>
    if 256 ≤ n ∨ 2 ≤ link ∨ linkRetired s n dir link then s
    else
      let s := if cause = 0 then bumpBy (winKey R.FAB_JN_HOP_RETRY m) (hopRetryMax s) s else s
      let s := { s with fab.retired := Tbl.upd s.fab.retired n 0 (fun b => setBit b (linkBit dir link) true) }
      let s := bump R.FAB_LINK_FAULTS s
      let s := raise Ev.FAB_LINK_FAULT 0 (leN n 1 ++ leN dir 1 ++ leN link 1 ++ leN cause 1) s
      if connLost s n dir then markUnreachable (startDetour s) else s

/-- FAB_LINK_FAULT (R40). -/
def execFabLinkFault (junction dir link cause : Nat) (s : State) : Out := .next (fabLinkFault junction dir link cause s)

/-- FAB_JUNCTION_FAULT (R42): the endpoint moves to a neighbour's alternate port; an endpoint that had
moved to the failed junction, or whose alternate host has failed, has no route (R43). -/
def fabJunctionFault (n : Nat) (s : State) : State :=
  if 256 ≤ n ∨ s.fab.failed.contains n then s
  else
    let ns := neighbours n
    let h := ns.getD (Config.altNeighbour n % ns.length) n
    let s := { s with fab.failed := s.fab.failed ++ [n], fab.rehomed := Tbl.put s.fab.rehomed n h }
    let s := raise Ev.FAB_JUNCTION_FAULT 0 (leN n 1 ++ leN h 1) s
    markUnreachable (startDetour s)

/-- FAB_JUNCTION_FAULT (R42). -/
def execFabJunctionFault (junction : Nat) (s : State) : Out := .next (fabJunctionFault junction s)

/-- FAB_REROUTE_DONE (R41): every table is loaded, `ns` after the fault. -/
def fabRerouteDone (junctions ns : Nat) (s : State) : State :=
  match s.fab.faultAt with
  | none => s
  | some t =>
    let s := tickTo (t + nsCycles ns) s
    let s := { s with fab.faultAt := none, fab.detours := true }
    raiseUnless R.FAB_EVENT_MASK 2 Ev.FAB_REROUTE_DONE 0 (leN junctions 4 ++ leN ns 4)
      (bumpBy R.FAB_REROUTES junctions s)

/-- FAB_REROUTE_DONE (R41). -/
def execFabRerouteDone (junctions ns : Nat) (s : State) : Out := .next (fabRerouteDone junctions ns s)

/-! ### Dampers (R38, R39) -/

/-- A damper is asserted on an endpoint and VC. -/
def assertDamper (junction vc : Nat) (s : State) : State :=
  { s with fab.dampers := match Tbl.get? s.fab.dampers (4 * junction + vc) with
      | some d => Tbl.put s.fab.dampers (4 * junction + vc) { d with count := d.count + 1 }
      | none => Tbl.put s.fab.dampers (4 * junction + vc) { since := s.clock.cycles } }

/-- A damper is released; the time it stood is counted (FAB_JN_DAMPED_VC). -/
def releaseDamper (junction vc : Nat) (s : State) : State :=
  match Tbl.get? s.fab.dampers (4 * junction + vc) with
  | none => s
  | some d =>
    if 1 < d.count then { s with fab.dampers := Tbl.put s.fab.dampers (4 * junction + vc) { d with count := d.count - 1 } }
    else bumpBy (winKey (R.FAB_JN_DAMPED_VC + 8 * vc) junction) (cyclesNs (s.clock.cycles - d.since))
      { s with fab.dampers := Tbl.del s.fab.dampers (4 * junction + vc) }

/-- FAB_DAMPER_LONG (R39): a damper has stood longer than FAB_DAMPER_LIMIT; raised once for it. -/
def fabDamperLong (junction vc : Nat) (s : State) : State :=
  match Tbl.get? s.fab.dampers (4 * junction + vc) with
  | none => s
  | some d =>
    if d.raised then s
    else
      let limit := rgBits s R.FAB_DAMPER_LIMIT 15 0
      let s := tickTo (d.since + usCycles limit + 1) s
      let s := { s with fab.dampers := Tbl.put s.fab.dampers (4 * junction + vc) { d with raised := true } }
      raiseUnless R.FAB_EVENT_MASK 1 Ev.FAB_DAMPER_LONG 0
        (leN junction 1 ++ leN vc 1 ++ leN 0 2 ++ leN (cyclesUs (s.clock.cycles - d.since)) 4) s

/-- FAB_DAMPER_LONG (R39). -/
def execFabDamperLong (junction vc : Nat) (s : State) : Out := .next (fabDamperLong junction vc s)

/-! ### Release registers (R25–R28) -/

/-- An entry is placed for an edge domain. -/
def placeRelease (edge : Nat) (e : RelEntry) (s : State) : State :=
  { s with fab.release := Tbl.upd s.fab.release edge [] (· ++ [e]) }

/-- Entries of an edge domain are flushed (R29: by the owner's clock-fault handling). -/
def flushRelease (edge : Nat) (s : State) : State :=
  { s with fab.release := Tbl.del s.fab.release edge }

/-- A deadline miss is counted; the first of an edge domain in a 100 ms window raises the event (R27).
`reason` 0 LATE, 1 NOT_LOADED, 2 COLLIDE. -/
def deadlineMiss (edge user reason lateNs instant : Nat) (s : State) : State :=
  let s := bump (winKey R.FAB_EDGE_MISS edge) (bump R.FAB_DEADLINE_MISS s)
  let s := setRg (winKey R.FAB_EDGE_LAST_MISS edge) (nowShort s).toNat s
  let sumKey := R.FAB_MISS_SUM + 4 * (edge / 32)
  let s := setRg sumKey (setBit (rgRaw s sumKey) (edge % 32) true) s
  let fresh := match Tbl.get? s.fab.missAt edge with
    | some t => decide (t + msCycles 100 ≤ s.clock.cycles)
    | none => true
  if fresh then
    raiseUnless R.FAB_EVENT_MASK 0 Ev.DEADLINE_MISS 0
      (leN edge 1 ++ leN user 1 ++ leN reason 1 ++ leN 0 1 ++ leN lateNs 4 ++ leN (shortOf instant) 8)
      { s with fab.missAt := Tbl.put s.fab.missAt edge s.clock.cycles }
  else s

end Sys2Proof.Machine
end

