-- ==== Sys2Proof/Machine/Fuses.lean ====
section
/-! DEFINITION. Machine/Fuses.lean: the fuse store, the boot flash directory and the checks of an
image (R86–R89, R94). -/

namespace Sys2Proof.Machine

/-! ### Fuse records (Table 4-10) -/

/-- Bytes per generation of a record type, header included. -/
def recBytes : Nat → Nat
  | 1 => 64 | 2 => 256 | 3 => 1024 | 4 => 64 | 5 => 128 | 6 => 32 | 7 => 64 | _ => 0

/-- The generations used of a record type. -/
def recGens (s : State) (t : Nat) : List FuseGen := Tbl.getD s.fuses.recs t []

/-- The highest valid generation of a list, counting from `i`. -/
def lastOk : List FuseGen → Nat → Option (Nat × List Byte)
  | [], _ => none
  | g :: gs, i =>
    match lastOk gs (i + 1) with
    | some r => some r
    | none => if g.ok then some (i, g.payload) else none

/-- The generation in force: the highest that is valid (R94). -/
def inForce (s : State) (t : Nat) : Option (Nat × List Byte) := lastOk (recGens s t) 0

/-- The payload in force; an absent record has all fields zero (R94). -/
def recPayload (s : State) (t : Nat) : List Byte := ((inForce s t).map Prod.snd).getD []

/-- The value of an anti-rollback counter, by image type 1–3 (R89). -/
def arbCounter (s : State) (t : Nat) : Nat := s.fuses.arb.getD (t - 1) 0

/-- A policy bit (Table 4-10, record 0x06). -/
def policyBit (s : State) (n : Nat) : Bool := bit (u8 (recPayload s 6) 0) n

/-- BOOT_SRC of the strap record (R85). -/
def bootSrc (s : State) : Nat := u8 (recPayload s 1) 0

/-- The privilege a port takes at boot (R63): the strap record's, or the default of Table 3-1. -/
def strapPriv (s : State) (p : Nat) : Nat :=
  let dflt := if p = 0 ∨ p = 3 then 2 else 1
  match inForce s 1 with
  | none => dflt
  | some (_, b) => let v := bits (u8 b 1) (2 * p + 1) (2 * p); if v = 3 then dflt else v

/-! ### The flash directory (R87) -/

/-- The valid directory copy with the higher SEQ. -/
def activeDir (f : Flash) : DirCopy :=
  if f.copy0.ok && (!f.copy1.ok || decide (f.copy1.seq ≤ f.copy0.seq)) then f.copy0 else f.copy1

/-- Rewrite the copy that is not in use with the next SEQ (R87). -/
def rewriteDir (g : DirCopy → DirCopy) (s : State) : State :=
  let d := activeDir s.flash
  let new := { g d with ok := true, seq := d.seq + 1 }
  if s.flash.copy0.ok && (!s.flash.copy1.ok || decide (s.flash.copy1.seq ≤ s.flash.copy0.seq)) then
    { s with flash.copy1 := new }
  else { s with flash.copy0 := new }

/-! ### Images (Table 4-6, R88) -/

/-- The image of a slot and type; slot 2 is DRAM staging. -/
def imageOf (s : State) (idx : Nat) : Image :=
  if idx / 4 = 2 then Tbl.getD s.boot.staging idx {} else Tbl.getD s.flash.images idx {}

/-- Put an image into a slot or staging. -/
def putImage (idx : Nat) (im : Image) (s : State) : State :=
  if idx / 4 = 2 then { s with boot.staging := Tbl.put s.boot.staging idx im }
  else { s with flash.images := Tbl.put s.flash.images idx im }

/-- Largest payload per type (Table 4-1). -/
def payloadLimit : Nat → Nat
  | 2 => 32 * 1048576 - 8192
  | _ => 8 * 1048576 - 8192

def imgVersion (b : List Byte) : Nat := u32 b 8
def imgSvn (b : List Byte) : Nat := u32 b 12
def imgPayloadLen (b : List Byte) : Nat := u32 b 16
def imgPayload (b : List Byte) : List Byte := slice b 8192 (imgPayloadLen b)

/-- The root key hash of a generation of record 0x04: 48 bytes, where the generation is valid. -/
def rootHash (s : State) (gen : Nat) : Option (List Byte) :=
  match (recGens s 4)[gen]? with
  | some g => if g.ok then some (g.payload.take 48) else none
  | none => none

/-- The eight checks of R88, in order: which hold. -/
def imageChecks (s : State) (type : Nat) (b : List Byte) : List Bool :=
  let rootGen := u16 b 6
  [ decide (8192 ≤ b.length) && u32 b 0 == 0x5548494D && u8 b 4 == type && u8 b 5 == 1
      && decide (imgPayloadLen b ≤ payloadLimit type)
  , Config.sha384 (imgPayload b) == slice b 32 48
  , rootHash s rootGen == some (Config.sha384 (slice b 80 97 ++ slice b 184 2592))
  , decide (u8 (recPayload s 6) 1 ≤ rootGen)
  , Config.ecdsaVerify (slice b 80 97) (slice b 0 2776) (slice b 2776 96)
  , Config.mldsaVerify (slice b 184 2592) (slice b 0 2776) (slice b 2872 4627)
  , decide (arbCounter s type ≤ imgSvn b)
  , !bit (u32 b 20) 0 || policyBit s 3 ]

/-- The number of the first check that fails, 0 where all hold. -/
def firstFalse : List Bool → Nat → Nat
  | [], _ => 0
  | b :: t, n => if b then firstFalse t (n + 1) else n

/-- The cause that R88 reports, 0 for an accepted image. -/
def imageCause (s : State) (type : Nat) (b : List Byte) : Nat := firstFalse (imageChecks s type b) 1

/-- An image is rejected: OTP_VERIFY_FAIL counts it and OTP_SAFE_DETAIL takes the cause (R88). -/
def rejectImage (cause : Nat) (s : State) : State :=
  bump R.OTP_VERIFY_FAIL { s with boot.safeDetail := cause }

/-- The stepping byte of a tested-set entry: DEV_IDENT[15:8], 0x21 for B1 (Table 0-6). -/
def steppingByte : Nat := 0x21

/-- The tuple of stepping and the three versions is in a tested-set list (R90). -/
def tupleTested (entries : List (List Byte)) (v : Nat → Nat) : Bool :=
  entries.any fun e => u8 e 0 == steppingByte && u32 e 4 == v 1 && u32 e 8 == v 2 && u32 e 12 == v 3

/-- Raise an anti-rollback counter, never lower it (R89). -/
def raiseArb (t v : Nat) (s : State) : State :=
  if arbCounter s t < min v 64 then
    bump R.OTP_PROGRAM_OPS { s with fuses.arb := s.fuses.arb.set (t - 1) (min v 64) }
  else s

end Sys2Proof.Machine
end

