-- ==== Sys2Proof/Machine/SramOps.lean ====
section
/-! DEFINITION. Machine/SramOps.lean: SRAM banks, partitions, SECDED words and spare rows (R117–R122). -/

namespace Sys2Proof.Machine

/-- The partition of a bank at reset: the partitions of Table 6-1 take the banks in the order of their
codes (notes/assumptions/15.md). -/
def partAtReset (b : Nat) : Nat :=
  if b < 256 then 0 else if b < 288 then 1 else if b < 544 then 2 else if b < 816 then 3
  else if b < 1200 then 4 else if b < 1328 then 5 else if b < 1392 then 6 else if b < 1440 then 7
  else if b < 1504 then 8 else 9

/-- The partition a bank belongs to. -/
def partOf (s : State) (b : Nat) : Nat := Tbl.getD s.sram.part b (partAtReset b)

/-- Default banks of a partition (Table 6-1). -/
def partDefault : Nat → Nat
  | 0 => 256 | 1 => 32 | 2 => 256 | 3 => 272 | 4 => 384 | 5 => 128 | 6 => 64 | 7 => 48 | 8 => 64 | 9 => 32 | _ => 0

/-- Banks that a partition holds (MEM_PART_BANKS, MEM_POOL_FREE). -/
def partBanks (s : State) (p : Nat) : Nat :=
  partDefault p + (s.sram.part.filter (fun e => e.2 == p && partAtReset e.1 != p)).length
    - (s.sram.part.filter (fun e => e.2 != p && partAtReset e.1 == p)).length

/-! ### The packet buffer (R165) -/

/-- Cells that received packets of an interface hold: those in jitter buffers, and those that wait for room in their flue. -/
def rxCellsOf (s : State) (iface : Nat) : Nat :=
  Tbl.sum s.audio.jitter (fun j => ((j.pkts.filter fun p => p.iface == iface).map JbPkt.cells).foldl (· + ·) 0)
    + ((s.pkt.handoffs.filter fun h => h.iface == iface).map Handoff.cells).foldl (· + ·) 0

/-- Cells that received packets of every interface hold. -/
def rxCellsAll (s : State) : Nat :=
  Tbl.sum s.audio.jitter (fun j => (j.pkts.map JbPkt.cells).foldl (· + ·) 0) + (s.pkt.handoffs.map Handoff.cells).foldl (· + ·) 0

/-- Cells that egress pacing holds. -/
def egressCells (s : State) : Nat := Tbl.sum s.video.fwd fun f => (f.queue.map fun p => (p.bytes + 255) / 256).foldl (· + ·) 0

/-- Cells of the buffer: 512 in each of its banks. -/
def bufCells (s : State) : Nat := 512 * partBanks s 2

/-- Pooled partitions (Table 6-1). -/
def pooled (p : Nat) : Bool := p == 2 || p == 5 || p == 7 || p == 8 || p == 9 || p == 15

/-- Minimum banks and bank step (Table 6-1). -/
def partMin : Nat → Nat
  | 2 => 128 | 5 => 64 | 7 => 32 | 8 => 32 | 9 => 16 | _ => 0
def partStep (p : Nat) : Nat := if p = 5 then 8 else 1

/-- The group of a bank (R117). -/
def groupOf (b : Nat) : Nat := b / 64

/-- Spare rows left in a bank and in a group. -/
def bankSpares (s : State) (b : Nat) : Nat := 8 - Tbl.getD s.sram.spares b 0
def groupSpares (s : State) (g : Nat) : Nat :=
  512 - ((s.sram.spares.filter (fun e => groupOf e.1 == g)).map Prod.snd).foldl (· + ·) 0

/-- A failing row is copied to a spare row and redirected (R122). -/
def spareRow (b row : Nat) (s : State) : State :=
  if bankSpares s b = 0 then s
  else
    let s := { s with sram.spares := Tbl.upd s.sram.spares b 0 (· + 1)
                      sram.rowErrs := Tbl.del s.sram.rowErrs (256 * b + row) }
    let s := raiseUnless R.MEM_EVENT_MASK 0 Ev.SRAM_ROW_SPARED 0
      (leN b 2 ++ leN row 1 ++ leN (bankSpares s b) 1) (bump R.MEM_ROWS_SPARED s)
    let g := groupOf b
    if groupSpares s g ≤ 16 ∧ ¬ s.sram.lowRaised.contains g then
      raise Ev.SRAM_SPARES_LOW 0 (leN g 1 ++ leN (groupSpares s g) 2) { s with sram.lowRaised := s.sram.lowRaised ++ [g] }
    else s

/-- 24 h in cycles. -/
def dayCycles : Nat := msCycles 86400000

/-- A row's corrected errors after `n` more and when their 24 h began (R122). -/
def rowErrsAfter (b row n : Nat) (s : State) : Nat × Nat :=
  let e := Tbl.getD s.sram.rowErrs (256 * b + row) (0, s.clock.cycles)
  if e.2 + dayCycles < s.clock.cycles then (n, s.clock.cycles) else (e.1 + n, e.2)

/-- `n` corrected errors of a row: counted, and at the threshold within 24 h the row is spared (R120,
R122). -/
def correctRow (b row n : Nat) (s : State) : State :=
  if n = 0 then s
  else
    let key := R.MEM_G_CORRECTED + 0x10 * groupOf b
    let s := setRg key (satAdd 32 (rgRaw s key) n) (bumpBy R.MEM_CORRECTED n s)
    let e := rowErrsAfter b row n s
    let s := { s with sram.rowErrs := Tbl.put s.sram.rowErrs (256 * b + row) e }
    if rgBits s R.MEM_CTRL 19 16 ≤ e.1 then spareRow b row s else s

/-- An uncorrectable word: poisoned, counted, reported, its row spared (R120, R122). -/
def poisonWord (b offset : Nat) (s : State) : State :=
  let o := offset / 8 * 8
  let a := 131072 * b + o
  let row := o / 512
  let s := { s with sram.poison := if s.sram.poison.contains a then s.sram.poison else s.sram.poison ++ [a]
                    sram.ueSeen := true }
  let s := setRg R.MEM_LAST_UE (b + 65536 * row) (bump R.MEM_UNCORRECTABLE s)
  let s := raise Ev.SRAM_UNCORRECTABLE 0 (leN b 2 ++ leN row 1 ++ leN (partOf s b) 1 ++ leN o 4) s
  spareRow b row s

end Sys2Proof.Machine
end

