-- ==== Sys2Proof/Machine/Flues.lean ====
section
/-! DEFINITION. Machine/Flues.lean: the flue operations at a bank's serialisation point (R96–R110) and the
flue commands (R97, R98, R116). -/

namespace Sys2Proof.Machine

/-! ### Flues and banks -/

/-- Flue `i`: listed, or a system flue as the Hearth created it at boot (R97; notes/assumptions/14.md). -/
def flueOf (s : State) (i : Nat) : Option Flue :=
  match Tbl.get? s.flues i with
  | some f => some f
  | none => if i < 4096 then some {} else none

/-- Put flue `i`. -/
def putFlue (i : Nat) (f : Flue) (s : State) : State := { s with flues := Tbl.put s.flues i f }

/-- The depth of a flue in items. -/
def Flue.depth (f : Flue) : Nat := 2 ^ f.depthLog

/-- Occupancy: TAIL − HEAD. -/
def Flue.occ (f : Flue) : Nat := f.items.length

/-- READ and TAIL modulo the depth. -/
def Flue.read (f : Flue) : Nat := (f.head + f.consumed) % f.depth
def Flue.tail (f : Flue) : Nat := (f.head + f.occ) % f.depth

/-- The bank of a flue (R96). -/
def bankOf (i : Nat) : Nat := i / 8192

/-- Items that the flues of a bank reserve, the 4,096 system flues of bank 0 among them. -/
def bankUsed (s : State) (b : Nat) : Nat :=
  let host := (s.flues.filter (fun e => bankOf e.1 == b && decide (4096 ≤ e.1))).map (fun e => e.2.depth)
  host.foldl (· + ·) (if b = 0 then 4096 * 8 else 0)

/-- Items of a bank not reserved (FLU_BANK_FREE): an eighth of the flue-item partition, 4,096 items a
128 KiB bank (R96, R119), less those reserved. -/
def bankFree (s : State) (b : Nat) : Nat := partBanks s 5 / 8 * 4096 - bankUsed s b

/-- The VC number of the bank's fabric damper, and the junction it stands at (Table 2-5). -/
def bankJunction (b : Nat) : Nat := Config.fluJunction b % 256

/-! ### Item headers (Table 5-2) -/

def itemFirst (it : Item) : Bool := bit it.hdr.toNat 62
def itemLast (it : Item) : Bool := bit it.hdr.toNat 61
def itemDropped (it : Item) : Bool := bit it.hdr.toNat 60
/-- The packet length a FIRST item declares; 0 means 256. -/
def itemCount (it : Item) : Nat := let n := bits it.hdr.toNat 55 48; if n = 0 then 256 else n
/-- Every stored item has VALID set. -/
def itemValid (it : Item) : Item := { it with hdr := BitVec.ofNat 64 (setBit it.hdr.toNat 63 true) }

/-- The DROPPED item that closes a packet at a position; its META is open (notes/assumptions/3.md). -/
def droppedItem (pos meta_ : Nat) : Item :=
  { hdr := BitVec.ofNat 64 (2 ^ 63 + 2 ^ 61 + 2 ^ 60 + (pos % 256) * 2 ^ 48 + meta_ % 2 ^ 32) }

/-! ### Visibility (R103) -/

/-- The items of the packet that starts a list, up to and with its LAST item, and whether LAST is there. -/
def packetHead : List Item → Nat × Bool
  | [] => (0, false)
  | it :: t => if (itemLast it) then (1, true) else let r := packetHead t; (r.1 + 1, r.2)

/-- The item at READ, if POP sees it: inside a packet as soon as it is stored, else once its packet is
complete or, with CT, once min(CT, ITEMS) items are stored (R103). -/
def Flue.visible (f : Flue) : Option Item :=
  match f.items.drop f.consumed with
  | [] => none
  | it :: t =>
    let (n, done) := packetHead (it :: t)
    if f.inPacket || done || (f.ct != 0 && decide (min f.ct (itemCount it) ≤ n)) then some it else none

/-- How many packets POP could start to read. -/
def visiblePackets (ct : Nat) : Nat → List Item → Nat
  | 0, _ => 0
  | _, [] => 0
  | fuel + 1, it :: t =>
    let (n, done) := packetHead (it :: t)
    if done then 1 + visiblePackets ct fuel ((it :: t).drop n)
    else if ct ≠ 0 ∧ min ct (itemCount it) ≤ n then 1 else 0

/-- Visible packets not yet begun. -/
def Flue.packets (f : Flue) : Nat :=
  let rest := f.items.drop f.consumed
  let rest := if f.inPacket then rest.drop (packetHead rest).1 else rest
  visiblePackets f.ct rest.length rest

/-! ### Dampers (R107, R109) -/

/-- Release the fabric damper that the flue's bank asserts on its account. -/
def unstage (i : Nat) (f : Flue) (s : State) : State :=
  if f.staged then putFlue i { f with staged := false } (releaseDamper (bankJunction (bankOf i)) f.vc s)
  else putFlue i f s

/-- The damper follows occupancy: on at HIGH, off at LOW or below (R107). -/
def settleDamper (i : Nat) (f : Flue) (s : State) : State :=
  if f.high ≤ f.occ then putFlue i { f with damped := true } s
  else if f.occ ≤ f.low then unstage i { f with damped := false } s
  else putFlue i f s

/-- Put a flue whose occupancy has changed: damper and highest occupancy follow. -/
def storeFlue (i : Nat) (f : Flue) (s : State) : State :=
  settleDamper i f (trackMax (winKey R.FLU_W_MAX_OCC i) f.occ s)

/-! ### The duplicated pointers (R106) -/

/-- The first copies: HEAD, READ, TAIL. -/
def Flue.copyA (f : Flue) : List Nat := [f.head, f.read, f.tail]

/-- Whether the second copies that an operation finds differ from the first; none given: they agree. -/
def Flue.upset (f : Flue) (copyB : List Nat) : Bool := copyB != [] && copyB != f.copyA

/-- The bank resets a flue whose pointer copies differ (R106). -/
def corruptReset (i : Nat) (f : Flue) (copyB : List Nat) (s : State) : State :=
  let detail := (f.copyA ++ copyB).flatMap (fun x => leN x 2) ++ leN f.occ 4
  let s := putFlue i { f with
      phase := .resetting, items := [], head := 0, consumed := 0, opener := none, skipping := false
      closed := f.closed ++ f.opener.toList, inPacket := false, headIn := false, lost := true, damped := true
      resetAt := s.clock.cycles + usCycles 2, corrupts := f.corrupts + 1 } s
  raiseUnless R.FLU_EVENT_MASK 0 Ev.FLUE_CORRUPT (mkH 0x12 i) detail (bump R.FLU_CORRUPT_RESETS s)

/-- FLUE_RESET_COMPLETE (R106). -/
def flueResetComplete (i : Nat) (s : State) : State :=
  match flueOf s i with
  | none => s
  | some f =>
    if f.phase ≠ .resetting then s
    else unstage i { f with phase := if f.deleter.isSome then .deleting else .active, damped := false } (tickTo f.resetAt s)

/-- An operation reaches the bank: it is counted, and the copies are compared; on a mismatch the flue is
reset and the operation gets what a resetting flue gives. -/
def atBank (i : Nat) (copyB : List Nat) (op : Flue → State → State) (s : State) : State :=
  let s := bump (R.FLU_BANK_OPS + 0x40 * bankOf i) s
  match flueOf s i with
  | none => s
  | some f => if f.upset copyB then corruptReset i f copyB s else op f s

/-! ### PUSH and ABANDON (R99, R100, R104) -/

/-- A push is refused for want of room or of an open packet. -/
def rejectPush (s : State) : State := bump R.FLU_FULL_REJECT s

/-- A push refused by a full flue whose damper the producer ignores: the bank's staging fills and it
asserts a fabric damper on its own endpoint (R109). -/
def rejectFull (i : Nat) (f : Flue) (s : State) : State :=
  if f.damped && !f.staged then
    rejectPush (assertDamper (bankJunction (bankOf i)) f.vc (putFlue i { f with staged := true } s))
  else rejectPush s

/-- A stored item is counted. -/
def countPush (i : Nat) (s : State) : State := bump (winKey R.FLU_W_PUSHES i) (bump R.FLU_PUSHES s)

/-- Whether a producer may push: registered, or any subsystem on a system flue. -/
def Flue.producerOk (f : Flue) (i p : Nat) : Bool := decide (i < 4096) || f.producers.contains p

/-- The push of a FIRST item. -/
def pushFirst (i p : Nat) (it : Item) (f : Flue) (s : State) : State :=
  match f.opener with
  | some q => if q = p then rejectPush s else bump R.FLU_OPEN_RETRY s
  | none =>
    if f.depth < f.occ + (itemCount it) then rejectFull i f s
    else
      countPush i (storeFlue i
        { f with items := f.items ++ [(itemValid it)], closed := f.closed.filter (· != p)
                 opener := if (itemLast it) then none else some p
                 openLen := (itemCount it), openGot := 1, openAt := s.clock.cycles } s)

/-- The push of a later item: refused unless its producer has the packet open; discarded while the
packet is being dropped (R104, R105). -/
def pushNext (i p : Nat) (it : Item) (f : Flue) (s : State) : State :=
  if f.opener ≠ some p ∨ f.openLen ≤ f.openGot then rejectPush s
  else
    let f := { f with opener := if (itemLast it) then none else some p, openGot := f.openGot + 1, openAt := s.clock.cycles }
    if f.skipping then countPush i (putFlue i { f with skipping := !(itemLast it) } s)
    else countPush i (storeFlue i { f with items := f.items ++ [(itemValid it)] } s)

/-- PUSH at the bank (R99, R100, R108). -/
def pushItem (i p : Nat) (it : Item) (f : Flue) (s : State) : State :=
  if ¬ f.producerOk i p then bump R.FLU_UNREG_PUSH s
  else if f.phase = .resetting then rejectPush s
  else if (itemFirst it) then pushFirst i p it f s
  else pushNext i p it f s

/-- Whether the open packet is visible to the consumer. -/
def Flue.openVisible (f : Flue) : Bool :=
  (f.inPacket && decide ((f.items.drop f.consumed).all (fun it => !(itemFirst it))))
    || (f.ct != 0 && decide (min f.ct f.openLen ≤ f.openGot))

/-- The open packet is closed (R104): a DROPPED item where it was visible, its items removed where it
was not. -/
def closePacket (i : Nat) (f : Flue) (s : State) : State :=
  match f.opener with
  | none => s
  | some p =>
    let s := bump R.FLU_DROP_REMAINDER s
    let f := { f with opener := none, closed := f.closed ++ [p] }
    if f.skipping then putFlue i { f with skipping := false } s
    else if f.openVisible then
      let (v, s) := takeFree s
      storeFlue i { f with items := f.items ++ [droppedItem f.openGot v] } s
    else storeFlue i { f with items := f.items.take (f.occ - f.openGot) } s

/-- FLUE_OPEN_TIMEOUT (R104). -/
def openTimeout (i : Nat) (s : State) : State :=
  match flueOf s i with
  | some f =>
    if f.opener.isSome then
      closePacket i f (tickTo (f.openAt + usCycles (rgBits s R.FLU_CTRL 15 0)) s)
    else s
  | none => s

/-! ### POP, PEEK and their kin (R101, R102, R105) -/

/-- The not-valid word (R101). -/
def Flue.notValid (f : Flue) : Nat :=
  2 ^ 62 * b2n f.lost + 2 ^ 61 * b2n f.inPacket + 2 ^ 60 * b2n (f.phase == .resetting)

/-- The flue after HEAD has moved past its first `n` items. -/
def Flue.moveHead (f : Flue) (n : Nat) : Flue :=
  { f with items := f.items.drop n, head := (f.head + n) % f.depth, consumed := f.consumed - n }

/-- READ moves past `n` items; without RETAIN, HEAD moves too. -/
def Flue.moveRead (f : Flue) (n : Nat) : Flue :=
  let f := { f with consumed := f.consumed + n }
  if f.retain then f else { f.moveHead f.consumed with headIn := f.inPacket }

/-- What a POP takes: the word and payload it returns, and the state after it. -/
def popFlue (i : Nat) (f : Flue) (s : State) : Item × State :=
  match (if f.phase = .resetting then none else f.visible) with
  | some it =>
    (it, bump R.FLU_POPS (storeFlue i ({ f with inPacket := !(itemLast it), lost := false }.moveRead 1) s))
  | none =>
    ({ hdr := BitVec.ofNat 64 f.notValid },
     bump R.FLU_EMPTY_POPS (putFlue i { f with lost := f.lost && f.phase == .resetting } s))

/-- Whether the consumer that issues an operation is the flue's. -/
def Flue.consumerOk (f : Flue) (i c : Nat) : Bool := decide (i < 4096) || f.consumer == some c

/-- PEEK: as POP, without moving a pointer. -/
def peekFlue (i : Nat) (f : Flue) (s : State) : State :=
  match (if f.phase = .resetting then none else f.visible) with
  | some it => emit (.item i it.hdr.toNat it.payload) s
  | none => emit (.item i f.notValid []) (bump R.FLU_EMPTY_POPS s)

/-- COMMIT (R102): HEAD := READ. -/
def commitFlue (i : Nat) (f : Flue) (s : State) : State :=
  if f.retain then storeFlue i { f.moveHead f.consumed with headIn := f.inPacket } s else s

/-- REWIND (R102): READ := HEAD. -/
def rewindFlue (i : Nat) (f : Flue) (s : State) : State :=
  if f.retain then putFlue i { f with consumed := 0, inPacket := f.headIn } s else s

/-- DROP_REMAINDER (R105): READ moves past the LAST item of the packet being read; what has not arrived
is discarded as it arrives. -/
def dropRemainder (i : Nat) (f : Flue) (s : State) : State :=
  if ¬ f.inPacket then s
  else
    let (n, done) := packetHead (f.items.drop f.consumed)
    storeFlue i ({ f with inPacket := false, skipping := !done }.moveRead n) s

/-! ### Commands -/

/-- A flue leaves: its index is free again, its items return to the bank (R116). -/
def freeFlue (i : Nat) (s : State) : State :=
  let s := match flueOf s i with
    | some f => unstage i f s
    | none => s
  leaveLeases (mkH 0x12 i) { s with flues := Tbl.del s.flues i }

/-- A FLUE_DELETE that waits completes once its flue is empty (R116). -/
def settleDelete (i : Nat) (s : State) : State :=
  match flueOf s i with
  | some f =>
    match f.deleter with
    | some (rs, tag) =>
      if f.items = [] ∧ f.phase ≠ .resetting then finishRunning rs tag St.OK 0 1 [] (freeFlue i s) else s
    | none => s
  | none => s

/-- The index a FLUE_CREATE takes: the one named, or the lowest free host flue (R16). -/
def newFlue (c : Cmd) (s : State) : Option Nat :=
  if hIdx c.handle = idxChoose then Tbl.lowestFree (s.flues.filter (fun e => decide (4096 ≤ e.1))) 4096 (65536 - 4096)
  else some (hIdx c.handle)

/-- FLUE_CREATE (R97, R98, R107, Table 5-5). -/
def flueCreatePlan (c : Cmd) (s : State) : Plan :=
  let p := c.params
  let idx := hIdx c.handle
  let d := u8 p 0
  let ff := u8 p 2
  let high := u16 p 4
  let low := u16 p 6
  { op := 0x1206, priv := 1, handleOk := handleNew 0x12 c.handle, touches := [c.handle]
    state := if idx = idxChoose then none
      else if idx < 4096 then some (wrongState 1)
      else if Tbl.has s.flues idx then some (wrongState 2) else none
    param := firstBad
      [ (decide (3 ≤ d) && decide (d ≤ 14), badParam 0)
      , (decide (ff < 8) && decide (1 ≤ bits ff 2 1), badParam 2)
      , (decide (high < 2 ^ d), badParam 4)
      , (decide (low < high), badParam 6) ]
    res := match newFlue c s with
      | none => some (noResource 0x21)
      | some i => if bankFree s (bankOf i) < 2 ^ d then some (noResource 0x20) else none
    run := fun s =>
      let i := (newFlue c s).getD 0
      let s := setRg (winKey R.FLU_W_PUSHES i) 0 (setRg (winKey R.FLU_W_MAX_OCC i) 0 s)
      .okWith (putFlue i { depthLog := d, ct := u8 p 1, retain := bit ff 0, vc := bits ff 2 1, high, low } s)
        (leN (mkH 0x12 i).toNat 4 ++ leN (2 ^ d) 4) }

/-- FLUE_CREATE (R98). -/
def execFlueCreate (c : Cmd) (s : State) : Out := .next (hostCmd 0x1206 flueCreatePlan c s)

/-- FLUE_DELETE (R97, R116). -/
def flueDeletePlan (c : Cmd) (s : State) : Plan :=
  let i := hIdx c.handle
  let f := (flueOf s i).getD {}
  { op := 0x1207, priv := 1, handleOk := handleIn s [0x12] c.handle, touches := [c.handle]
    state := if i < 4096 then some (wrongState 1)
      else if f.users ≠ [] then some (wrongState 3)
      else if f.deleter.isSome then some (wrongState (Config.detail 0x1207 0)) else none
    param := firstBad [(decide (u8 c.params 0 ≤ 1), badParam 0)]
    run := fun s =>
      if u8 c.params 0 = 1 ∨ (f.items = [] ∧ f.phase ≠ .resetting) then .ok (freeFlue i s)
      else .defer (putFlue i { f with
        deleter := some (c.rs, c.tag), phase := if f.phase = .resetting then .resetting else .deleting } s) }

/-- FLUE_DELETE (R116). -/
def execFlueDelete (c : Cmd) (s : State) : Out := .next (hostCmd 0x1207 flueDeletePlan c s)

/-- The FLUE_CREATE parameters of a flue. -/
def Flue.params (f : Flue) : List Byte :=
  leN f.depthLog 1 ++ leN f.ct 1 ++ leN (b2n f.retain + 2 * f.vc) 1 ++ leN 0 1 ++ leN f.high 2 ++ leN f.low 2

/-- FLUE_QUERY (R116); its parameter length is not given (notes/assumptions/12.md). -/
def flueQueryPlan (c : Cmd) (s : State) : Plan :=
  let i := hIdx c.handle
  { Plan.query 0x1208 false (handleIn s [0x12] c.handle) 0 none fun s =>
      let f := (flueOf s i).getD {}
      recordAnswer (f.params ++ leN f.occ 2 ++ leN f.head 2 ++ leN f.read 2 ++ leN f.tail 2
        ++ leN f.producers.length 1 ++ leN (b2n f.consumer.isSome) 1 ++ leN (b2n f.damped) 1 ++ leN 0 1
        ++ leN f.corrupts 4 ++ leN (rgRaw s (winKey R.FLU_W_PUSHES i)) 8)
    with len := none }

/-- FLUE_QUERY (R116). -/
def execFlueQuery (c : Cmd) (s : State) : Out := .next (hostCmd 0x1208 flueQueryPlan c s)

end Sys2Proof.Machine
end

