-- ==== Sys2Proof/Machine/DspOps.lean ====
section
/-! DEFINITION. Machine/DspOps.lean: cores, programs and tasks as the dispatcher and the stream port act on
them (R111–R115, R218–R228), and what follows a change of a flue. -/

namespace Sys2Proof.Machine

/-! ### Cores, tasks, programs -/

def coreOf (s : State) (k : Nat) : Core := Tbl.getD s.dsp.cores k {}
def modCore (k : Nat) (f : Core → Core) (s : State) : State :=
  { s with dsp.cores := Tbl.upd s.dsp.cores k {} f }
def taskOf (s : State) (t : Nat) : Option Task := Tbl.get? s.dsp.tasks t
def modTask (t : Nat) (f : Task → Task) (s : State) : State :=
  { s with dsp.tasks := Tbl.modify s.dsp.tasks t f }

/-- The handle of a task. -/
def taskH (t : Nat) : Word := mkH 5 t

/-- The cores of a target: core k, or the cores in service of grove g (R207). -/
def coresOf (s : State) (target : Nat) : List Nat :=
  if target < 0x8000 then [target]
  else ((List.range 17).map (fun c => (target - 0x8000) * 17 + c)).filter (fun k => (engineOf s 0x0C k).state == .inService)

/-- The grove of a target. -/
def groveOf (target : Nat) : Nat := if target < 0x8000 then target / 17 else target - 0x8000

/-- The mode of a level (R113); 3 is treated as 2. -/
def levelMode (s : State) (level : Nat) : Nat := min 2 (rgBits s R.DSX_LEVEL_MODE (2 * level + 1) (2 * level))

/-- 64-bit little-endian words of a block. -/
def words64 (b : List Byte) (n : Nat) : List DWord := (List.range n).map fun i => BitVec.ofNat 64 (uN b (8 * i) 8)

/-- The program that an image holds (Table 9-10). -/
def parseProgram (b : List Byte) : Program :=
  { pflags := u8 b 5, bundles := words64 (b.drop 64) (u16 b 6), entry := u16 b 8, workAlign := u8 b 10
    const_ := slice b (64 + 8 * u16 b 6) (u32 b 12), stateBytes := u32 b 16, stateObj := u32 b 20
    workBytes := u32 b 24, version := u32 b 28 }

/-- What is wrong with an image (DSP_IMAGE_INVALID DETAIL): 0xFFFF for header, size or CRC, else the first bad
bundle. -/
def imageBad (b : List Byte) : Option Nat :=
  let n := u16 b 6
  let cb := u32 b 12
  let head := u32 b 0 == 0x55484450 && u8 b 4 == 1 && decide (1 ≤ n) && decide (n ≤ 4096) && decide (u16 b 8 < n)
    && decide (6 ≤ u8 b 10) && decide (u8 b 10 ≤ 12) && cb % 64 == 0 && decide (cb ≤ 65536)
    && u32 b 16 % 64 == 0 && u32 b 20 % 64 == 0 && u32 b 24 % 64 == 0
    && b.length == 64 + 8 * n + cb && crc32 (b.drop 64) == u32 b 32
  if ¬ head then some 0xFFFF
  else firstBadBundle ((parseProgram b).bundles.map BitVec.toNat) (u16 b 8) (bit (u8 b 5) 0)

/-- A library program (Table 9-11): its image is the HEARTH image's. -/
def libProgram (p : Nat) : Program :=
  { parseProgram (Config.libImage p) with stateObj := [1024, 64, 256].getD p 0 }

/-- Program `p`, if loaded. -/
def progOf (s : State) (p : Nat) : Option Program :=
  if p < 3 then some (libProgram p) else Tbl.get? s.dsp.programs p

/-- Whether a task is bound to a core or grove. -/
def Task.placed (t : Task) : Bool := t.state != .created

/-- Whether a task runs, or has begun and waits to resume. -/
def taskBusy (s : State) (i : Nat) (t : Task) : Bool :=
  let c := coreOf s t.core
  t.saved.isSome || c.task == some i || (c.under.bind Under.task) == some i

/-! ### Ready lists (R111) -/

/-- Whether a task's inputs, tick and outputs allow it to run. -/
def taskCan (s : State) (t : Task) : Bool :=
  let ins := (t.inputs.zip t.trigger).all fun e => match e.1.bind (flueOf s) with
    | some f => e.2 == 0 || decide (e.2 ≤ f.packets)
    | none => true
  let objs := t.objs == [] || decide (max 1 (t.trigger.getD 0 0) ≤ t.insIn.length - t.insTaken)
  let outs := t.outputs.all fun o => match o.bind (flueOf s) with
    | some f => !f.damped
    | none => true
  ins && objs && outs && (!bit t.tflags 0 || t.tick)

/-- Tasks ready in a grove and its cores (DSX_GRV_READY). -/
def groveDepth (s : State) (g : Nat) : Nat :=
  (Tbl.getD s.dsp.groveReady g []).length
    + (((List.range 17).map (fun c => (coreOf s (g * 17 + c)).ready.length)).foldl (· + ·) 0)

/-- A task enters its ready list. -/
def enterReady (i : Nat) (t : Task) (s : State) : State :=
  let s := modTask i (fun t => { t with ready := true, readyAt := s.clock.cycles }) s
  let g := groveOf t.target
  let s := if t.target < 0x8000 then
      let s := modCore t.core (fun c => { c with ready := c.ready ++ [i] }) s
      trackMax (winKey R.DSX_C_DEPTH_MAX t.core) (coreOf s t.core).ready.length s
    else { s with dsp.groveReady := Tbl.upd s.dsp.groveReady g [] (· ++ [i]) }
  trackMax (R.DSX_GRV_READY_MAX + 0x10 * g) (groveDepth s g) s

/-- A task becomes ready if it may (R111): once, and not while it runs. -/
def updateReady (i : Nat) (s : State) : State :=
  match taskOf s i with
  | none => s
  | some t => if t.state = .bound ∧ ¬ t.ready ∧ ¬ taskBusy s i t ∧ taskCan s t then enterReady i t s else s

/-- A flue has changed: tasks that read or feed it may become ready, and a FLUE_DELETE may end. -/
def flueChanged (i : Nat) (s : State) : State :=
  settleDelete i
    ((s.dsp.tasks.filter (fun e => e.2.inputs.contains (some i) || e.2.outputs.contains (some i))).foldl
      (fun s e => updateReady e.1 s) s)

/-! ### Captured pushes (R360) -/

/-- The items of the last packet of a flue. -/
def lastPacket (items : List Item) : List Item :=
  let n := (items.reverse.findIdx? itemFirst).getD 0
  items.drop (items.length - (n + 1))

/-- The payload bytes of a packet's items, in order. -/
def packetBytes (items : List Item) : List Byte :=
  items.flatMap fun it => it.payload.take (bits it.hdr.toNat 47 40)

/-- A packet has been committed to a flue: the flue tap sees it. -/
def tapFlue (i : Nat) (s : State) : State :=
  match flueOf s i with
  | none => s
  | some f =>
    let pkt := lastPacket f.items
    let b := packetBytes pkt
    match pkt with
    | [] => s
    | it :: _ => tap { rec_ := { kind := 4, point := 1, port := i, time := nowFrac s, meta_ := bits it.hdr.toNat 31 0
                                 origLen := b.length, payload := b } } s

/-! ### Stops -/

/-- The window's view of a stop (Table 9-19). -/
def noteStop (k kind cause : Nat) (s : State) : State :=
  modCore k (fun c => { c with stopCtx := c.ctx, stopKind := kind, stopTask := c.task.getD 0, stopCause := cause }) s

/-- A core leaves its present task: the interrupted code resumes at SPC with SR from SSR and what DSX wrote at
entry put back (R219), or the core is idle. -/
def leaveTask (k : Nat) (s : State) : State :=
  modCore k (fun c => match c.under with
    | some u =>
      { c with
        ctx := { c.ctx with sr := c.ctx.ssr, pc := c.ctx.spc, d := c.ctx.d.set 0 u.d0, p := c.ctx.p.take 4 ++ u.p47 }
        task := u.task, wins := u.wins, under := none, jump := none, atomRun := 0 }
    | none => { c with task := none, jump := none, land := [], atomRun := 0, wins := [{}, {}, {}] }) s

/-- Every input of a task is rewound to its last commit. -/
def rewindInputs (t : Task) (s : State) : State :=
  t.inputs.foldl (fun s o => match o with
    | some i => (match flueOf s i with
      | some f => flueChanged i (rewindFlue i f s)
      | none => s)
    | none => s) s

/-- The open output packets of a task are closed (R104). -/
def abandonOutputs (t : Task) (s : State) : State :=
  t.outputs.foldl (fun s o => match o with
    | some i => (match flueOf s i with
      | some f => if f.opener = some t.target then flueChanged i (closePacket i f s) else s
      | none => s)
    | none => s) s

/-! ### Programs and areas on a core (R209, R225) -/

def up64 (n : Nat) : Nat := (n + 63) / 64 * 64

/-- The lowest aligned place of `len` in `lo … hi − 1` clear of the used intervals
(notes/assumptions/23.md). -/
def firstFit (used : List (Nat × Nat)) (len align lo hi : Nat) : Option Nat :=
  let fits := fun a => decide (lo ≤ a) && decide (a + len ≤ hi)
    && used.all (fun u => decide (a + len ≤ u.1) || decide (u.1 + u.2 ≤ a))
  let cands := (lo :: used.map (fun u => u.1 + u.2)).map (fun a => (a + align - 1) / align * align)
  (cands.filter fits).foldl (fun b a => match b with
    | some x => some (min x a)
    | none => some a) none

/-- The data areas of a task: base and length. -/
def Task.areaList (t : Task) : List (Nat × Nat) :=
  [ (t.areas.getD 0 0, up64 t.paramBytes), (t.areas.getD 1 0, up64 t.paramBytes)
  , (t.areas.getD 2 0, t.workLen + t.stateLen), (t.areas.getD 4 0, if t.areas.getD 4 0 = 0 then 0 else 320) ]

/-- The data memory in use on a core. -/
def dmemUsed (s : State) (k : Nat) : List (Nat × Nat) :=
  (coreOf s k).consts.map (fun e => (e.2, ((progOf s e.1).map (fun p => p.const_.length)).getD 0))
    ++ ((s.dsp.tasks.filter (fun e => e.2.placed && (e.2.target == k || e.2.target == 0x8000 + k / 17))).flatMap
      (fun e => e.2.areaList))

/-- The instruction memory in use on a core. -/
def imemUsed (s : State) (k : Nat) : List (Nat × Nat) :=
  (coreOf s k).placed.map (fun e => (e.2, ((progOf s e.1).map (fun p => p.bundles.length)).getD 0))

/-- Write bytes into a core's data memory. -/
def dmemWrite (k a : Nat) (b : List Byte) (s : State) : State :=
  modCore k (fun c => { c with dmem := Memory.writeN c.dmem a b }) s

/-- Put a program's constants on a core, if not there; none where they do not fit. -/
def placeConst (prog : Nat) (p : Program) (k : Nat) (s : State) : Option State :=
  if Tbl.has (coreOf s k).consts prog then some s
  else (firstFit (dmemUsed s k) p.const_.length 64 0x400 0x20000).map fun a =>
    dmemWrite k a p.const_ (modCore k (fun c => { c with consts := Tbl.put c.consts prog a }) s)

/-- Put a program's bundles on a core, if not there; none where they do not fit. -/
def placeCode (prog : Nat) (p : Program) (k : Nat) (s : State) : Option State :=
  if Tbl.has (coreOf s k).placed prog then some s
  else (firstFit (imemUsed s k) p.bundles.length 1 0 4096).map fun a =>
    modCore k (fun c => { c with
      placed := Tbl.put c.placed prog a
      imem := p.bundles.zipIdx.foldl (fun m e => Tbl.put m (a + e.2) e.1) c.imem }) s

/-- Over every core of a list. -/
def onCores (f : Nat → State → Option State) : List Nat → State → Option State
  | [], s => some s
  | k :: ks, s => (f k s).bind (onCores f ks)

/-- Places for PARAM (two copies), WORK with STATE, and CONTEXT, clear on every core of the list. -/
def placeAreas (cores : List Nat) (t : Task) (p : Program) (preempt : Bool) (s : State) : Option (List Nat) :=
  let used := cores.flatMap (dmemUsed s)
  let sl := p.stateBytes + t.maxObj * p.stateObj
  let pl := up64 t.paramBytes
  (firstFit used pl 64 0x400 0x20000).bind fun a =>
    (firstFit ((a, pl) :: used) pl 64 0x400 0x20000).bind fun b =>
      let used := (a, pl) :: (b, pl) :: used
      (firstFit used (p.workBytes + sl) (2 ^ p.workAlign) 0x400 0x20000).bind fun w =>
        if preempt then
          (firstFit ((w, p.workBytes + sl) :: used) 320 64 0x400 0x20000).map fun x => [a, b, w, w + p.workBytes, x]
        else some [a, b, w, w + p.workBytes, 0]

/-- Programs that no task placed on the core uses leave it. -/
def dropUnused (k : Nat) (s : State) : State :=
  let uses := fun p => s.dsp.tasks.any (fun e => e.2.placed && e.2.prog == p && (coresOf s e.2.target).contains k)
  modCore k (fun c => { c with consts := Tbl.sel c.consts (fun p _ => uses p), placed := Tbl.sel c.placed (fun p _ => uses p) }) s

/-! ### Freeing a task -/

/-- A task's registrations with its flues end (R108). -/
def unbindFlues (i : Nat) (t : Task) (s : State) : State :=
  let shared := fun j => s.dsp.tasks.any (fun e => e.1 != i && e.2.target == t.target && e.2.outputs.contains (some j))
  let ends := fun (s : State) j => { s with flues := Tbl.modify s.flues j (fun f => { f with
    consumer := if f.consumer = some i then none else f.consumer
    producers := if t.outputs.contains (some j) && !shared j then f.producers.filter (· != t.target) else f.producers
    users := f.users.filter (· != taskH i) }) }
  ((t.inputs ++ t.outputs).filterMap id).foldl ends s

/-- A task returns to FREE. -/
def freeTask (i : Nat) (s : State) : State :=
  match taskOf s i with
  | none => s
  | some t =>
    let s := unbindFlues i t s
    let s := { s with
      dsp.tasks := Tbl.del s.dsp.tasks i
      dsp.legIns := Tbl.each s.dsp.legIns (fun _ l => l.filter (· != i))
      dsp.busIns := Tbl.each s.dsp.busIns (fun _ l => l.filter (· != i))
      dsp.groveReady := Tbl.each s.dsp.groveReady (fun _ l => l.filter (· != i)) }
    let s := (coresOf s t.target).foldl (fun s k =>
      dropUnused k (modCore k (fun c => { c with ready := c.ready.filter (· != i)
                                                 spQueue := c.spQueue.filter (fun q => q.task != i) }) s)) s
    let s := t.params.foldl (fun s w => finishRunning w.1 w.2.1 St.ABORTED 0 0 [] s) s
    let s := leaveLeases (taskH i) s
    match t.deleter with
    | some (rs, tag) => finishRunning rs tag St.OK 0 1 [] s
    | none => s

/-! ### Traps (R221) -/

/-- A task enters FAULTED with a cause: what R221 does beside the core. -/
def faultTask (i k cause code pc addr : Nat) (s : State) : State :=
  match taskOf s i with
  | none => s
  | some t =>
    let s := rewindInputs t (abandonOutputs t s)
    let s := modTask i (fun t => { t with
      state := .faulted, cause, code, trapPc := pc, traps := t.traps + 1, insTaken := 0, saved := none, ready := false
      largest := max t.largest t.ran }) s
    let s := modCore k (fun c => { c with spQueue := c.spQueue.filter (fun q => q.task != i), ready := c.ready.filter (· != i) }) s
    let s := bump R.GRV_TRAPS (if cause = 4 then bump R.GRV_OVERRUNS s else s)
    let s := raise Ev.DSP_TRAP (taskH i)
      (leN k 2 ++ leN cause 1 ++ leN code 1 ++ leN pc 2 ++ leN t.level 1 ++ leN 0 1 ++ leN addr 4 ++ leN t.dispatches 4) s
    if t.state = .deleting then freeTask i s else s

/-- A core traps at the bundle it stands at (R221). -/
def trapCore (k cause code addr : Nat) (s : State) : State :=
  let c := coreOf s k
  let s := noteStop k 2 cause (modCore k (fun c => { c with trapPc := c.ctx.pc, trapAddr := addr }) s)
  let s := leaveTask k s
  match c.task with
  | some i => faultTask i k cause code c.ctx.pc addr s
  | none => s

/-- The cycles at which a dispatch traps with OVERRUN (R226). -/
def Task.limit (t : Task) : Nat := 4 * (t.cycles + t.objs.length * t.cyclesObj)

/-- A cycle of the running task has passed. -/
def countCycle (k : Nat) (s : State) : State :=
  match (coreOf s k).task with
  | none => s
  | some i =>
    let s := modTask i (fun t => { t with ran := t.ran + 1 }) s
    match taskOf s i with
    | some t => if t.limit ≤ t.ran then trapCore k 4 0 0 s else s
    | none => s

/-! ### Dispatch (R112–R115, R219, R220, R223) -/

/-- The bin of a wait in ns (R115). -/
def waitBin (w : Nat) : Nat := min 15 (if w < 250 then 0 else Nat.log2 (w / 250) + 1)

/-- A wait is measured (R114, R115). -/
def noteWait (k i : Nat) (t : Task) (s : State) : State :=
  let w := cyclesNs (s.clock.cycles - t.readyAt)
  let s := bump (winKey (R.DSX_C_WAIT_HIST + 8 * waitBin w) k) (trackMax (winKey R.DSX_C_WAIT_MAX k) w s)
  let s := bump R.DSX_DISPATCHES (bump (winKey R.DSX_C_DISPATCHES k) s)
  if w ≤ t.budget then s
  else
    let s := bump R.DSX_LATE (bump (winKey R.DSX_C_LATE k) s)
    let quiet := match (coreOf s k).lateAt with
      | some a => decide (s.clock.cycles < a + msCycles 100)
      | none => false
    if quiet then s
    else raiseUnless R.DSX_EVENT_MASK 0 Ev.DSX_TASK_LATE (taskH i)
      (leN k 2 ++ leN t.level 1 ++ leN 0 1 ++ leN w 4 ++ leN t.budget 4)
      (modCore k (fun c => { c with lateAt := some s.clock.cycles }) s)

/-- The shadow copy of PARAM takes the first waiting DSP_TASK_PARAM (R229). -/
def writeShadowParam (i : Nat) (s : State) : State :=
  match taskOf s i with
  | some t =>
    match t.params with
    | (_, _, o, b) :: _ =>
      (coresOf s t.target).foldl (fun s k => dmemWrite k (t.areas.getD (1 - t.active) 0 + o) b s) s
    | [] => s
  | none => s

/-- The copies swap at the start of a dispatch; the waiting command is answered, the next one written. -/
def swapParams (i : Nat) (s : State) : State :=
  match taskOf s i with
  | some t =>
    match t.params with
    | (rs, tag, _, _) :: rest =>
      let s := modTask i (fun t => { t with active := 1 - t.active, params := rest }) s
      writeShadowParam i (finishRunning rs tag St.OK 0 1 [] s)
    | [] => s
  | none => s

/-- The windows of R211 for a task on a core. -/
def winsOf (s : State) (k : Nat) (t : Task) : List Win :=
  [ ⟨Tbl.getD (coreOf s k).consts t.prog 0, ((progOf s t.prog).map (fun p => p.const_.length)).getD 0⟩
  , ⟨t.areas.getD t.active 0, t.paramBytes⟩, ⟨t.areas.getD 2 0, t.workLen + t.stateLen⟩ ]

/-- P4–P7 at entry (R223). -/
def entryP (s : State) (k : Nat) (t : Task) : List Word :=
  [Tbl.getD (coreOf s k).consts t.prog 0, t.areas.getD 2 0, t.areas.getD 3 0, t.areas.getD t.active 0].map (BitVec.ofNat 32)

/-- The registers at entry of a COOPERATIVE or PREEMPT level: what R223 does not give is a free value. -/
def entryCtx (s : State) (k : Nat) (t : Task) (pc : Nat) : DspCtx :=
  let w := fun j => BitVec.ofNat 32 (Config.freeValue (s.free + j))
  let a := fun j => signed 72 (Config.freeValue (s.free + j))
  { d := BitVec.ofNat 32 t.block :: (List.range 15).map w
    acc := [a 15, a 16, a 17, a 18], accNew := [a 15, a 16, a 17, a 18]
    p := [w 19, w 20, w 21, w 22] ++ entryP s k t
    n := (List.range 8).map (fun j => w (23 + j)), l := List.replicate 8 0
    ls := [(w 31).toNat % 4096, (w 32).toNat % 4096], le := [(w 33).toNat % 4096, (w 34).toNat % 4096]
    lc := [w 35, w 36], pc, sr := (w 37).toNat % 16, spc := (w 38).toNat % 4096, ssr := (w 39).toNat % 65536 }

/-- A task is dispatched on a core for the first time in this dispatch. -/
def startTask (k i : Nat) (s : State) : State :=
  match taskOf s i with
  | none => s
  | some t0 =>
    let s := noteWait k i t0 s
    let block := match t0.objs, t0.insIn.drop t0.insTaken with
      | _ :: _, q :: _ => q.meta_
      | _, _ => t0.block
    let s := modTask i (fun t => { t with ready := false, tick := false, ran := 0, core := k, block }) s
    let s := swapParams i s
    match taskOf s i with
    | none => s
    | some t =>
      let c := coreOf s k
      let pc := Tbl.getD c.placed t.prog 0 + ((progOf s t.prog).map Program.entry).getD 0
      let wins := winsOf s k t
      if levelMode s t.level = 1 then
        let ctx := { c.ctx with
          spc := c.ctx.pc, ssr := c.ctx.sr, pc
          sr := setBit (setBit (setBit c.ctx.sr 5 false) 6 false) 4 true
          d := c.ctx.d.set 0 (BitVec.ofNat 32 t.block), p := c.ctx.p.take 4 ++ entryP s k t }
        bump R.DSX_INTERRUPTS (modCore k (fun c => { c with
          ctx, wins, task := some i, under := some ⟨c.task, c.wins, c.ctx.d.getD 0 0, c.ctx.p.drop 4⟩ }) s)
      else
        let ctx := entryCtx s k t pc
        let s := { s with free := s.free + 40 }
        modCore k (fun c => { c with ctx, wins, task := some i, land := [], atomRun := 0, laneRun := 0 }) s

/-- A task whose context was saved goes on (R220). -/
def resumeTask (k i : Nat) (ctx : DspCtx) (s : State) : State :=
  let s := modTask i (fun t => { t with saved := none, ready := false }) s
  match taskOf s i with
  | some t => modCore k (fun c => { c with ctx, wins := winsOf s k t, task := some i, land := [], atomRun := 0 }) s
  | none => s

/-- A task leaves its ready list and runs. -/
def runTask (k i : Nat) (s : State) : State :=
  let s := modCore k (fun c => { c with ready := c.ready.filter (· != i) })
    { s with dsp.groveReady := Tbl.each s.dsp.groveReady (fun _ l => l.filter (· != i)) }
  match (taskOf s i).bind Task.saved with
  | some ctx => resumeTask k i ctx s
  | none => startTask k i s

/-- The running task gives up its core with its context saved, and waits first in its ready list. -/
def suspend (k kind : Nat) (s : State) : State :=
  let c := coreOf s k
  let ctx := landAll c.land c.ctx
  let s := noteStop k kind 0 (modCore k (fun c => { c with ctx, land := [] }) s)
  match c.task with
  | none => s
  | some i =>
    let ctx := { ctx with accNew := ctx.acc }
    modCore k (fun c => { c with task := none, jump := none, ready := i :: c.ready })
      (modTask i (fun t => { t with saved := some ctx, ready := true }) s)

/-- R218's conditions at a bundle boundary. -/
def Core.accepts (c : Core) : Bool := c.atomRun == 0 && c.jump.isNone && !bit c.ctx.sr 4

/-- A ready task is handed to a core if R112 and R113 allow it. -/
def tryCore (k i : Nat) (s : State) : State :=
  let c := coreOf s k
  match taskOf s i with
  | none => s
  | some t =>
    if c.under.isSome then s
    else
      match c.task with
      | none => runTask k i s
      | some r =>
        if ((taskOf s r).map Task.level).getD 0 ≤ t.level ∨ ¬ c.accepts then s
        else
          match levelMode s t.level with
          | 0 => s
          | 1 => runTask k i s
          | _ => runTask k i (suspend k 3 (bump R.DSX_PREEMPTS (bump (winKey R.DSX_C_PREEMPTS k) s)))

/-- The ready task to take: the highest level, in ready order, whose outputs are not damped. -/
def pickReady (s : State) (l : List Nat) : Option Nat :=
  let can := fun (t : Task) => t.saved.isSome || t.outputs.all fun o => match o.bind (flueOf s) with
    | some f => !f.damped
    | none => true
  let lev := fun n => l.find? fun i => match taskOf s i with
    | some t => t.level == n && can t
    | none => false
  (List.range 8).findSome? lev

/-- The core of a grove for a ready task: the idle one with the lowest load, else the first whose running task is of a
lower level (R112). -/
def pickCore (s : State) (g level : Nat) (loads : List Nat) : Option Nat :=
  let cores := coresOf s (0x8000 + g)
  let idle := cores.filter fun k => (coreOf s k).task.isNone && (coreOf s k).under.isNone
  let best := idle.foldl (fun b k => match b with
    | none => some k
    | some j => if loads.getD (k % 17) 0 < loads.getD (j % 17) 0 then some k else some j) none
  match best with
  | some k => some k
  | none => cores.find? fun k => match (coreOf s k).task.bind (taskOf s) with
    | some r => decide (level < r.level)
    | none => false

/-- A core takes the ready task that was picked, if one was. -/
def tryFirst (k : Nat) (picked : Option Nat) (s : State) : State :=
  match picked with
  | some i => tryCore k i s
  | none => s

/-- The grove's ready task that was picked goes to the core picked for its level. -/
def groveDispatch (g : Nat) (loads : List Nat) (picked : Option Nat) (s : State) : State :=
  match picked with
  | none => s
  | some i =>
    match pickCore s g (((taskOf s i).map Task.level).getD 0) loads with
    | some k => tryCore k i s
    | none => s

/-- DSX hands the next ready task of a core, or of grove `target − 0x8000`, to a core. -/
def taskDispatch (target : Nat) (loads : List Nat) (s : State) : State :=
  if target < 0x8000 then
    tryFirst target (pickReady s (coreOf s target).ready) s
  else
    groveDispatch (target - 0x8000) loads (pickReady s (Tbl.getD s.dsp.groveReady (target - 0x8000) [])) s

/-- TASK_DISPATCH (R112). -/
def execTaskDispatch (target : Nat) (loads : List Nat) (s : State) : Out := .next (taskDispatch target loads s)

/-- Whether a task of a higher level waits for a core (YIELD). -/
def offered (k : Nat) (s : State) : Bool :=
  let c := coreOf s k
  let level := ((c.task.bind (taskOf s)).map Task.level).getD 0
  c.under.isNone && (c.ready ++ Tbl.getD s.dsp.groveReady (k / 17) []).any fun i =>
    match taskOf s i with
    | some t => decide (t.level < level)
    | none => false

/-! ### Commit (R228) -/

/-- STATE of a task on its core. -/
def stateBytes (s : State) (t : Task) : List Byte :=
  Memory.readN (coreOf s t.core).dmem (t.areas.getD 3 0) t.stateLen

/-- A dispatch commits: STATE and header to the inactive copy, COMMIT to the inputs, DISPATCH_SEQ rises. -/
def commitTask (i k : Nat) (s : State) : State :=
  match taskOf s i with
  | none => s
  | some t =>
    let c0 := t.ckpts.getD 0 {}
    let c1 := t.ckpts.getD 1 {}
    let ck : Ckpt := { seq := t.dispatches + 1, state := stateBytes s t
                       consumed := t.inputs.map fun o => ((o.bind (flueOf s)).map Flue.consumed).getD 0 }
    let s := modTask i (fun t => { t with
      ckpts := if c0.seq ≤ c1.seq then [ck, c1] else [c0, ck]
      dispatches := t.dispatches + 1, insIn := t.insIn.drop t.insTaken, insTaken := 0, largest := max t.largest t.ran }) s
    let s := bumpBy R.GRV_CKPT_BYTES t.stateLen (modCore k (fun c => { c with ckptLast := t.stateLen }) s)
    t.inputs.foldl (fun s o => match o with
      | some j => (match flueOf s j with
        | some f => flueChanged j (commitFlue j f s)
        | none => s)
      | none => s) s

/-- A core at the target of END or RTI with its stream commands complete: the dispatch commits, and the core is
free or goes back to the interrupted code. -/
def settleEnd (k : Nat) (s : State) : State :=
  let c := coreOf s k
  match c.jump, c.task with
  | some (.finish, 0), some i =>
    if c.spQueue.any (fun q => q.task == i) then s
    else
      let s := leaveTask k (noteStop k 0 0 (commitTask i k s))
      if ((taskOf s i).map Task.state) = some .deleting then freeTask i s else updateReady i s
  | _, _ => s

/-! ### The stream port (R222) -/

/-- Write gathered bytes from byte number `g` of a strided area on. -/
def writeStrided (m : List Host.Cell) (addr stride : Nat) : (g : Nat) → List Byte → List Host.Cell
  | _, [] => m
  | g, b :: bs => writeStrided (Memory.write m (addr + g / 4 * stride + g % 4) b) addr stride (g + 1) bs

/-- The bytes of a strided area. -/
def readStrided (m : List Host.Cell) (addr stride n : Nat) : List Byte :=
  (List.range n).map fun g => Memory.read m (addr + g / 4 * stride + g % 4)

/-- A stream command ends: the next one follows. -/
def endSp (k : Nat) (s : State) : State := settleEnd k (modCore k (fun c => { c with spQueue := c.spQueue.drop 1 }) s)

/-- A POP ends with what SP_STATUS, SP_LAST_LEN and SP_LAST_META show. -/
def endPop (k : Nat) (q : SpCmd) (none_ trunc drop : Bool) (s : State) : State :=
  endSp k (modCore k (fun c => { c with spNone := none_, spTrunc := trunc, spDrop := drop, spLastLen := q.got
                                        spLastMeta := q.seen.getD c.spLastMeta }) s)

/-- Bytes that a POP brings are written. -/
def takeBytes (k : Nat) (q : SpCmd) (b : List Byte) (s : State) : SpCmd × State :=
  let b := b.take (q.len - q.got)
  ({ q with got := q.got + b.length },
   bumpBy (winKey R.GRV_W_SP_BYTES k) b.length
     (modCore k (fun c => { c with dmem := writeStrided c.dmem q.addr q.stride q.got b }) s))

/-- A POP copies the items of its packet as they arrive; what does not fit is dropped. -/
def popItems (k j : Nat) : Nat → SpCmd → State → State
  | 0, q, s => modCore k (fun c => { c with spQueue := q :: c.spQueue.drop 1 }) s
  | fuel + 1, q, s =>
    match flueOf s j with
    | none => endPop k q true false false s
    | some f =>
      if (f.visible).isNone ∨ f.phase = .resetting then
        let s := (popFlue j f s).2
        if q.seen.isNone then endPop k q true false false s
        else modCore k (fun c => { c with spQueue := q :: c.spQueue.drop 1 }) s
      else
        let (it, s) := popFlue j f s
        let b := packetBytes [it]
        let room := decide (q.got + b.length ≤ q.len)
        let q := { q with seen := some (q.seen.getD (bits it.hdr.toNat 31 0)) }
        let (q, s) := takeBytes k q b s
        if itemDropped it then endPop k q false false true s
        else if ¬ room then
          let s := match flueOf s j with
            | some f => dropRemainder j f s
            | none => s
          endPop k q false true false s
        else if itemLast it then endPop k q false false false s
        else popItems k j fuel q s

/-- A POP of an insert task's slot 0 takes the mixer's next packet. -/
def popInsert (k : Nat) (q : SpCmd) (t : Task) (s : State) : State :=
  match t.insIn.drop t.insTaken with
  | [] => endPop k q true false false s
  | x :: _ =>
    let s := modTask q.task (fun t => { t with insTaken := t.insTaken + 1 }) s
    let (q, s) := takeBytes k { q with seen := some x.meta_ } x.data s
    endPop k q false (decide (q.len < x.data.length)) false s

/-- The items of a PUSH: KIND 0, 24 bytes each (R222). -/
def spItems (meta_ : Nat) (b : List Byte) : List Item :=
  let n := (b.length + 23) / 24
  (List.range n).map fun i =>
    let p := slice b (24 * i) 24
    { hdr := BitVec.ofNat 64 (2 ^ 63 + 2 ^ 62 * b2n (i == 0) + 2 ^ 61 * b2n (i + 1 == n)
        + (if i = 0 then n % 256 else i) * 2 ^ 48 + p.length * 2 ^ 40 + meta_)
      payload := fit p 24 }

/-- Push the items of a packet, one after the other. -/
def pushAll (j producer : Nat) (items : List Item) (s : State) : State :=
  items.foldl (fun s it => match flueOf s j with
    | some f => pushItem j producer it f s
    | none => s) s

/-- Whether a flue takes a whole packet of `n` items now. -/
def flueTakes (f : Flue) (n : Nat) : Bool :=
  f.phase != .resetting && f.opener.isNone && !f.damped && decide (f.occ + n ≤ f.depth)

/-- The stream port works on its oldest command: a POP ends once its items have arrived, a PUSH once its flue has
room (R222). -/
def streamStep (k : Nat) (s : State) : State :=
  let c := coreOf s k
  match c.spQueue with
  | [] => s
  | q :: _ =>
    match taskOf s q.task with
    | none => endSp k s
    | some t =>
      if q.push then
        let b := readStrided c.dmem q.addr q.stride q.len
        let s' := bumpBy (winKey R.GRV_W_SP_BYTES k) q.len s
        match t.outputs.getD (q.slot - 4) none with
        | some j =>
          match flueOf s j with
          | some f =>
            if flueTakes f ((q.len + 23) / 24) then
              flueChanged j (tapFlue j (endSp k (pushAll j t.target (spItems q.meta_ b) s')))
            else s
          | none => endSp k s
        | none => endSp k (modTask q.task (fun t => { t with insOut := t.insOut ++ [⟨q.meta_, b⟩] }) s')
      else
        match t.inputs.getD q.slot none with
        | some j => flueChanged j (popItems k j (((flueOf s j).map Flue.occ).getD 0 + 1) q s)
        | none => popInsert k q t s

/-- STREAM_COMMAND_COMPLETE (R222). -/
def execStreamCommandComplete (core : Nat) (s : State) : Out := .next (streamStep core s)

/-- Whether a slot of a task is bound: a flue, or slots 0 and 4 of an insert task (R227). -/
def slotBound (t : Task) (slot : Nat) : Bool :=
  if slot < 4 then (t.inputs.getD slot none).isSome || (slot == 0 && t.objs != [])
  else (t.outputs.getD (slot - 4) none).isSome || (slot == 4 && t.objs != [])

/-- The stream command that a write of SP_GO launches; none where it traps with STREAM (R221, R222;
notes/assumptions/24.md). -/
def spCommand (c : Core) (i : Nat) (t : Task) (go addr len meta_ : Nat) : Option SpCmd :=
  let slot := bits go 4 2
  let op := bits go 1 0
  let n := len % 65536
  let st := bits len 23 16
  let stride := if st = 0 then 4 else st
  let words := (n + 3) / 4
  if op ≤ 1 ∧ (op = 1 ↔ 4 ≤ slot) ∧ slotBound t slot ∧ 1 ≤ n ∧ n ≤ 6144 ∧ stride % 4 = 0
      ∧ (c.wins.getD 2 {}).holds addr ((words - 1) * stride + (n - 4 * (words - 1))) then
    some { task := i, push := op == 1, slot, addr, len := n, stride, meta_ }
  else none

/-- A program's write of SP_GO on its own: the command is launched with the registers as they stand, traps, or
waits for one of eight to complete. -/
def spGo (k go : Nat) (s : State) : State :=
  let c := coreOf s k
  match c.task with
  | none => s
  | some i =>
    match taskOf s i with
    | none => s
    | some t =>
      match spCommand c i t go c.spAddr c.spLen c.spMeta with
      | none => trapCore k 7 0 0 s
      | some q =>
        if 8 ≤ c.spQueue.length then countCycle k (bump R.GRV_STALLS (bump (winKey R.GRV_W_STALLS k) s))
        else modCore k (fun c => { c with spQueue := c.spQueue ++ [q] }) s

/-- SP_GO_POP (R222). -/
def execSpGoPop (core slot : Nat) (s : State) : Out := .next (spGo core (4 * (slot % 8)) s)
/-- SP_GO_PUSH (R222). -/
def execSpGoPush (core slot : Nat) (s : State) : Out := .next (spGo core (1 + 4 * (slot % 8)) s)

/-! ### BUNDLE_ISSUE (R216) -/

/-- What the control region shows (Table 9-9); none where no value is given. -/
def ctlRead (k : Nat) (c : Core) (i : Nat) (t : Task) (w : Nat) : Option Nat :=
  match w with
  | 0 => some c.spAddr
  | 1 => some c.spLen
  | 2 => some c.spMeta
  | 4 => some (c.spQueue.length + 2 ^ 8 * b2n c.spNone + 2 ^ 9 * b2n c.spTrunc + 2 ^ 10 * b2n c.spDrop)
  | 5 => some c.spLastLen
  | 6 => some c.spLastMeta
  | 8 => some k
  | 9 => some i
  | 10 => some (t.dispatches % 2 ^ 32)
  | 11 => some (t.block % 2 ^ 32)
  | 12 => some (t.ran % 2 ^ 32)
  | _ => none

/-- The control words after the writes of a bundle, with the commands launched; none where one traps. -/
def applyCtl (i : Nat) (t : Task) : List (Nat × Nat) → Core → Option Core
  | [], c => some c
  | (0, v) :: r, c => applyCtl i t r { c with spAddr := v }
  | (1, v) :: r, c => applyCtl i t r { c with spLen := v % 2 ^ 24 }
  | (2, v) :: r, c => applyCtl i t r { c with spMeta := v }
  | (_, v) :: r, c =>
    match spCommand c i t v c.spAddr c.spLen c.spMeta with
    | some q => applyCtl i t r { c with spQueue := c.spQueue ++ [q] }
    | none => none

/-- A cycle in which no bundle issues. -/
def stallCore (k : Nat) (s : State) : State :=
  countCycle k (bump R.GRV_STALLS (bump (winKey R.GRV_W_STALLS k) s))

/-- Why a bundle traps before it does anything: cause, code and address. -/
def trapOf (b : Nat) (c : Core) (taken : Option JumpKind) (acc : List Acc) : Option (Nat × Nat × Nat) :=
  if ¬ legalBundle b ∨ (c.jump.isSome ∧ (isJump b ∨ isLoop b)) then some (1, 0, 0)
  else if fAtom b ∧ 16 ≤ c.atomRun then some (3, 0, 0)
  else if taken.isSome ∧ loopOrder c.ctx then some (5, 0, 0)
  else if fLop b = 0x29 then some (6, bits b 10 4, 0)
  else (acc.find? (fun a => !a.ok c.wins)).map fun a => (2, 0, a.addr)

/-- Where control goes after a bundle. -/
def nextPc (b : Nat) (c : Core) : Nat × List Res :=
  match c.jump with
  | some (.jump t, 1) => (t, [])
  | _ => if skipsBody b c.ctx then ((c.ctx.pc + fEnd b + 1) % 4096, []) else loopNext c.ctx

/-- The core after a bundle that issued: results in flight, registers, loops, jumps, runs. -/
def issueCore (b : Nat) (c : Core) (taken : Option JumpKind) (acc : List Acc) (rs : List Res) : Core :=
  let t := c.issued + 1
  let (pc, _) := nextPc b c
  let (ctx, land) := landDue t (c.land ++ rs.map fun r => ⟨c.issued + r.lat, r.dest, r.val⟩) (chain rs c.ctx)
  { c with
    ctx := { ctx with pc }, land, issued := t
    dmem := acc.foldl storeMem c.dmem
    jump := match c.jump with
      | some (j, n) => if n = 1 then (match j with
          | .jump _ => none
          | j => some (j, 0)) else some (j, n - 1)
      | none => taken.map fun j => (j, 2)
    atomRun := if fAtom b then c.atomRun + 1 else 0
    laneRun := if 2 ≤ acc.length then c.laneRun + 1 else 0 }

/-- A core arrives at the target of RTI, END or YIELD (R217, R219, R228). -/
def arrive (k : Nat) (s : State) : State :=
  let c := coreOf s k
  match c.jump with
  | some (.yield, 0) => suspend k 1 s
  | some (.rti, 0) =>
    if c.under.isSome then settleEnd k (modCore k (fun c => { c with jump := some (.finish, 0) }) s)
    else modCore k (fun c => { c with
      jump := none, ctx := { c.ctx with sr := setBit c.ctx.ssr 4 false, pc := c.ctx.spc } }) s
  | some (.finish, 0) => settleEnd k s
  | _ => s

/-- One cycle of a core: a stall, a trap, or one bundle. -/
def bundleIssue (k : Nat) (s : State) : State :=
  let c := coreOf s k
  match c.task with
  | none => s
  | some i =>
    match taskOf s i with
    | none => s
    | some t =>
      let b := (Tbl.getD c.imem c.ctx.pc 0).toNat
      let acc := accesses b c.ctx
      let goes := (acc.flatMap ctlWrites).filter (fun e => e.1 == 3)
      let free := fun j => Config.freeValue (s.free + j)
      if (c.jump.map Prod.snd) = some 0 then stallCore k s
      else if c.laneRun = 16 then stallCore k (modCore k (fun c => { c with laneRun := 0 }) s)
      else if fLop b = 0x28 ∧ c.spQueue ≠ [] ∧ legalBundle b then stallCore k s
      else if goes ≠ [] ∧ 8 < c.spQueue.length + goes.length ∧ (acc.all (fun a => a.ok c.wins)) ∧ legalBundle b then stallCore k s
      else
        let taken := jumpOf b c.ctx (offered k s)
        match trapOf b c taken acc with
        | some (cause, code, addr) => trapCore k cause code addr s
        | none =>
          match applyCtl i t (acc.flatMap ctlWrites) c with
          | none => trapCore k 7 0 0 s
          | some c' =>
            let ctl := fun lane w => (ctlRead k c i t w).getD (free (w + 16 * lane))
            let rs := settleTies (fun j => free (32 + j))
              (slotM b c.ctx ++ acc.flatMap (loadRes c.dmem ctl) ++ slotL b c.ctx ++ (nextPc b c).2)
            let s := { s with free := s.free + 64 }
            let s := modCore k (fun _ => issueCore b c' taken acc rs) s
            let s := bump R.GRV_BUNDLES (bump (winKey R.GRV_W_BUNDLES k) s)
            let s := countCycle k s
            if (coreOf s k).task = some i then arrive k s else s

/-- BUNDLE_ISSUE (R216). -/
def execBundleIssue (core : Nat) (s : State) : Out := .next (bundleIssue core s)

/-! ### Migration (R228) -/

/-- Floor cycles per second of a core at the published scale (R226). -/
def coreRate (s : State) : Nat := 1000000000 * scaleOf s / 65536

/-- Cycles per second a task is admitted with (R226). -/
def Task.need (t : Task) : Nat := (t.cycles + t.maxObj * t.cyclesObj) * t.rate

/-- Cycles per second admitted on a core, and in a grove. -/
def admittedCore (s : State) (k : Nat) : Nat :=
  Tbl.sum s.dsp.tasks fun t => if t.placed ∧ t.target = k then t.need else 0
def admittedGrove (s : State) (g : Nat) : Nat :=
  Tbl.sum s.dsp.tasks fun t => if t.placed ∧ groveOf t.target = g then t.need else 0

/-- Whether a further need fits a target (R226). -/
def cyclesFit (s : State) (target need : Nat) : Bool :=
  let pct := rgBits s R.GRV_CTRL 7 0
  if target < 0x8000 then decide ((admittedCore s target + need) * 100 ≤ pct * coreRate s)
  else decide ((admittedGrove s (target - 0x8000) + need) * 100 ≤ pct * 16 * coreRate s)

/-- Tasks bound to a core. -/
def coreTasks (s : State) (k : Nat) : Nat := (s.dsp.tasks.filter (fun e => e.2.placed && e.2.target == k)).length

/-- Program, constants and areas of a task placed on a target: the state and the areas, or the code of what is
short. -/
def placeOn (t : Task) (p : Program) (target : Nat) (preempt : Bool) (s : State) : (State × List Nat) ⊕ Nat :=
  let cores := coresOf s target
  match onCores (placeConst t.prog p) cores s with
  | none => .inr 0x52
  | some s =>
    match placeAreas cores t p preempt s with
    | none => .inr 0x52
    | some areas =>
      match onCores (placeCode t.prog p) cores s with
      | none => .inr 0x54
      | some s => .inl (s, areas)

/-- A task of a failed core is put on another: program, CONST and STATE of the newer copy are loaded, its inputs
rewound (R228). Its PARAM copies go with it. -/
def moveTask (i k' : Nat) (s : State) : Option State :=
  match taskOf s i, (taskOf s i).bind (fun t => progOf s t.prog) with
  | some t, some p =>
    if 64 ≤ coreTasks s k' ∨ ¬ cyclesFit s k' t.need then none
    else
      match placeOn t p k' (t.areas.getD 4 0 != 0) s with
      | .inr _ => none
      | .inl (s, areas) =>
        let old := coreOf s t.core
        let param := fun a => Memory.readN old.dmem (t.areas.getD a 0) t.paramBytes
        let c0 := t.ckpts.getD 0 {}
        let c1 := t.ckpts.getD 1 {}
        let state := fit (if c1.seq ≤ c0.seq then c0.state else c1.state) t.stateLen
        let s := dmemWrite k' (areas.getD 3 0) state
          (dmemWrite k' (areas.getD 1 0) (param 1) (dmemWrite k' (areas.getD 0 0) (param 0) s))
        let s := t.outputs.foldl (fun (s : State) o => match o with
          | some j => { s with flues := Tbl.modify s.flues j (fun f =>
              { f with producers := f.producers.map (fun x => if x = t.target then k' else x) }) }
          | none => s) s
        let s := modTask i (fun t => { t with
          core := k', target := k', areas, saved := none, ready := false, insTaken := 0 }) s
        some (updateReady i (bump R.GRV_MIGRATIONS (rewindInputs t s)))
  | _, _ => none

/-- The first core of a list that takes a task. -/
def moveFirst (i : Nat) : List Nat → State → Option State
  | [], _ => none
  | k :: ks, s => match moveTask i k s with
    | some s => some s
    | none => moveFirst i ks s

/-- The tasks of a core, its grove-bound dispatches among them. -/
def tasksAt (s : State) (k : Nat) : List (Nat × Task) :=
  s.dsp.tasks.filter fun e => e.2.state != .created && e.2.state != .faulted
    && (e.2.target == k || (e.2.core == k && taskBusy s e.1 e.2))

/-- A core fails: its spare comes into service, and each of its tasks moves to it, or to any core whose admission
allows, or is FAULTED with CORE_LOST. A grove-bound dispatch is done again by the grove. -/
def coreMigration (k : Nat) (s : State) : State :=
  let sp := k / 17 * 17 + 16
  let first := (engineOf s 0x0C sp).state == .spare && k != sp
  let s := { s with health.engines := Tbl.put s.health.engines (65536 * 0x0C + k) { state := .retired, failed := true } }
  let s := if first then { s with health.engines := Tbl.put s.health.engines (65536 * 0x0C + sp) { state := .inService } } else s
  let moved := tasksAt s k
  let s := modCore k (fun c => { c with task := none, under := none, jump := none, land := [], spQueue := [], ready := [] }) s
  let others := (enginesIn s 0x0C .inService).filter (· != k)
  moved.foldl (fun s e =>
    let s := abandonOutputs e.2 s
    if 0x8000 ≤ e.2.target then
      updateReady e.1 (rewindInputs e.2 (modTask e.1 (fun t => { t with saved := none, ready := false, insTaken := 0 }) s))
    else
      match moveFirst e.1 (if first then sp :: others else others) s with
      | some s => s
      | none => faultTask e.1 k 8 0 (coreOf s k).ctx.pc 0 s) s

/-- CORE_MIGRATION (R228). -/
def execCoreMigration (core : Nat) (s : State) : Out := .next (if core < 272 then coreMigration core s else s)

end Sys2Proof.Machine
end

