-- ==== Sys2Proof/Machine/AudioOps.lean ====
section
/-! DEFINITION. Machine/AudioOps.lean: the block grid, ramps, buses, mix classes and talker selection
(R177, R180, R189–R203). -/

namespace Sys2Proof.Machine

/-! ### The block grid (R177) -/

/-- The present block and sample of the timebase. -/
def nowBlock (s : State) : Nat := nowNs s / 1000000
def nowSample (s : State) : Nat := nowNs s * 48 / 1000000

/-- The ns at which a sample starts. -/
def sampleNs (k : Nat) : Nat := (k * 1000000 + 47) / 48

/-! ### Access -/

def confOf (s : State) (c : Nat) : Conf := (Tbl.get? s.confs c).getD {}
def modConf (c : Nat) (f : Conf → Conf) (s : State) : State := { s with confs := Tbl.modify s.confs c f }
def modLeg (i : Nat) (f : Leg → Leg) (s : State) : State := { s with legs := Tbl.modify s.legs i f }
def mixOf (s : State) (i : Nat) : MixLeg := Tbl.getD s.audio.legs i {}
def modMix (i : Nat) (f : MixLeg → MixLeg) (s : State) : State :=
  { s with audio.legs := Tbl.upd s.audio.legs i {} f }
def modBus (b : Nat) (f : Bus → Bus) (s : State) : State := { s with audio.buses := Tbl.modify s.audio.buses b f }
def jitOf (s : State) (i : Nat) : Jitter := Tbl.getD s.audio.jitter i {}
def modJit (i : Nat) (f : Jitter → Jitter) (s : State) : State :=
  { s with audio.jitter := Tbl.upd s.audio.jitter i {} f }

def legH (i : Nat) : Word := mkH 2 i
def confH (c : Nat) : Word := mkH 3 c

/-- The bus numbered `b` of conference `c`, device-wide. -/
def busOf (s : State) (c b : Nat) : Nat := (confOf s c).firstBus + b

/-- A leg that sends coded audio (Table 1-1). -/
def Leg.coded (l : Leg) : Bool := decide (l.type < 2)

/-! ### Ramps -/

/-- The gain at sample `j` from now. -/
def Ramp.at_ (r : Ramp) (j : Nat) : Rat :=
  if j < r.wait then r.cur
  else if r.left ≤ j - r.wait then r.goal
  else r.cur + (r.goal - r.cur) * ((j - r.wait : Nat) : Rat) / (r.left : Rat)

/-- `n` samples pass. -/
def Ramp.pass (n : Nat) (r : Ramp) : Ramp :=
  if n ≤ r.wait then { r with wait := r.wait - n }
  else { r with cur := r.at_ n, left := r.left - (n - r.wait), wait := 0 }

/-- A move to `g` over `n` samples that starts `w` samples from now, from the gain reached then. -/
def Ramp.moveTo (g : Rat) (n w : Nat) (r : Ramp) : Ramp :=
  if n = 0 ∧ w = 0 then { cur := g, goal := g } else { cur := r.at_ w, goal := g, left := n, wait := w }

/-- A move to `g` over `n` samples that starts at the next block boundary. -/
def Ramp.nextTo (g : Rat) (n : Nat) (r : Ramp) : Ramp := { r with next := some (g, n) }

/-- A block boundary: the move that waits for it starts. -/
def Ramp.boundary (r : Ramp) : Ramp :=
  match r.next with
  | some (g, n) => { r.moveTo g n 0 with next := none }
  | none => r

/-- Whether the gain differs from zero somewhere in the coming block. -/
def Ramp.live (r : Ramp) : Bool := r.cur != 0 || (r.goal != 0 && decide (r.wait < 48))

/-- Whether the gain rests at zero for good. -/
def Ramp.dead (r : Ramp) : Bool := r.cur == 0 && r.goal == 0 && r.next.isNone

/-- Samples from the start of the next block to be mixed to sample `k`. -/
def untilSample (s : State) (k : Nat) : Nat :=
  k - 48 * (match s.audio.lastBlock with
    | some b => b + 1
    | none => nowBlock s)

/-! ### G(n) (R190) -/

/-- The attenuation 10·log₁₀ n to the nearest 0.25 dB: the k for which 40·log₁₀ n lies from k − ½ on. -/
def attQ (n : Nat) : Nat := ((List.range 160).filter fun k => decide (10 ^ (2 * k + 1) ≤ n ^ 80)).length

/-! ### Classes (R180, R194) -/

/-- The effective rate of a coding in kbit/s (Table 8-2). -/
def effRate (codec channels tier : Nat) : Nat :=
  match codec with
  | 0 => if channels = 2 then [24, 32, 40, 48, 64, 80, 96, 128].getD tier 0
         else [12, 16, 24, 32, 40, 48, 64, 96].getD tier 0
  | 1 => [48, 56].getD tier 64
  | _ => 64

/-- Samples of a codec frame; FRAME is in 0.5 ms. -/
def frameSamples (frame : Nat) : Nat := 24 * frame

/-- What a class's members share. -/
def MixClass.same (a b : MixClass) : Bool :=
  a.bus == b.bus && a.codec == b.codec && a.rate == b.rate && a.frame == b.frame && a.channels == b.channels

/-- The class that a leg belongs to with a role and a listening bus, starting at its next frame boundary (R195). -/
def classFor (s : State) (l : Leg) (role bus : Nat) : Option MixClass :=
  if l.coded ∧ role ≠ 2 then
    let f := max 1 (frameSamples l.frame)
    some { bus, codec := l.codec, rate := effRate l.codec l.channels l.tier, frame := l.frame, channels := l.channels
           start := (nowSample s / f + 1) * f }
  else none

/-- The number of a conference's class like `m`. -/
def classNum (cf : Conf) (m : MixClass) : Option Nat := (cf.classes.find? fun e => e.2.same m).map Prod.fst

/-- Members of a class, and those that cross towards it. -/
def classUsers (s : State) (c k : Nat) : List Nat :=
  ((confOf s c).members ++ (confOf s c).leaving).filter fun i =>
    (mixOf s i).cls == some k || (mixOf s i).toClass == some k

/-- A conference takes the class `m`: the one it has, or a new one under the lowest free number (R194). -/
def takeClass (c : Nat) (m : MixClass) (s : State) : Nat × State :=
  let cf := confOf s c
  match classNum cf m with
  | some k => (k, modConf c (fun cf => { cf with classes := Tbl.modify cf.classes k (fun m => { m with freeAt := none }) }) s)
  | none =>
    let k := (Tbl.lowestFree cf.classes 0 32).getD 32
    (k, modConf c (fun cf => { cf with classes := Tbl.put cf.classes k m }) s)

/-- A class left without a member is freed at the end of its current frame (R194). -/
def settleClass (c k : Nat) (s : State) : State :=
  if classUsers s c k = [] then
    modConf c (fun cf => { cf with classes := Tbl.modify cf.classes k (fun m => { m with freeAt := some (m.freeAt.getD m.start) }) }) s
  else s

/-! ### Admission (R18, R20) -/

/-- The pools' answer to a change: what is drawn after it; `beyond`: a conference is beyond its 32 classes. -/
def admitChange (s s' : State) (beyond : Bool) : Option Err :=
  match shortIn s (drawn s) (drawn s') with
  | some d => some (noResource (if beyond then min d 4 else d))
  | none => if beyond then some (noResource 4) else admission s (drawn s')

/-- Whether a conference has more classes than it may. -/
def overClasses (s : State) (c : Nat) : Bool := decide (32 < (confOf s c).classes.length)

/-! ### VCA placement (R178) -/

/-- Streams on the decode side of the engines. -/
def vcaDecodes (s : State) : List Placed :=
  s.audio.jitter.filterMap fun e =>
    match Tbl.get? s.legs e.1 with
    | some l => if e.2.decEngine ≠ 0x7F then some ⟨e.1, e.2.decEngine, legWeight l⟩ else none
    | none => none

/-- Streams on the encode side: individual encodes by leg, class encodes by 2¹⁴ + conference × 32 + class. -/
def vcaEncodes (s : State) : List Placed :=
  (s.audio.jitter.filterMap fun e =>
    match Tbl.get? s.legs e.1 with
    | some l => if e.2.encEngine ≠ 0x7F then some ⟨e.1, e.2.encEngine, legWeight l⟩ else none
    | none => none)
  ++ s.confs.flatMap (fun e => e.2.classes.map fun k =>
      ⟨16384 + 32 * e.1 + k.1, k.2.engine, codecWeight k.2.codec k.2.frame k.2.channels⟩)

/-- What one engine serves, in codec units. -/
def vcaCap (s : State) : Nat := 4096 * scaleOf s / 65536

/-- A leg's decode is placed whole on an engine. -/
def placeDecode (i weight : Nat) (s : State) : State :=
  let (l, s) := placeUser (enginesIn s 0x0A .inService) (vcaCap s) 16384 (vcaDecodes s) i weight s
  l.foldl (fun s p => modJit p.user (fun j => { j with decEngine := p.engine }) s) s

/-- An encode is placed whole on an engine. -/
def placeEncode (user weight : Nat) (s : State) : State :=
  let (l, s) := placeUser (enginesIn s 0x0A .inService) (vcaCap s) 16384
    ((vcaEncodes s).filter (fun p => p.user != user)) user weight s
  l.foldl (fun s p =>
    if p.user < 16384 then modJit p.user (fun j => { j with encEngine := p.engine }) s
    else modConf ((p.user - 16384) / 32) (fun cf => { cf with
      classes := Tbl.modify cf.classes ((p.user - 16384) % 32) (fun m => { m with engine := p.engine }) }) s) s

/-! ### Joining, leaving, changing class -/

/-- A member moves to the class of its role, listening bus and coding. An ACTIVE member crosses over one individual
frame (R199); any other changes at once. Where it gains or loses its class it leaves the talker set. -/
def reclass (c i : Nat) (s : State) : State :=
  match Tbl.get? s.legs i with
  | none => s
  | some l =>
    let m := mixOf s i
    let fresh := classFor s l l.role m.bus
    match m.cls, fresh with
    | none, none => s
    | none, some x =>
      let isNew := (classNum (confOf s c) x).isNone
      let (k, s) := takeClass c x s
      let s := if isNew then placeEncode (16384 + 32 * c + k) (codecWeight x.codec x.frame x.channels) s else s
      let s := modConf c (fun cf => { cf with talkers := cf.talkers.filter (· != i) }) s
      modMix i (fun m => { m with cls := some k, phase := .none, talk := m.talk.nextTo 0 (confOf s c).crossfade }) s
    | some old, none =>
      let s := modMix i (fun m => { m with cls := none, toClass := none, phase := .none, talk := m.talk.nextTo 0 (confOf s c).crossfade }) s
      let s := modJit i (fun j => { j with encEngine := 0x7F }) s
      settleClass c old (modConf c (fun cf => { cf with talkers := cf.talkers.filter (· != i) }) s)
    | some old, some x =>
      let isNew := (classNum (confOf s c) x).isNone
      let (k, s) := takeClass c x s
      if k = old then modMix i (fun m => { m with toClass := none }) s
      else
        let s := if isNew then placeEncode (16384 + 32 * c + k) (codecWeight x.codec x.frame x.channels) s else s
        let gone := m.toClass
        let s := if l.state = .active then modMix i (fun m => { m with toClass := some k }) s
          else settleClass c old (modMix i (fun m => { m with cls := some k, toClass := none }) s)
        match gone with
        | some g => settleClass c g s
        | none => s

/-- The contribution of a leg moves over the route crossfade from the next block boundary (R203). -/
def fadeLeg (i : Nat) (goal : Rat) (s : State) : State :=
  match (Tbl.get? s.legs i).bind Leg.conf with
  | some c => modMix i (fun m => { m with fade := m.fade.nextTo goal (confOf s c).crossfade }) s
  | none => s

/-- Whether a receive slot of a port is enabled. -/
def slotOn (masks : List Nat) (ch : Nat) : Bool := bit (masks.getD (ch / 32) 0) (ch % 32)

/-- Whether a TDM leg's port gives it nothing: faded in HOLD, stopping, or every channel masked off (R239, R243, R244). -/
def portMute (s : State) (l : Leg) : Bool :=
  let p : AspPort := Tbl.getD s.asp.ports (hIdx l.attach) {}
  l.type == 2 && (p.faded || p.stopping.isSome || (List.range l.channels).all fun k => !slotOn p.rxMask (l.attachChan + k))

/-- Where a leg's contribution should stand: full while it is ACTIVE, not muted and not faded under R186. -/
def fadeGoal (s : State) (l : Leg) (m : MixLeg) : Rat :=
  if l.state = .active && !m.muted && !m.dropped && !portMute s l then 1 else 0

/-- The leg's contribution moves to where it should stand. -/
def refade (i : Nat) (s : State) : State :=
  match Tbl.get? s.legs i with
  | some l => fadeLeg i (fadeGoal s l (mixOf s i)) s
  | none => s

/-- A leg that still fades in a conference it left is forgotten there. -/
def dropLeaving (i : Nat) (s : State) : State :=
  let had := s.confs.filter fun e => e.2.leaving.contains i
  let s := { s with confs := Tbl.each s.confs (fun _ cf => { cf with
    leaving := cf.leaving.filter (· != i), talkers := if cf.leaving.contains i then cf.talkers.filter (· != i) else cf.talkers }) }
  let m := mixOf s i
  let s := modMix i (fun m => { m with cls := none, toClass := none }) s
  let s := modJit i (fun j => { j with encEngine := 0x7F }) s
  had.foldl (fun s e => [m.cls, m.toClass].foldl (fun s o => match o with
    | some k => settleClass e.1 k s
    | none => s) s) s

/-- A leg joins a conference with a role (R414). -/
def joinConf (c i role : Nat) (s : State) : State :=
  let s := if Tbl.has s.audio.legs i then dropLeaving i s else s
  let s := modLeg i (fun l => { l with conf := some c, role }) s
  let s := modConf c (fun cf => { cf with members := (cf.members.filter (· < i)) ++ i :: (cf.members.filter (i < ·)) }) s
  refade i (reclass c i { s with audio.legs := Tbl.put s.audio.legs i {} })

/-- A leg leaves its conference: its contribution fades, and its feeds end with it. -/
def leaveConf (i : Nat) (s : State) : State :=
  match (Tbl.get? s.legs i).bind Leg.conf with
  | none => s
  | some c =>
    let s := fadeLeg i 0 s
    let s := modLeg i (fun l => { l with conf := none }) s
    let xf := (confOf s c).crossfade
    let s := { s with audio.buses := Tbl.each s.audio.buses (fun _ b =>
      if b.conf = c then { b with feeds := b.feeds.map fun f =>
        if f.kind = 1 ∧ f.src = i then { f with gone := true, gain := f.gain.nextTo 0 xf } else f } else b) }
    modConf c (fun cf => { cf with members := cf.members.filter (· != i), leaving := cf.leaving ++ [i] }) s

/-! ### Talker selection (R192, R193) -/

/-- A member is a candidate. -/
def candidate (s : State) (i : Nat) : Bool :=
  match Tbl.get? s.legs i with
  | some l => l.state == .active && l.role != 1 && !(mixOf s i).muted && !(mixOf s i).dropped
  | none => false

/-- Before in the order loudest first, the lower index among equals. -/
def louder (s : State) (a b : Nat) : Bool :=
  decide ((mixOf s b).level < (mixOf s a).level) || ((mixOf s a).level == (mixOf s b).level && decide (a < b))

/-- Insert into a list ordered by `lt`. -/
def insertBy (lt : Nat → Nat → Bool) (x : Nat) : List Nat → List Nat
  | [] => [x]
  | y :: t => if lt x y then x :: y :: t else y :: insertBy lt x t

/-- A list ordered by `lt`. -/
def sortBy (lt : Nat → Nat → Bool) (l : List Nat) : List Nat := l.foldr (insertBy lt) []

/-- The first in the order of `lt`. -/
def firstBy (lt : Nat → Nat → Bool) (l : List Nat) : Option Nat := (sortBy lt l).head?

/-- Quieter, the lower index among equals. -/
def quieter (s : State) (a b : Nat) : Bool :=
  decide ((mixOf s a).level < (mixOf s b).level) || ((mixOf s a).level == (mixOf s b).level && decide (a < b))

/-- The second loop of R192: each newcomer against the quietest active talker that is not forced. -/
def contend (s : State) (hyst : Int) (soft : Nat → Bool) : List Nat → List Nat → List Nat
  | [], set => set
  | c :: new, set =>
    match firstBy (quieter s) (set.filter soft) with
    | some q =>
      if (mixOf s c).level ≥ (mixOf s q).level + 4 * hyst then contend s hyst soft new (set.filter (· != q) ++ [c])
      else contend s hyst soft new set
    | none => contend s hyst soft new set

/-- Drop the quietest that are not forced until `k` are left (R193). -/
def cutTo (s : State) (k : Nat) (forced : Nat → Bool) : Nat → List Nat → List Nat
  | 0, set => set
  | fuel + 1, set =>
    if set.length ≤ k then set
    else
      match firstBy (quieter s) (set.filter fun i => !forced i) with
      | some q => cutTo s k forced fuel (set.filter (· != q))
      | none => set

/-- The talker set that a conference selects at the end of block `n` (R192). -/
def selectTalkers (s : State) (cf : Conf) (n : Nat) : List Nat :=
  let cand := cf.members.filter (candidate s)
  let forced := cand.filter fun i => (mixOf s i).forced
  let active := fun i => cand.contains i && decide (cf.thresh ≤ (mixOf s i).level)
  let set := forced ++ cf.talkers.filter (fun t => !forced.contains t && active t)
  let new := sortBy (louder s) (cand.filter fun i => active i && !set.contains i)
  let recent := fun i => ((mixOf s i).lastActive.getD 0)
  let held := sortBy (fun a b => decide (recent b < recent a) || (recent a == recent b && decide (a < b)))
    (cf.talkers.filter fun t => cand.contains t && !active t && !forced.contains t
      && match (mixOf s t).lastActive with
         | some b => decide (n - b < cf.hold)
         | none => false)
  let room := cf.k - set.length
  let set1 := contend s cf.hyst (fun i => active i && !forced.contains i) (new.drop room) (set ++ new.take room)
  let set2 := set1 ++ held.take (cf.k - set1.length)
  cutTo s cf.k forced.contains set2.length set2

/-- Whether a talker is in the set and past its entry (MIX_L_TALK.TALKER). -/
def isTalker (s : State) (cf : Conf) (i : Nat) : Bool :=
  cf.talkers.contains i && (mixOf s i).phase != .pending && (mixOf s i).phase != .none

/-- The talkers of a conference, those that wait left out. -/
def talkerCount (s : State) (cf : Conf) : Nat := (cf.talkers.filter (isTalker s cf)).length

/-- MIX_TALKERS for a leg that enters or leaves (0xFFFF: none), where the plan asks for it. -/
def noteTalkers (c : Nat) (enter leave_ block : Nat) (s : State) : State :=
  if bit (confOf s c).pflags 2 then
    raiseUnless R.MIX_EVENT_MASK 0 Ev.MIX_TALKERS (confH c)
      (leN enter 2 ++ leN leave_ 2 ++ leN (talkerCount s (confOf s c)) 1 ++ leN 0 3 ++ leN block 4) s
  else s

/-- Individual encodes that run in a conference (R199). -/
def encodesRunning (s : State) (c : Nat) : Nat :=
  ((((confOf s c).members ++ (confOf s c).leaving).filter fun i =>
    (mixOf s i).cls.isSome && match (mixOf s i).phase with
      | .entering | .talker | .leaving | .crossing => true
      | _ => false)).length

/-- Whether a member waits as pending for a free individual encode (MIX_L_TALK.PENDING, R199). -/
def legStarved (m : MixLeg) : Bool := m.phase == .pending && m.starved.isSome

/-- Newcomers that found an individual encode free and wait for their crossing instant (R197). -/
def encodesPromised (s : State) (c : Nat) : Nat :=
  ((confOf s c).members.filter fun i => (mixOf s i).phase == .pending && (mixOf s i).starved.isNone).length

/-- A leg without a class enters or leaves the talker set over the crossfade (notes/assumptions/31.md). -/
def enterPlain (c i n xf : Nat) (s : State) : State :=
  let s := modMix i (fun m => { m with phase := .talker, since := n, talk := m.talk.nextTo 1 xf }) s
  noteTalkers c i 0xFFFF (n + 1) (bump (winKey R.MIX_L_ENTRIES i) s)

/-- A newly selected talker waits for its crossing instant, as pending where it finds no encode free (R199), or enters at once where it has no class. -/
def enterTalker (c n xf : Nat) (s : State) (i : Nat) : State :=
  let m := mixOf s i
  match m.cls, m.phase with
  | none, .talker => s
  | none, _ => enterPlain c i n xf s
  | some _, .none =>
    let starved := if encodesRunning s c + encodesPromised s c < (confOf s c).k then none else some n
    modMix i (fun m => { m with phase := .pending, since := n, starved }) s
  | some _, .crossing => s
  | some _, .leaving => if m.talk.goal = 1 then modMix i (fun m => { m with phase := .talker }) s else s
  | some _, _ => s

/-- A talker that the selection drops leaves over its next frame (R198); one that waited is withdrawn (R199). -/
def dropTalker (c n xf : Nat) (s : State) (i : Nat) : State :=
  let m := mixOf s i
  match m.cls, m.phase with
  | none, .talker =>
    let s := modMix i (fun m => { m with phase := .none, talk := m.talk.nextTo 0 xf }) s
    noteTalkers c 0xFFFF i (n + 1) s
  | some _, .pending => modMix i (fun m => { m with phase := .none }) s
  | some _, .entering => modMix i (fun m => { m with phase := .leaving }) s
  | some _, .talker => modMix i (fun m => { m with phase := .leaving }) s
  | _, _ => s

/-- Each conference selects its talkers at the end of block `n`. -/
def selectAll (n : Nat) (s : State) : State :=
  s.confs.foldl (fun s e =>
    let c := e.1
    let cf := confOf s c
    let set := selectTalkers s cf n
    let old := cf.talkers
    let same := set.all old.contains && old.all set.contains
    let s := modConf c (fun cf => { cf with talkers := set }) s
    let s := if same then s else bump (winKey R.MIX_C_CHANGES c) s
    let s := (old.filter (fun i => !set.contains i)).foldl (dropTalker c n cf.crossfade) s
    (set.filter (fun i => !old.contains i)).foldl (enterTalker c n cf.crossfade) s) s

/-- A leg that left is forgotten once it has faded and its encode is freed; its feeds go with it. -/
def forgetLeft (s : State) : State :=
  s.confs.foldl (fun s e =>
    let done := (confOf s e.1).leaving.filter fun i =>
      (mixOf s i).fade.dead && ((mixOf s i).phase == .none || (mixOf s i).cls.isNone)
    done.foldl (fun s i =>
      let m := mixOf s i
      let s := modConf e.1 (fun cf => { cf with leaving := cf.leaving.filter (· != i) }) s
      let s := if ((Tbl.get? s.legs i).bind Leg.conf).isNone then
          { s with audio.legs := Tbl.del s.audio.legs i, audio.outputs := Tbl.del s.audio.outputs i }
        else s
      [m.cls, m.toClass].foldl (fun s o => match o with
        | some k => settleClass e.1 k s
        | none => s) s) s) s

end Sys2Proof.Machine
end

