-- ==== Sys2Proof/Machine/LegOps.lean ====
section
/-! DEFINITION. Machine/LegOps.lean: the states of a leg, and how a closing leg lets go of what it owns
(R13–R15). -/

namespace Sys2Proof.Machine

/-- The number of a leg state in LEG_STATE (R15); a leg not listed is FREE, 0. -/
def LegState.num : LegState → Nat
  | .ready => 1
  | .active => 2
  | .held => 3
  | .closing => 4

/-- LEG_STATE (R15). -/
def legEvent (i old new reason : Nat) (s : State) : State :=
  raise Ev.LEG_STATE (legH i) (leN old 1 ++ leN new 1 ++ leN reason 2) s

/-- Whether a leg's attachment is present (Tables 1-3 and 10-1): a station AUTHORIZED, a port not DISABLED. -/
def attached (s : State) (l : Leg) : Bool :=
  match l.type with
  | 1 => ((Tbl.get? s.wlan.stas (hIdx l.attach)).map Sta.state) == some .authorized
  | 2 => (Tbl.getD s.asp.ports (hIdx l.attach) {}).phase != .disabled
  | _ => true

/-- The jitter buffer empties and waits for a new anchor (R182). -/
def idleJitter (i : Nat) (s : State) : State :=
  if Tbl.has s.audio.jitter i then
    modJit i (fun j => { j with phase := .idle, pkts := [], released := [], played := [], lastSeq := none, earlyRun := 0
                                driftAt := none, conceal := 0, longSaid := false, lateness := [] })
      (modMix i (fun m => { m with dropped := false }) s)
  else s

/-- An ACTIVE leg goes to HELD without a command on it, for a reason (R13, R15). -/
def holdLeg (i reason : Nat) (s : State) : State :=
  match (Tbl.get? s.legs i).map Leg.state with
  | some .active =>
    let s := modLeg i (fun l => { l with state := .held }) s
    legEvent i 2 3 reason (refade i (idleJitter i s))
  | _ => s

/-- The legs attached to a station lose it (ATTACH_LOST). -/
def attachLost (sta : Nat) (s : State) : State :=
  ((s.legs.filter fun e => e.2.type == 1 && hIdx e.2.attach == sta).map Prod.fst).foldl (fun s i => holdLeg i 1 s) s

/-! ### Closing (R14) -/

/-- The flows and key slots that a leg owns. -/
def ownFlows (s : State) (i : Nat) : List Nat := (s.pkt.flows.filter fun e => e.2.owner == legH i).map Prod.fst
def ownKeys (s : State) (i : Nat) : List Nat := (s.keys.filter fun e => e.2.owner == legH i).map Prod.fst

/-- A closing leg lets go of the next of its resources, in R14's order: its conference at the block boundary, its
forward set at switch points, its flows by their drain, its key slots by erase. -/
def legAdvance (i : Nat) (s : State) : State :=
  match Tbl.get? s.legs i with
  | none => s
  | some l =>
    if l.state ≠ .closing ∨ l.conf.isSome then s
    else if ((Tbl.get? s.video.fwd i).map FwdSet.entries).getD [] ≠ [] then s
    else
      let flows := ownFlows s i
      if flows ≠ [] then
        (flows.filter fun f => ((Tbl.get? s.pkt.flows f).map Flow.removed) == some false).foldl (fun s f => removeFlow f s) s
      else
        ((ownKeys s i).filter fun k => (keyOf s k).eraser.isNone).foldl (fun s k => eraseSlot k (13, 0) s) s

/-- Whether a closing leg has let go of everything. -/
def legDrained (s : State) (i : Nat) : Bool :=
  match Tbl.get? s.legs i with
  | some l => l.state == .closing && l.conf.isNone && ((Tbl.get? s.video.fwd i).map FwdSet.entries).getD [] == []
      && ownFlows s i == [] && ownKeys s i == []
  | none => false

/-- Closing legs among the owners of a thing that has drained go on. -/
def ownerAdvance (owner : Word) (s : State) : State := if hCls owner = 2 then legAdvance (hIdx owner) s else s

/-- A closing leg that has let go of everything returns to FREE, and its LEG_CLOSE is answered. -/
def freeLeg (i : Nat) (s : State) : State :=
  match Tbl.get? s.legs i with
  | none => s
  | some l =>
    let s := { s with
      legs := Tbl.del s.legs i, audio.jitter := Tbl.del s.audio.jitter i, video.fwd := Tbl.del s.video.fwd i
      power.reinstall := s.power.reinstall.filter (fun e => e.2.2.2 != legH i && e.1 != (legH i).toNat) }
    let s := leaveLeases (mkH 9 i) (leaveLeases (legH i) s)
    match l.closer with
    | some (rs, tag) => finishRunning rs tag St.OK 0 1 [] s
    | none => s

end Sys2Proof.Machine
end

