-- ==== Sys2Proof/Machine/Packet.lean ====
section
/-! DEFINITION. Machine/Packet.lean: the commands of the packet engine (R148–R164, R175, R416). -/

namespace Sys2Proof.Machine

/-! ### Ethernet ports (R148, R150, R152) -/

/-- The state of port `p`. -/
def ethOf (s : State) (p : Nat) : EthPort := Tbl.getD s.pkt.ports p {}

/-- Change a port. -/
def modEth (p : Nat) (f : EthPort → EthPort) (s : State) : State :=
  { s with pkt.ports := Tbl.upd s.pkt.ports p {} f }

/-- The sub-ports of a mode (Table 7-1). -/
def subPorts : Nat → List Nat
  | 1 => [0]
  | 2 => [0, 1]
  | 3 => [0, 1, 2, 3]
  | _ => []

/-- Whether interface `i` is a sub-port of its port's mode. -/
def ifaceExists (s : State) (i : Nat) : Bool := decide (i < 32) && (subPorts (ethOf s (i / 4)).mode).contains (i % 4)

/-- Whether an interface's link is up. -/
def ifaceUp (s : State) (i : Nat) : Bool := ifaceExists s i && (ethOf s (i / 4)).up.getD (i % 4) false

/-- A counter of a port as its sub-port's window shows it (Table 7-17). -/
def ethCtr (r iface : Nat) : Nat := winKey (r + 0x100 * (iface / 4)) (iface % 4)

/-- Whether an EGRESS entry, a route or a MACsec association names an interface. -/
def ifaceNamed (s : State) (i : Nat) : Bool :=
  s.pkt.flows.any (fun f => !f.2.removed
      && ((f.2.kind == 4 && ((Tbl.get? s.pkt.laddrs (f.2.byte 9)).map LAddr.iface) == some i)
        || (f.2.kind == 6 && f.2.ctx.head? == some (BitVec.ofNat 8 i))))
    || ((Tbl.get? s.pkt.secys i).map (fun y => y.tx != [] || y.rx != [])).getD false

/-- PORT_CONFIG (R148, Table 7-10). A change of mode is answered when every sub-port is up, or after 2 s. -/
def portConfigPlan (c : Cmd) (s : State) : Plan :=
  let p := c.params
  let n := u8 p 0
  let mode := u8 p 1
  let old := (ethOf s n).mode
  let gone := (subPorts old).filter (fun k => !(subPorts mode).contains k)
  { op := 0x0A01, handleOk := handleDev c.handle, touches := [devH], len := some 16
    state := if n < 8 ∧ gone.any (fun k => ifaceNamed s (4 * n + k)) then some (wrongState 1) else none
    param := firstBad
      [ (decide (n < 8), badParam 0), (decide (mode < 4), badParam 1), (decide (u8 p 2 < 32), badParam 2)
      , (decide (1518 ≤ u16 p 4) && decide (u16 p 4 ≤ 9216), badParam 4) ]
    run := fun s =>
      let s' := modEth n (fun e =>
        { e with mode, pflags := u8 p 2, mtu := u16 p 4, eapol := u16 p 6, mac := slice p 8 6 }) s
      if mode = old then .ok s'
      else
        let s' := (subPorts old).foldl (fun s k =>
          if (ethOf s n).up.getD k false then
            raiseUnless R.PKT_EVENT_MASK 0 Ev.ETH_LINK 0 (leN (4 * n + k) 1 ++ leN 0 1 ++ leN 3 1)
              (bump (ethCtr R.PKT_P_LINK_DOWNS (4 * n + k)) s)
          else s) s'
        let s' := modEth n (fun e => { e with up := [false, false, false, false] }) s'
        if mode = 0 then .ok s'
        else .defer { s' with pkt.portCmds := s'.pkt.portCmds ++ [(c.rs, c.tag, n, s'.clock.cycles)] } }

/-- PORT_CONFIG (R148). -/
def execPortConfig (c : Cmd) (s : State) : Out := .next (hostCmd 0x0A01 portConfigPlan c s)

/-- A PORT_CONFIG of port `n` whose sub-ports are all up, or whose 2 s are over, is answered. -/
def finishPort (n : Nat) (always : Bool) (s : State) : State :=
  if always || (subPorts (ethOf s n).mode).all (fun k => (ethOf s n).up.getD k false) then
    (s.pkt.portCmds.filter (fun w => w.2.2.1 == n)).foldl (fun s w => finishRunning w.1 w.2.1 St.OK 0 1 [] s)
      { s with pkt.portCmds := s.pkt.portCmds.filter (fun w => w.2.2.1 != n) }
  else s

/-- The PORT_CONFIG commands whose 2 s are over are answered. -/
def portTimeouts (s : State) : State :=
  (s.pkt.portCmds.filter fun w => decide (w.2.2.2 + msCycles 2000 ≤ s.clock.cycles)).foldl (fun s w => finishPort w.2.2.1 true s) s

/-- The lanes word of PKT_P_LANES that the lane-map record gives for port `n` (Table 7-2): logical lane k in
order bits 2k + 1 … 2k, polarity in bit k, receive below transmit. -/
def recordLanes (p : List Byte) (n : Nat) : Nat :=
  let order := fun o => ((List.range 4).map (fun k => u8 p (o + k) % 4 * 4 ^ k)).foldl (· + ·) 0
  let pol := fun o => ((List.range 4).map (fun k => u8 p (o + k) / 128 * 2 ^ k)).foldl (· + ·) 0
  order (8 * n + 4) + 256 * order (8 * n) + 65536 * pol (8 * n + 4) + 1048576 * pol (8 * n)

/-- ETH_LINK (R150, R152): a sub-port's link goes down or comes up, with the wiring that training detected. -/
def ethLink (iface : Nat) (up : Bool) (cause lanes : Nat) (record : Option (List Byte)) (s : State) : State :=
  if ¬ ifaceExists s iface then s
  else
    let n := iface / 4
    let was := (ethOf s n).up.getD (iface % 4) false
    let s := modEth n (fun e => { e with
      up := e.up.set (iface % 4) up
      fault := [decide (cause = 1) && !up, decide (cause = 2) && !up]
      lanes := if up then lanes % 16777216 + 16777216 * b2n (record.all (fun r => recordLanes r n == lanes % 16777216)) else e.lanes }) s
    let s := if was && !up then bump (ethCtr R.PKT_P_LINK_DOWNS iface) s else s
    let s := if was = up then s
      else raiseUnless R.PKT_EVENT_MASK 0 Ev.ETH_LINK 0 (leN iface 1 ++ leN (b2n up) 1 ++ leN cause 1) s
    let want := (record.map (fun r => recordLanes r n)).getD (lanes % 16777216)
    let corrected := fun (dir : Nat) (s : State) =>
      let o := bits lanes (8 * dir + 7) (8 * dir)
      let q := bits lanes (4 * dir + 19) (4 * dir + 16)
      if o = bits want (8 * dir + 7) (8 * dir) ∧ q = bits want (4 * dir + 19) (4 * dir + 16) then s
      else raise Ev.ETH_LANE_CORRECTED 0 (leN n 1 ++ leN dir 1 ++ leN o 1 ++ leN q 1) s
    let s := if up then corrected 1 (corrected 0 s) else s
    finishPort n false s

/-- The 64-bit counters of a sub-port, in offset order (Table 7-17). -/
def portCounters : List Nat :=
  [ R.PKT_P_RX_FRAMES, R.PKT_P_RX_BYTES, R.PKT_P_TX_FRAMES, R.PKT_P_TX_BYTES, R.PKT_P_RX_FCS_ERR, R.PKT_P_RX_LEN_ERR
  , R.PKT_P_RX_VLAN_DROP, R.PKT_P_RX_PAUSE_IGNORED, R.PKT_P_FEC_CORRECTED, R.PKT_P_FEC_UNCORRECTABLE
  , R.PKT_P_RX_BUF_DROPS, R.PKT_P_TX_DOWN_DROPS, R.PKT_P_MACSEC_IN_OK, R.PKT_P_MACSEC_IN_NOT_VALID
  , R.PKT_P_MACSEC_IN_LATE, R.PKT_P_MACSEC_IN_NO_SA, R.PKT_P_MACSEC_IN_UNTAGGED_DROP, R.PKT_P_MACSEC_OUT_PROTECTED
  , R.PKT_P_LINK_DOWNS ]

/-- PKT_P_CTRL and PKT_P_STATUS as Table 7-17 lays them out; auto-negotiation is complete and the FEC locked
where a sub-port is up. -/
def ethCtrl (e : EthPort) : Nat := e.mode + 4 * e.pflags + 65536 * e.mtu
def ethStatus (e : EthPort) : Nat :=
  let ups := ((List.range 4).map (fun k => b2n (e.up.getD k false && (subPorts e.mode).contains k) * 2 ^ k)).foldl (· + ·) 0
  let lanes := ((List.range 4).map (fun l =>
    b2n (match e.mode with | 1 => e.up.getD 0 false | 2 => e.up.getD (l / 2) false | 3 => e.up.getD l false | _ => false) * 2 ^ l)).foldl (· + ·) 0
  ups + 16 * (if bit e.pflags 0 then ups else 0) + 256 * lanes + 4096 * b2n (e.fault.getD 0 false) + 8192 * b2n (e.fault.getD 1 false)

/-- PORT_QUERY; its parameter length is not given (notes/assumptions/12.md). -/
def portQueryPlan (c : Cmd) (_ : State) : Plan :=
  let n := u8 c.params 0
  { Plan.query 0x0A02 false (handleDev c.handle) 0 (firstBad [(decide (n < 8), badParam 0)]) fun s =>
      let e := ethOf s n
      recordAnswer (leN (ethCtrl e) 4 ++ leN (ethStatus e) 4 ++ leN e.lanes 4
        ++ (List.range 4).flatMap fun k => portCounters.flatMap fun r => leN (rgRaw s (ethCtr r (4 * n + k))) 8)
    with len := none }

/-- PORT_QUERY (R175). -/
def execPortQuery (c : Cmd) (s : State) : Out := .next (hostCmd 0x0A02 portQueryPlan c s)

/-! ### Flow commands (R157, R159, R160, R175, R416) -/

/-- The first byte of `lo … hi − 1` that is not zero, where all must be. -/
def zeroFrom (e : List Byte) (lo hi : Nat) : Option Nat := (List.range (hi - lo)).findSome? fun k => if u8 e (lo + k) = 0 then none else some (lo + k)

/-- The first failing byte of a MEDIA, RTCP or FLUE key. -/
def mediaKeyBad (e : List Byte) : Option Nat :=
  firstBad [(decide (u8 e 3 < 16), 3)] <|> (if bit (u8 e 0) 4 then none else zeroFrom e 12 24)

/-- The first byte of an entry of kinds 1–5 that fails for an owner (R416); `leg` is the owner's index. -/
def entryBad (owner : Word) (e : List Byte) : Option Nat :=
  let k := entryKind e
  let leg := hIdx owner
  if k = 0 ∨ 6 ≤ k ∨ 128 ≤ u8 e 0 ∨ bits (u8 e 0) 6 5 = 3 then some 0
  else if (k = 5) ≠ (owner = devH) then some 0
  else
    match k with
    | 1 => mediaKeyBad e <|> firstBad [(u16 e 24 == leg, 24), (decide (u8 e 26 < 4), 26)] <|> zeroFrom e 27 28
    | 2 => mediaKeyBad e <|> firstBad [(u16 e 24 == leg, 24)] <|> zeroFrom e 26 32
    | 3 => zeroFrom e 1 4 <|> firstBad [(u32 e 4 == owner.toNat, 4)] <|> zeroFrom e 12 24
        <|> firstBad [(decide (1 ≤ u8 e 24) && decide (u8 e 24 ≤ 4), 24)] <|> zeroFrom e 25 32
    | 4 => zeroFrom e 1 4 <|> firstBad [(u32 e 4 == owner.toNat, 4), (decide (u8 e 8 < 16) || u8 e 8 == 255, 8)
        , (decide (u8 e 16 < 64), 16)] <|> zeroFrom e 17 24 <|> (if bit (u8 e 0) 4 then none else zeroFrom e 28 32)
    | _ => mediaKeyBad e <|> firstBad [(decide (u8 e 26 < 2), 26)] <|> zeroFrom e 27 32

/-- Cut a list of bytes into entries of 32. -/
def entriesOf (p : List Byte) : Nat → List (List Byte)
  | 0 => []
  | n + 1 => fit p 32 :: entriesOf (p.drop 32) n

/-- The first failing entry of a list: its index and byte. -/
def firstEntryBad (owner : Word) : List (List Byte) → Nat → Option (Nat × Nat)
  | [], _ => none
  | e :: t, i =>
    match entryBad owner e with
    | some b => some (i, b)
    | none => firstEntryBad owner t (i + 1)

/-- How an installation of entries ended. -/
inductive Installed where
  | done (s : State) (handles : List Nat)
  | exists_ (s : State) (handles : List Nat) (i : Nat)
  | wait (s : State) (handles : List Nat) (left : List (List Byte))

/-- Entries are installed one by one: each a progress unit (R159). One whose key is present ends the command;
one that finds the CAM full waits for the rehash (R158). -/
def installEntries (owner : Word) : List (List Byte) → List Nat → State → Installed
  | [], hs, s => .done s hs
  | e :: t, hs, s =>
    match findFlow s (entryKey e) with
    | some (i, _) => .exists_ s hs i
    | none =>
      match addFlow { bytes := e, owner } s with
      | some (i, s') => installEntries owner t (hs ++ [i]) (reinstalled 0x0A owner none s')
      | none => .wait s hs (e :: t)

/-- Bytes of a list of flow handles. -/
def flowHandles (hs : List Nat) : List Byte := hs.flatMap fun i => leN (mkH 0x0A i).toNat 4

/-- FLOW_INSTALL (R157, R175, R416, Table 7-11). -/
def flowInstallPlan (c : Cmd) (s : State) : Plan :=
  let p := c.params
  let dma := u8 p 0 == 1
  let n := u16 p 2
  let owner := c.handle
  let entries := entriesOf (if dma then c.dma else p.drop 24) n
  let bad := firstEntryBad owner entries 0
  let room := if hCls owner = 2 then legFlows ((Tbl.get? s.legs (hIdx owner)).getD {}) - flowsOwned s owner
    else 1048576 - flowsDrawn s
  let present := entries.findSome? fun e => (findFlow s (entryKey e)).map Prod.fst
  let dest := if dma then some (u64 p 16) else none
  { op := 0x0A03, handleOk := handleIn s [0x02] owner || handleDev owner, touches := [owner], exempt := true
    len := some (if dma then 24 else 24 + 32 * n)
    param := firstBad
      [ (u8 p 0 == 0 || (dma && Cmd.port c != 3), badParam 0)
      , (decide (1 ≤ n) && (dma || decide (n ≤ 126)), badParam 2)
      , (u32 p 4 == owner.toNat, badParam 4)
      , (dma || u64 p 8 == 0, badParam 8), (dma || u64 p 16 == 0, badParam 16) ]
    res := if bad.isNone ∧ room < n then some (noResource 5) else none
    run := fun s =>
      match bad, present with
      | some (i, b), _ => .reply s St.BAD_PARAM (if dma then b else 24 + 32 * i + b) 0 (leN i 4)
      | none, some i => .reply s St.FLOW_KEY_EXISTS 0 0 (leN (mkH 0x0A i).toNat 4)
      | none, none =>
        match installEntries owner entries [] s with
        | .done s hs => match dest with
          | some a => .reply (emit (.hostMem (Cmd.port c) a (flowHandles hs)) s) St.OK 0 hs.length []
          | none => .reply s St.OK 0 hs.length (flowHandles hs)
        | .exists_ s hs i => .reply s St.FLOW_KEY_EXISTS 0 hs.length (leN (mkH 0x0A i).toNat 4)
        | .wait s hs left => .defer { s with pkt.installWait := s.pkt.installWait ++
            [{ rs := c.rs, tag := c.tag, owner, entries := left, handles := hs, dma := dest }] } }

/-- FLOW_INSTALL (R159). -/
def execFlowInstall (c : Cmd) (s : State) : Out := .next (hostCmd 0x0A03 flowInstallPlan c s)

/-- A FLOW_INSTALL that waited goes on. -/
def resumeInstall (s : State) (w : InstallWait) : State :=
  match installEntries w.owner w.entries w.handles s with
  | .done s hs => match w.dma with
    | some a => finishRunning w.rs w.tag St.OK 0 hs.length [] (emit (.hostMem (portOf w.rs) a (flowHandles hs)) s)
    | none => finishRunning w.rs w.tag St.OK 0 hs.length (flowHandles hs) s
  | .exists_ s hs i => finishRunning w.rs w.tag St.FLOW_KEY_EXISTS 0 hs.length (leN (mkH 0x0A i).toNat 4) s
  | .wait s hs left => { s with pkt.installWait := s.pkt.installWait ++ [{ w with entries := left, handles := hs }] }

/-- FLOW_REHASH_END (R158): the entries of the way under rehash stand under its fresh seed, entries of the
CAM that find a place leave it, and waiting installs go on. -/
def rehashEnd (s : State) : State :=
  match s.pkt.rehash with
  | none => s
  | some (w, seed) =>
    let s := (Tbl.keys s.pkt.flows).foldl (rehashEntry w) s
    let s := (Tbl.keys s.pkt.flows).foldl leaveCam s
    let s := bump R.PKT_REHASHES { s with pkt.seeds := s.pkt.seeds.set w seed, pkt.rehash := none }
    let s := raise Ev.FLOW_REHASH 0 (leN 1 1 ++ leN w 1 ++ leN 0 2 ++ leN s.pkt.moved 4 ++ leN (camUsed s) 4) s
    let waiting := s.pkt.installWait
    startRehash (waiting.foldl resumeInstall { s with pkt.installWait := [] })

/-- FLOW_REHASH_END (R158). -/
def execFlowRehashEnd (s : State) : Out := .next (rehashEnd s)

/-- The bytes of a flow entry after a FLOW_MODIFY: mask bit n selects byte 24 + n, bits 8–22 bytes 9–23 (R175). -/
def modifiedEntry (e p : List Byte) : List Byte :=
  let mask := u32 p 8
  (List.range 32).map fun k =>
    if 24 ≤ k ∧ bit mask (k - 24) then p.getD (k - 24) 0
    else if 9 ≤ k ∧ k < 24 ∧ bit mask (k - 1) then p.getD (k + 7) 0
    else e.getD k 0

/-- The parameter offset at which FLOW_MODIFY carries an entry byte. -/
def modifyOffset (b : Nat) : Nat := if 24 ≤ b then b - 24 else b + 7

/-- FLOW_MODIFY (R160, R175). -/
def flowModifyPlan (c : Cmd) (s : State) : Plan :=
  let p := c.params
  let i := hIdx c.handle
  let f := (Tbl.get? s.pkt.flows i).getD {}
  let mask := u32 p 8
  let new := modifiedEntry f.bytes p
  { op := 0x0A04, handleOk := handleIn s [0x0A] c.handle, touches := [c.handle], len := some 32
    state := if f.removed then some (wrongState (Config.detail 0x0A04 0)) else none
    param := firstBad [(decide (mask < 2 ^ 23) && (mask / 256 == 0 || f.kind == 4), badParam 8)]
      <|> (if f.kind ≤ 5 then (entryBad f.owner new).map (fun b => badParam (modifyOffset b)) else none)
    run := fun s => .ok (drainFlow i (modFlow i (fun f => { f with old := some f.bytes, bytes := new }) s)) }

/-- FLOW_MODIFY (R160). -/
def execFlowModify (c : Cmd) (s : State) : Out := .next (hostCmd 0x0A04 flowModifyPlan c s)

/-- FLOW_REMOVE (R160). -/
def flowRemovePlan (c : Cmd) (s : State) : Plan :=
  let i := hIdx c.handle
  let f := (Tbl.get? s.pkt.flows i).getD {}
  { op := 0x0A05, handleOk := handleIn s [0x0A] c.handle, touches := [c.handle]
    state := if f.removed then some (wrongState (Config.detail 0x0A05 0)) else none
    run := fun s => .ok (removeFlow i s) }

/-- FLOW_REMOVE (R160). -/
def execFlowRemove (c : Cmd) (s : State) : Out := .next (hostCmd 0x0A05 flowRemovePlan c s)

/-- ROUTE_CHANGE_DRAIN (R160): every packet looked up under the old entry has passed the parser. -/
def routeDrain (i : Nat) (s : State) : State :=
  if ¬ s.pkt.drains.contains i then s
  else
    let s := bump R.PKT_DRAINS { s with pkt.drains := s.pkt.drains.filter (· != i) }
    match Tbl.get? s.pkt.flows i with
    | none => s
    | some f =>
      if f.removed then leaveLeases (mkH 0x0A i) { s with pkt.flows := Tbl.del s.pkt.flows i }
      else modFlow i (fun f => { f with old := none }) s

/-- ROUTE_CHANGE_DRAIN (R160); a closing leg that waited for it goes on (R14). -/
def execRouteChangeDrain (flow : Nat) (s : State) : Out :=
  .next (ownerAdvance (((Tbl.get? s.pkt.flows flow).map Flow.owner).getD 0) (routeDrain flow s))

/-- PKT_FW_LOC of a flow. -/
def flowLoc (f : Flow) : Nat :=
  1 + 2 * b2n f.inCam + (if f.inCam then 0 else 4 * f.way) + 16 * f.bucket + (if f.inCam then 0 else 1048576 * f.slot)

/-- FLOW_QUERY (Table 3-13b): a flow's entry, place and hits, or a leg's flow handles from the START-th. -/
def flowQueryPlan (c : Cmd) (s : State) : Plan :=
  Plan.query 0x0A06 false (handleIn s [0x02, 0x0A] c.handle) 8 none fun s =>
    if hCls c.handle = 0x0A then
      let f := (Tbl.get? s.pkt.flows (hIdx c.handle)).getD {}
      recordAnswer (fit f.bytes 32 ++ leN (flowLoc f) 4 ++ leN f.hits 8)
    else
      itemsAnswer [] ((s.pkt.flows.filter fun f => f.2.owner == c.handle && !f.2.removed).map
        fun f => leN (mkH 0x0A f.1).toNat 4) (u32 c.params 0)

/-- FLOW_QUERY (R175). -/
def execFlowQuery (c : Cmd) (s : State) : Out := .next (hostCmd 0x0A06 flowQueryPlan c s)

/-! ### ROUTE_SET, NAT_SET, ACL_SET (R161–R164, Tables 7-12, 7-13) -/

/-- An entry that a command of the router adds: refused where its key is present, or where the pool is short
(R157, R175). -/
def addEntryErr (s : State) (e : List Byte) : Option Fail :=
  match findFlow s (entryKey e) with
  | some (i, _) => some ⟨⟨St.FLOW_KEY_EXISTS, 0⟩, leN (mkH 0x0A i).toNat 4⟩
  | none => if 1048576 ≤ flowsDrawn s then some ⟨noResource 5, []⟩ else none

/-- Add a router entry; where the CAM is full it waits for the rehash. -/
def addRouterFlow (c : Cmd) (e ctx : List Byte) (s : State) : Done :=
  match addEntryErr s e with
  | some f => .reply s f.err.status f.err.detail 0 f.result
  | none =>
    match addFlow { bytes := e, owner := devH, ctx } s with
    | some (_, s') => .ok s'
    | none => .defer { s with pkt.installWait := s.pkt.installWait ++
        [{ rs := c.rs, tag := c.tag, owner := devH, entries := [e], handles := [], dma := some 0 }] }

/-- Remove the router entry of a key; a key that names none is a bad parameter at `o`. -/
def removeRouterFlow (key : List Byte) (o : Nat) (s : State) : Done :=
  match findFlow s key with
  | some (i, _) => .ok (removeFlow i s)
  | none => .reply s St.BAD_PARAM o 0 []

/-- The next-hop index of an address, entered where it is new. -/
def nextHopIndex (a : List Byte) (s : State) : Nat × State :=
  match s.pkt.nextHops.find? (fun e => e.2 == a) with
  | some e => (e.1, s)
  | none =>
    let i := (Tbl.lowestFree s.pkt.nextHops 0 65535).getD 0
    (i, { s with pkt.nextHops := Tbl.put s.pkt.nextHops i a })

/-- The ROUTE entry of a ROUTE_SET (Table 7-4), without its data bytes. -/
def routeKey (p : List Byte) : List Byte :=
  leN (6 + 16 * (u8 p 2 % 2)) 1 ++ leN (u8 p 1) 1 ++ leN 0 6 ++ slice p 8 16

/-- The routes of a family, and the distinct prefix lengths among them. -/
def routesOf (s : State) (v6 : Bool) : List Flow :=
  (Tbl.vals s.pkt.flows).filter fun f => f.kind == 6 && !f.removed && f.v6 == v6
def prefixLens (s : State) (v6 : Bool) : List Nat := ((routesOf s v6).map (fun f => f.byte 1)).eraseDups

/-- The routes the table may hold, and the prefix lengths (R161); the pool detail of a shortage is not given. -/
def routeRoom (s : State) (v6 : Bool) (len : Nat) : Option Err :=
  if 16384 ≤ (routesOf s true).length + (routesOf s false).length then some (noResource (Config.detail 0x0A07 0))
  else if 16 ≤ (prefixLens s v6).length ∧ ¬ (prefixLens s v6).contains len then some (noResource (Config.detail 0x0A07 1))
  else none

/-- The local address of OP 3. -/
def newLAddr (p : List Byte) (old : Option LAddr) : LAddr :=
  { (old.getD {}) with addr := slice p 8 16, flags := u8 p 2, zone := u8 p 3, vlan := u16 p 4, iface := u8 p 6 }

/-- A static neighbour replaces the entry of its address, or takes the lowest free place. -/
def putNeighbour (n : Neighbour) (s : State) : State :=
  let i := match s.pkt.neighbours.find? (fun e => e.2.addr == n.addr) with
    | some e => some e.1
    | none => Tbl.lowestFree s.pkt.neighbours 0 4096
  match i with
  | some i => { s with pkt.neighbours := Tbl.put s.pkt.neighbours i n }
  | none => s

/-- ROUTE_SET (Table 7-12). -/
def routeSetPlan (c : Cmd) (s : State) : Plan :=
  let p := c.params
  let op := u8 p 0
  let k := u8 p 1
  let fl := u8 p 2
  let v6 := bit fl 0
  let route := op == 1 || op == 2
  let named := s.pkt.flows.any fun f => !f.2.removed
    && (((f.2.kind == 1 || f.2.kind == 5) && f.2.byte 1 == k) || (f.2.kind == 4 && f.2.byte 9 == k))
  let known := s.pkt.neighbours.any (fun e => e.2.addr == slice p 8 16)
  { op := 0x0A07, handleOk := handleDev c.handle, touches := [devH], len := some 40
    state := if op = 4 ∧ named then some (wrongState 2) else none
    param := firstBad
      [ (decide (1 ≤ op) && decide (op ≤ 6), badParam 0)
      , (!route || decide (k ≤ if v6 then 128 else 32), badParam 1)
      , (decide (fl < 128), badParam 2), (decide (u8 p 3 ≤ 1), badParam 3), (decide (u8 p 5 < 16), badParam 5)
      , (decide (u8 p 6 ≤ 32), badParam 6)
      , (op != 6 || known, badParam 8) ]
    res := if op = 1 then routeRoom s v6 k
      else if op = 5 ∧ ¬ known ∧ 4096 ≤ s.pkt.neighbours.length then some (noResource (Config.detail 0x0A07 2)) else none
    run := fun s =>
      match op with
      | 1 =>
        let direct := slice p 24 16 == List.replicate 16 0
        let (nh, s') := if direct then (65535, s) else nextHopIndex (slice p 24 16) s
        let e := routeKey p ++ leN nh 2 ++ leN (bits fl 3 1) 1 ++ leN (u8 p 3) 1 ++ leN 0 4
        addRouterFlow c e (slice p 6 1 ++ slice p 4 2) s'
      | 2 => removeRouterFlow (entryKey (routeKey p)) 8 s
      | 3 => .ok { s with pkt.laddrs := Tbl.put s.pkt.laddrs k (newLAddr p (Tbl.get? s.pkt.laddrs k)) }
      | 4 => .ok { s with pkt.laddrs := Tbl.del s.pkt.laddrs k }
      | 5 => .ok (putNeighbour { addr := slice p 8 16, mac := slice p 24 6, iface := u8 p 6, static_ := true } s)
      | _ => .ok { s with pkt.neighbours := s.pkt.neighbours.filter (fun e => e.2.addr != slice p 8 16) } }

/-- ROUTE_SET (R161). -/
def execRouteSet (c : Cmd) (s : State) : Out := .next (hostCmd 0x0A07 routeSetPlan c s)

/-- The key of a static forward (Table 7-4, kind 8). -/
def natKey (p : List Byte) : List Byte :=
  leN (8 + 32 * u8 p 2) 1 ++ leN 0 1 ++ leN (u8 p 1) 2 ++ slice p 4 2 ++ leN 0 18

/-- NAT_SET (R163, Table 7-13). -/
def natSetPlan (c : Cmd) (s : State) : Plan :=
  let p := c.params
  let op := u8 p 0
  let a := Tbl.get? s.pkt.laddrs (u8 p 1)
  let pub := match a with | some a => bit a.flags 4 && !bit a.flags 0 | none => false
  let lo := u16 p 4
  let hi := u16 p 6
  { op := 0x0A08, handleOk := handleDev c.handle, touches := [devH], len := some 16
    param := firstBad
      [ (decide (1 ≤ op) && decide (op ≤ 3), badParam 0), (pub, badParam 1), (decide (u8 p 2 ≤ 1), badParam 2)
      , (op != 1 || decide (lo ≤ hi), badParam 6), (op != 2 || decide (u16 p 8 < 1024), badParam 8) ]
    run := fun s =>
      match op with
      | 1 => .ok { s with pkt.laddrs := Tbl.modify s.pkt.laddrs (u8 p 1) (fun a =>
          if u8 p 2 = 0 then { a with udpLo := lo, udpHi := hi } else { a with tcpLo := lo, tcpHi := hi }) }
      | 2 => addRouterFlow c (natKey p ++ leN hi 2 ++ leN (u16 p 8) 2 ++ leN 0 4) [] s
      | _ => removeRouterFlow (entryKey (natKey p)) 4 s }

/-- NAT_SET (R163). -/
def execNatSet (c : Cmd) (s : State) : Out := .next (hostCmd 0x0A08 natSetPlan c s)

/-- The key of a rule (Table 7-4, kind 9). -/
def aclKey (pair rule : Nat) : List Byte := fit (leN 9 1 ++ leN pair 1 ++ leN rule 2) 24

/-- Whether the first `n` bits of two addresses agree. -/
def prefixMatch (n : Nat) (a b : List Byte) : Bool :=
  (List.range 16).all fun k =>
    let w := min 8 (n - 8 * k)
    (u8 a k) / 2 ^ (8 - w) == (u8 b k) / 2 ^ (8 - w)

/-- Whether a rule matches a far address, protocol and destination port (R162). -/
def ruleMatches (f : Flow) (far : List Byte) (proto port : Nat) : Bool :=
  prefixMatch (f.byte 4) (slice f.bytes 8 16) far && (f.byte 26 == 0 || f.byte 26 == proto + 1)
    && decide (u16 f.bytes 6 ≤ port) && decide (port ≤ u16 f.bytes 24)

/-- Whether a zone pair permits an exchange: the lowest-numbered matching rule, else the default (R162). -/
def aclPermits (s : State) (pair : Nat) (far : List Byte) (proto port : Nat) : Bool :=
  let rules := (Tbl.vals s.pkt.flows).filter fun f =>
    f.kind == 9 && !f.removed && f.byte 1 == pair && ruleMatches f far proto port
  match rules.find? (fun f => rules.all (fun g => decide (u16 f.bytes 2 ≤ u16 g.bytes 2))) with
  | some f => f.byte 5 == 1
  | none => s.pkt.aclDefault.getD pair 0 == 1

/-- The inbound CONN entry that pairs with an outbound one, or the other way round: of the same exchange, by the
far side and the ports of both sides (Table 7-4). -/
def connPeer (s : State) (i : Nat) : Option Nat :=
  (Tbl.get? s.pkt.flows i).bind fun f =>
    (s.pkt.flows.find? fun e => e.1 != i && !e.2.removed && e.2.kind == 7 && e.2.byte 1 != f.byte 1
      && e.2.byte 0 == f.byte 0 && u16 e.2.bytes 6 == u16 f.bytes 6 && slice e.2.bytes 8 16 == slice f.bytes 8 16
      && u16 e.2.bytes 4 == u16 f.bytes 24 && u16 e.2.bytes 24 == u16 f.bytes 4).map Prod.fst

/-- Remove a CONN pair, by its outbound entry; its port and entries return to their pools (R164). -/
def removeConn (i : Nat) (s : State) : State :=
  let s := match connPeer s i with
    | some j => removeFlow j s
    | none => s
  removeFlow i { s with pkt.finSeen := Tbl.del s.pkt.finSeen i, pkt.closeAt := Tbl.del s.pkt.closeAt i }

/-- FLUSH: every CONN pair that the rules now deny is removed (R164). -/
def flushConns (s : State) : State :=
  (s.pkt.flows.filter (fun e => e.2.kind == 7 && e.2.byte 1 == 0 && !e.2.removed
      && !aclPermits s 0 (slice e.2.bytes 8 16) (bits (e.2.byte 0) 6 5) (u16 e.2.bytes 6))).foldl
    (fun s e => removeConn e.1 s) s

/-- ACL_SET (R162, Table 7-13). -/
def aclSetPlan (c : Cmd) (s : State) : Plan :=
  let p := c.params
  let op := u8 p 0
  let key := aclKey (u8 p 1) (u16 p 2)
  let flush := fun (s : State) => if u8 p 7 = 1 then flushConns s else s
  { op := 0x0A09, handleOk := handleDev c.handle, touches := [devH], len := some 32
    param := firstBad
      [ (decide (1 ≤ op) && decide (op ≤ 3), badParam 0), (decide (u8 p 1 ≤ 2), badParam 1)
      , (decide (u16 p 2 ≤ 1023), badParam 2), (decide (u8 p 4 ≤ 3), badParam 4), (decide (u8 p 5 ≤ 128), badParam 5)
      , (decide (u8 p 6 ≤ 1), badParam 6), (decide (u8 p 7 ≤ 1), badParam 7)
      , (op != 1 || decide (u16 p 8 ≤ u16 p 10), badParam 8) ]
    res := if op = 1 ∧ (findFlow s key).isNone ∧ 1048576 ≤ flowsDrawn s then some (noResource 5) else none
    run := fun s =>
      match op with
      | 1 =>
        let e := slice key 0 4 ++ slice p 5 2 ++ slice p 8 2 ++ slice p 16 16 ++ slice p 10 2 ++ slice p 4 1 ++ leN 0 5
        match findFlow s key with
        | some (i, _) => .ok (flush (drainFlow i (modFlow i (fun f => { f with bytes := e }) s)))
        | none => match addRouterFlow c e [] s with
          | .reply s st d pr b => .reply (flush s) st d pr b
          | .defer s => .defer s
      | 2 => match removeRouterFlow key 2 s with
          | .reply s st d pr b => .reply (if st = St.OK then flush s else s) st d pr b
          | .defer s => .defer s
      | _ => .ok (flush { s with pkt.aclDefault := s.pkt.aclDefault.set (u8 p 1) (u8 p 6) }) }

/-- ACL_SET (R162). -/
def execAclSet (c : Cmd) (s : State) : Out := .next (hostCmd 0x0A09 aclSetPlan c s)

/-- When an outbound CONN entry expires, in cycles: its idle time, or 10 s after both FINs or any RST (R164). -/
def connDue (s : State) (i : Nat) (f : Flow) : Nat :=
  let idle := if bits (f.byte 0) 6 5 = 1 then rgBits s R.PKT_CONN_IDLE 15 0 else rgBits s R.PKT_CONN_IDLE 31 16
  let d := f.hitAt + msCycles (1000 * idle)
  match Tbl.get? s.pkt.closeAt i with
  | some c => min d c
  | none => d

/-- CONN_EXPIRY (R164) of the pair whose outbound entry is `flow`. -/
def connExpiry (i : Nat) (s : State) : State :=
  match Tbl.get? s.pkt.flows i with
  | none => s
  | some f =>
    if f.kind ≠ 7 ∨ f.byte 1 ≠ 0 ∨ f.removed then s
    else bump R.PKT_CONN_EXPIRED (removeConn i (tickTo (connDue s i f) s))

/-- CONN_EXPIRY (R164). -/
def execConnExpiry (flow : Nat) (s : State) : Out := .next (connExpiry flow s)

end Sys2Proof.Machine
end

