-- ==== Sys2Proof/Machine/WlanOps.lean ====
section
/-! DEFINITION. Machine/WlanOps.lean: stations as the rest of the device meets them: look-up, queues, guard windows (R304–R310). -/

namespace Sys2Proof.Machine

def staOf (s : State) (i : Nat) : Sta := (Tbl.get? s.wlan.stas i).getD {}
def modSta (i : Nat) (f : Sta → Sta) (s : State) : State := { s with wlan.stas := Tbl.modify s.wlan.stas i f }
def staH (i : Nat) : Word := mkH 0x0C i
def bssOf (s : State) (b : Nat) : Bss := (Tbl.get? s.wlan.bsss b).getD {}
def modBss (b : Nat) (f : Bss → Bss) (s : State) : State := { s with wlan.bsss := Tbl.modify s.wlan.bsss b f }

/-- A station counter. -/
def staCtr (reg i : Nat) : Nat := winKey reg i

def StaState.num : StaState → Nat
  | .authenticating => 1
  | .associated => 2
  | .authorized => 3
  | .unreachable => 4
  | .removing => 5

/-! ### Parameters of a BSS (Table 13-6) -/

def Bss.radios (b : Bss) : Nat := u8 b.params 1
def Bss.security (b : Bss) : Nat := u8 b.params 2
def Bss.bflags (b : Bss) : Nat := u8 b.params 3
def Bss.beaconTu (b : Bss) : Nat := if u16 b.params 6 = 0 then 100 else u16 b.params 6
def Bss.vlan (b : Bss) : Nat := u16 b.params 8

/-- Beacon intervals of `n` time units in ns and cycles. -/
def tuNs (n : Nat) : Nat := n * 1024000
def tuCycles (n : Nat) : Nat := nsCycles (tuNs n)

/-- The radios of a mask. -/
def radiosIn (mask : Nat) : List Nat := [0, 1, 2].filter (bit mask)

/-! ### Addresses (R300, R311) -/

/-- The address at an offset of the device's block: the low 7 bits of its base's last byte are zero. -/
def macAt (s : State) (n : Nat) : List Byte := s.fuses.macBase.take 5 ++ [s.fuses.macBase.getD 5 0 ||| BitVec.ofNat 8 n]

def broadcastMac : List Byte := List.replicate 6 0xFF

/-- An address is a group address. -/
def groupMac (a : List Byte) : Bool := bit (u8 a 0) 0

/-! ### Deficits and queues (R307, R310) -/

/-- Frames queued for a station. -/
def Sta.queued (a : Sta) : Nat := a.queues.foldl (· + ·) 0

/-- The deficit gained since it was last brought up to date: 1,000 µs per 10 ms with frames queued, up to 4,000 µs. -/
def Sta.accrue (now : Nat) (a : Sta) : Sta :=
  if a.queued = 0 then { a with deficitAt := now }
  else
    let n := (now - a.deficitAt) / msCycles 10
    { a with deficit := if n = 0 then a.deficit else min 4000 (a.deficit + 1000 * (n : Nat)), deficitAt := a.deficitAt + n * msCycles 10 }

/-- `n` frames of one access category join a station's queue. -/
def Sta.join (now ac n : Nat) (a : Sta) : Sta :=
  let a := a.accrue now
  { a with queues := a.queues.set ac (a.queues.getD ac 0 + n) }

/-- The access category of a DSCP: its top three bits are the user priority (notes/assumptions/42.md). -/
def acOf (dscp : Nat) : Nat :=
  match dscp / 8 % 8 with
  | 1 => 1
  | 2 => 1
  | 4 => 2
  | 5 => 2
  | 6 => 3
  | 7 => 3
  | _ => 0

/-- A frame arrives for a station: queued; discarded at once where the station's hold has ended (R310), or where it is not
there to be sent to. -/
def wlanEnqueue (i ac : Nat) (s : State) : State :=
  match Tbl.get? s.wlan.stas i with
  | none => s
  | some a =>
    let queue := modSta i (Sta.join s.clock.cycles ac 1) s
    match a.state with
    | .authorized => queue
    | .unreachable => if a.unreachAt.isSome then queue else bump R.WMC_UNREACH_DISCARD s
    | _ => bump (staCtr R.WMC_W_DISCARDS i) s

/-! ### Guard windows (R309, R316, R318) -/

/-- own_ppm: raised to 20 while the timebase free-runs. -/
def ownPpm (s : State) : Nat :=
  match s.time.state with
  | .holdover => 20
  | .refLost => 20
  | _ => rgBits s R.WMC_CTRL 7 4

/-- peer_ppm in 1/1,000 ppm: the misses rule, what eight observations taught, or the default. -/
def peerMilli (s : State) (a : Sta) : Nat :=
  if 3 ≤ a.misses then 40000 * 2 ^ (min a.misses 40 - 2)
  else if 8 ≤ a.obsN then max 2000 (a.obs.foldl max 0 * 5 / 4)
  else rgBits s R.WMC_GUARD 15 0 * 1000

/-- GUARD_CAP_US. -/
def guardCap (s : State) : Nat := rgBits s R.WMC_GUARD 31 16

/-- The window in µs after `ns` without a frame, capped. -/
def guardWindow (s : State) (peer ns : Nat) : Nat :=
  min (guardCap s) (64 + 2 * (ownPpm s * 1000 + peer) * ns / 1000000000000)

/-- The ns since the last frame of a station. -/
def sinceRx (s : State) (a : Sta) : Nat := cyclesNs (s.clock.cycles - a.lastRx)

/-- Whether a station can receive now: not in power save, or within a service period. -/
def Sta.awake (s : State) (a : Sta) : Bool := a.state == .authorized && (!a.ps || decide (nowNs s < a.awakeTo))

end Sys2Proof.Machine
end

