-- ==== Sys2Proof/Machine/Egress.lean ====
section
/-! DEFINITION. Machine/Egress.lean: packets that the device sends: the egress template, the cipher, the
sub-port and the transmit tap (R12, R166, R171, R360). -/

namespace Sys2Proof.Machine

/-- `n` bytes that the model does not compute (notes/assumptions/3.md). -/
def freeBytes (n : Nat) (s : State) : List Byte × State :=
  let (v, s) := takeFree s
  (leN v n, s)

/-- META of an Ethernet record (Table 16-3): the handle of the flow hit. -/
def flowMeta (flow : Option Nat) : Nat := (flow.map fun i => (mkH 0x0A i).toNat).getD 0xFFFFFFFF

/-- The transmit taps see a frame, at the CLEAR and the WIRE point; what the device encoded or enciphered is open. -/
def tapTransmit (iface bytes : Nat) (data : List Byte) (sealed_ : Bool) (flow : Option Nat) (owner : Word) (s : State) : State :=
  if s.cap.sessions = [] then s
  else
    let (body, s) := if data = [] then freeBytes bytes s else (data, s)
    let one := fun point body (s : State) =>
      tap { rec_ := { kind := 1, point, port := iface, time := nowFrac s, origLen := body.length, payload := body
                      meta_ := flowMeta flow }, flow, owner } s
    let s := one 1 body s
    let (wire, s) := if data = [] || sealed_ then freeBytes bytes s else (data, s)
    one 0 wire s

/-- A frame meets the SecY of its sub-port (R154): whether it leaves, and whether it is protected. EAPOL passes as it is; what
becomes of a frame for which no association transmits, the spec does not say. -/
def macsecOut (iface bytes what : Nat) (s : State) : (Bool × Bool) × State :=
  let y := Tbl.getD s.pkt.secys iface {}
  if ¬ bit (ethOf s (iface / 4)).pflags 3 ∨ what = 6 then ((true, false), s)
  else
    match y.txAn.bind (Tbl.get? y.tx) with
    | some a =>
      let r := cipherSend a.key bytes false false s
      if r.1.isSome then ((true, true), bump (ethCtr R.PKT_P_MACSEC_OUT_PROTECTED iface) r.2) else ((false, false), r.2)
    | none =>
      let (v, s) := takeFree s
      ((v % 2 == 1, false), s)

/-- The station that a leg of TYPE 1 is attached to. -/
def stationOf (s : State) (owner : Word) : Option Nat :=
  if hCls owner = 2 then (Tbl.get? s.legs (hIdx owner)).bind fun l => if l.type = 1 then some (hIdx l.attach) else none else none

/-- A frame leaves on an interface: an Ethernet sub-port, where it is counted, or 32 and above wireless access, where it joins
the queue of the leg's station. `what` is 1 media,
2 RTCP, 3 the Hearth's, 4 replayed, 5 time, 6 EAPOL, 7 routed. -/
def transmit (iface bytes what : Nat) (data : List Byte) (flow : Option Nat) (owner : Word) (s : State) : State :=
  if 32 ≤ iface then
    match stationOf s owner with
    | some i => wlanEnqueue i (acOf ((flow.bind fun n => (Tbl.get? s.pkt.flows n).map fun f => bits (f.byte 16) 5 0).getD 0)) s
    | none => emit (.air (iface - 32) what data) s
  else if ifaceUp s iface then
    let r := macsecOut iface bytes what s
    if r.1.1 then
      emit (.ethFrame iface what data)
        (tapTransmit iface bytes data r.1.2 flow owner
          (bump (ethCtr R.PKT_P_TX_FRAMES iface) (bumpBy (ethCtr R.PKT_P_TX_BYTES iface) bytes r.2)))
    else r.2
  else bump (ethCtr R.PKT_P_TX_DOWN_DROPS iface) s

/-- The egress template of a leg's stream, else that of its audio (Table 7-4). -/
def egressOf (s : State) (leg slot : Nat) : Option (Nat × Flow) :=
  let mine := s.pkt.flows.filter fun e => e.2.owner == mkH 2 leg && e.2.kind == 4 && !e.2.removed
  (mine.find? fun e => e.2.byte 8 == slot) <|> (mine.find? fun e => e.2.byte 8 == 0xFF)

/-- The transmit slot of a leg. -/
def txKeyOf (s : State) (leg : Nat) : Option Nat :=
  (s.keys.find? fun e => e.2.owner == mkH 2 leg && isSrtp e.2.suite && !e.2.rx && e.2.written).map Prod.fst

/-- The interface of a template's local address. -/
def egressIface (s : State) (f : Flow) : Nat := ((Tbl.get? s.pkt.laddrs (f.byte 9)).map LAddr.iface).getD 0

/-- The audio that a leg was sent in the last 500 ms (R288), and its send record (R286). -/
def noteAudio (now bytes : Nat) (f : FwdSet) : FwdSet :=
  { f with audio := f.audio.filter (fun a => decide (now < a.1 + 500000000)) ++ [(now, bytes)]
           records := ((f.audioSeq, bytes, now) :: f.records).take 256, audioSeq := (f.audioSeq + 1) % 65536 }

/-- A packet of a leg's stream leaves: enciphered where the leg uses SRTP, counted in TX_PACKETS. Answers whether it left;
without a template or a key it does not. Slot 0xFF is audio; 0x10 the composed output, which has no template of its own. -/
def sendMedia (leg slot bytes : Nat) (rtcp : Bool) (s : State) : Bool × State :=
  match Tbl.get? s.legs leg, egressOf s leg slot with
  | some l, some (i, f) =>
    let r : Bool × State :=
      if bit l.flags 3 then
        match txKeyOf s leg with
        | none => (false, bump R.CIP_KEY_ABSENT s)
        | some k =>
          let a := cipherSend k bytes rtcp false s
          (a.1.isSome, a.2)
      else (true, s)
    if r.1 then
      let s := r.2
      (true, transmit (egressIface s f) bytes (if rtcp then 2 else 1) [] (some i) (mkH 2 leg)
        { s with
          legs := Tbl.modify s.legs leg (fun l => { l with txPackets := satAdd 64 l.txPackets 1 })
          video.fwd := if slot = 0xFF ∧ ¬ rtcp then Tbl.modify s.video.fwd leg (noteAudio (nowNs s) bytes) else s.video.fwd })
    else (false, r.2)
  | _, _ => (false, s)

end Sys2Proof.Machine
end

