-- ==== Sys2Proof/Machine/Legs.lean ====
section
/-! DEFINITION. Machine/Legs.lean: the leg and conference commands (R11–R20, R413–R415). -/

namespace Sys2Proof.Machine

/-! ### Leg parameters (Table 1-5) -/

/-- The 24 parameter bytes in force. -/
def legBytes (l : Leg) : List Byte :=
  leN l.type 1 ++ leN l.codec 1 ++ leN l.frame 1 ++ leN l.channels 1 ++ leN l.videoIn 1 ++ leN l.fwdOut 1 ++ leN l.flags 1
    ++ leN l.tier 1 ++ leN l.jbMin 2 ++ leN l.jbMax 2 ++ leN l.attach.toNat 4 ++ leN l.attachChan 2 ++ leN 0 6

/-- JB_MIN_MS and JB_MAX_MS with their defaults. -/
def jbMinOf (p : List Byte) : Nat := if u16 p 8 = 0 then 20 else u16 p 8
def jbMaxOf (p : List Byte) : Nat := if u16 p 10 = 0 then 200 else u16 p 10

/-- The leg with the parameters of a block. -/
def legWith (l : Leg) (p : List Byte) : Leg :=
  { l with
    type := u8 p 0, codec := u8 p 1, frame := u8 p 2, channels := u8 p 3, videoIn := u8 p 4, fwdOut := u8 p 5
    flags := u8 p 6, tier := u8 p 7, jbMin := jbMinOf p, jbMax := jbMaxOf p
    attach := BitVec.ofNat 32 (u32 p 12), attachChan := u16 p 16 }

/-- The frame lengths of a coding. -/
def framesOf : Nat → List Nat
  | 0 => [5, 10, 20, 40, 80, 120]
  | 4 => [2]
  | _ => [20, 40]

/-- Whether a channel exists in a port's present format (R232). -/
def chanExists (p : AspPort) (ch : Nat) : Bool := decide (ch / 32 < p.lines) && decide (ch % 32 < p.slots)

/-- Whether a TDM leg other than `self` owns a channel of a port. -/
def legOwns (s : State) (self : Option Nat) (port ch : Nat) : Option Nat :=
  (s.legs.find? fun e => some e.1 != self && e.2.type == 2 && hIdx e.2.attach == port
    && decide (e.2.attachChan ≤ ch) && decide (ch < e.2.attachChan + e.2.channels)).map Prod.fst

/-- The conference whose route owns an output channel of a port (R202). -/
def routeOwns (s : State) (port ch : Nat) : Option Nat :=
  (s.audio.buses.find? fun e => e.2.outs.any fun o => !o.gone && o.port == port
    && decide (o.channel ≤ ch) && decide (ch < o.channel + o.width)).map (fun e => e.2.conf)

/-- The channels of a TDM leg (R413). -/
def attachOk (s : State) (self : Option Nat) (p : List Byte) : Bool :=
  let port := u32 p 12 % 2 ^ 24
  let a := Tbl.getD s.asp.ports port {}
  decide (u16 p 16 + u8 p 3 ≤ 128) && (List.range (u8 p 3)).all fun k =>
    (a.phase == .disabled || chanExists a (u16 p 16 + k))
      && (legOwns s self port (u16 p 16 + k)).isNone && (routeOwns s port (u16 p 16 + k)).isNone

/-- The checks of Table 1-5 and R413 on a block; `fresh` if ATTACH is set by this command. -/
def legBad (s : State) (self : Option Nat) (fresh : Bool) (p : List Byte) : Option Err :=
  let t := u8 p 0
  let net := decide (t < 2)
  firstBad
    [ (decide (t ≤ 3), badParam 0)
    , (if net then decide (u8 p 1 ≤ 3) else u8 p 1 == 4, badParam 1)
    , ((framesOf (u8 p 1)).contains (u8 p 2), badParam 2)
    , (u8 p 3 == 1 || u8 p 3 == 2, badParam 3)
    , (decide (u8 p 4 ≤ if net then 4 else 0), badParam 4)
    , (decide (u8 p 5 ≤ if net then 16 else 0), badParam 5)
    , (decide (u8 p 6 < 16) && (net || !bit (u8 p 6) 0), badParam 6)
    , (decide (u8 p 7 ≤ 7), badParam 7)
    , (decide (10 ≤ jbMinOf p) && decide (jbMinOf p ≤ 500), badParam 8)
    , (decide (jbMinOf p ≤ jbMaxOf p) && decide (jbMaxOf p ≤ 500), badParam 10)
    , (match t with
       | 1 => !fresh || paramHandle s [0x0C] (u32 p 12)
       | 2 => paramHandle s [4] (u32 p 12)
       | _ => u32 p 12 == 0, badParam 12)
    , (if t = 2 then attachOk s self p else u16 p 16 == 0, badParam 16) ]

/-! ### LEG_CREATE -/

/-- A leg joins the device: its jitter buffer where its type has one, its decode placed (R12, R178). -/
def addLeg (i : Nat) (l : Leg) (s : State) : State :=
  let s := { s with legs := Tbl.put s.legs i l }
  let s := if l.type = 2 then s else { s with audio.jitter := Tbl.put s.audio.jitter i { target := l.jbMin } }
  let s := if l.coded ∧ (0 < l.fwdOut ∨ bit l.flags 0) then { s with video.fwd := Tbl.put s.video.fwd i {} } else s
  if l.coded then placeDecode i (legWeight l) s else s

/-- The results of Table 1-6. -/
def legResult (i : Nat) (l : Leg) : List Byte :=
  leN (legH i).toNat 4 ++ leN (legFlows l) 2 ++ leN (legKeys l) 1 ++ leN (legFwd l) 1 ++ leN (legWeight l) 4 ++ leN 0 4

/-- LEG_CREATE (R11, R12, R16, R18). -/
def legCreatePlan (c : Cmd) (s : State) : Plan :=
  let i := newIndex s.legs c.handle 0 16384
  let l : Leg := legWith {} c.params
  { op := 0x0201, handleOk := handleNew 2 c.handle, touches := [c.handle]
    state := notFree 0x0201 s.legs c.handle
    len := some 24
    param := legBad s none true c.params
    res := match i with
      | none => some (noResource 1)
      | some i => admitChange s { s with legs := Tbl.put s.legs i l } false
    run := fun s => match i with
      | none => .ok s
      | some i => .okWith (addLeg i l s) (legResult i l) }

/-- LEG_CREATE (R12). -/
def execLegCreate (c : Cmd) (s : State) : Out := .next (hostCmd 0x0201 legCreatePlan c s)

/-! ### The commands that move a leg (Table 1-3) -/

/-- A command on a leg that is valid in the given states. -/
def legPlan (op : Nat) (c : Cmd) (s : State) (valid : List LegState) (needAttach : Bool) (run : Nat → State → Done) : Plan :=
  let i := hIdx c.handle
  let l : Leg := (Tbl.get? s.legs i).getD {}
  { op, handleOk := handleIn s [2] c.handle, touches := [c.handle]
    state := if !valid.contains l.state then some (wrongState (Config.detail op 0))
      else if needAttach && !attached s l then some (wrongState 1) else none
    run := run i }

/-- A leg becomes ACTIVE: its contribution fades in, its buffer waits for its anchor (R13, R182). -/
def startLeg (i : Nat) (s : State) : State := refade i (idleJitter i (modLeg i (fun l => { l with state := .active }) s))

/-- LEG_START (R13). -/
def legStartPlan (c : Cmd) (s : State) : Plan := legPlan 0x0202 c s [.ready] true fun i s => .ok (startLeg i s)
def execLegStart (c : Cmd) (s : State) : Out := .next (hostCmd 0x0202 legStartPlan c s)

/-- LEG_HOLD (R13). -/
def legHoldPlan (c : Cmd) (s : State) : Plan :=
  legPlan 0x0204 c s [.active] false fun i s => .ok (refade i (idleJitter i (modLeg i (fun l => { l with state := .held }) s)))
def execLegHold (c : Cmd) (s : State) : Out := .next (hostCmd 0x0204 legHoldPlan c s)

/-- LEG_RESUME (R13). -/
def legResumePlan (c : Cmd) (s : State) : Plan := legPlan 0x0205 c s [.held] true fun i s => .ok (startLeg i s)
def execLegResume (c : Cmd) (s : State) : Out := .next (hostCmd 0x0205 legResumePlan c s)

/-- Forward set entries that send nothing have no switch point to wait for (R14). -/
def dropIdleEntries (i : Nat) (s : State) : State :=
  { s with video.fwd := Tbl.modify s.video.fwd i (fun f => { f with entries := f.entries.filter (fun e => e.2.current.isSome) }) }

/-- LEG_CLOSE (R13, R14): answered when the leg is FREE. -/
def legClosePlan (c : Cmd) (s : State) : Plan :=
  { legPlan 0x0206 c s [.ready, .active, .held] false fun i s =>
      .defer (legAdvance i (dropIdleEntries i (refade i (modLeg i (fun l => { l with state := .closing, closer := some (c.rs, c.tag) }) s)))) with
    exempt := true }
def execLegClose (c : Cmd) (s : State) : Out := .next (hostCmd 0x0206 legClosePlan c s)

/-- LEG_DRAIN_COMPLETE (R14). -/
def legDrainComplete (i : Nat) (s : State) : State :=
  let s := legAdvance i s
  if legDrained s i then freeLeg i s else s
def execLegDrainComplete (leg : Nat) (s : State) : Out := .next (legDrainComplete leg s)

/-! ### LEG_MODIFY (R17) -/

/-- The old bytes with those of the block where the mask selects them. -/
def maskedBytes (old new : List Byte) (mask : Nat) : List Byte :=
  (List.range 24).map fun k => if bit mask k then new.getD k 0 else old.getD k 0

/-- Bytes that an ACTIVE leg may change, with TYPE. -/
def liveByte (k : Nat) : Bool := k == 0 || k == 5 || k == 7 || (decide (8 ≤ k) && decide (k ≤ 11))

/-- The modified leg takes effect, its decode and class placed anew where they change. -/
def applyModify (i : Nat) (l : Leg) (s : State) : State :=
  match Tbl.get? s.legs i with
  | none => s
  | some old =>
    let s := modLeg i (fun _ => l) s
    let s := { s with audio.jitter := Tbl.modify s.audio.jitter i (fun j => { j with
      target := if l.type = 3 then l.jbMin else min l.jbMax (max l.jbMin j.target) }) }
    let s := if l.coded ∧ legWeight l ≠ legWeight old then
        placeDecode i (legWeight l) (modJit i (fun j => { j with decEngine := 0x7F }) s) else s
    let s := if l.coded ∧ (0 < l.fwdOut ∨ bit l.flags 0) then { s with video.fwd := Tbl.upd s.video.fwd i {} id }
      else if (((Tbl.get? s.video.fwd i).map FwdSet.entries).getD []) = [] then { s with video.fwd := Tbl.del s.video.fwd i } else s
    match l.conf with
    | some c => reclass c i s
    | none => s

/-- LEG_MODIFY (R17, R18). -/
def legModifyPlan (c : Cmd) (s : State) : Plan :=
  let i := hIdx c.handle
  let l : Leg := (Tbl.get? s.legs i).getD {}
  let mask := u64 c.params 24
  let onlyType := (List.range 24).all fun k => k == 0 || !bit mask k
  let b := maskedBytes (legBytes l) c.params mask
  let l' := legWith l b
  let s' := applyModify i l' s
  let fresh := (List.range 4).any fun k => bit mask (12 + k)
  { op := 0x0203, handleOk := handleIn s [2] c.handle, touches := [c.handle]
    state := if onlyType then none
      else match l.state with
        | .active => if (List.range 24).all (fun k => !bit mask k || liveByte k) then none else some (wrongState (Config.detail 0x0203 1))
        | .closing => some (wrongState (Config.detail 0x0203 0))
        | _ => none
    len := some 32
    param := if bit mask 0 ∧ u8 c.params 0 ≠ l.type then some (badParam 0)
      else if onlyType then none else legBad s (some i) fresh b
    res := if onlyType then none else admitChange s s' ((l.conf.map (overClasses s')).getD false)
    run := fun s => .ok (if onlyType then s else applyModify i l' s) }
def execLegModify (c : Cmd) (s : State) : Out := .next (hostCmd 0x0203 legModifyPlan c s)

/-! ### LEG_QUERY (R415, Table 1-6a) -/

/-- Key slots written for a leg. -/
def keysUsed (s : State) (i : Nat) : Nat := (s.keys.filter fun e => e.2.owner == legH i && e.2.written).length

/-- Whether a leg, or something it owns, waits for its reinstall. -/
def reinstallOpen (s : State) (i : Nat) : Bool :=
  Tbl.has s.power.reinstall (legH i).toNat || s.power.reinstall.any fun e => e.2.2.2 == legH i

/-- The record of Table 1-6a. -/
def legRecord (s : State) (i : Nat) (l : Leg) : List Byte :=
  leN l.state.num 1 ++ leN (b2n (attached s l) + 2 * b2n (reinstallOpen s i)) 1 ++ leN 0 2
    ++ leN ((l.conf.map (fun c => (confH c).toNat)).getD 0) 4 ++ legBytes l
    ++ leN (legFlows l) 2 ++ leN (legKeys l) 1 ++ leN (legFwd l) 1 ++ leN (legWeight l) 4
    ++ leN (flowsOwned s (legH i)) 2 ++ leN (keysUsed s i) 1 ++ leN 0 5
    ++ leN l.rxPackets 8 ++ leN l.txPackets 8 ++ leN l.heldDrops 8 ++ leN l.noSsrcDrops 8

/-- LEG_QUERY (R415). -/
def legQueryPlan (c : Cmd) (s : State) : Plan :=
  { Plan.query 0x0207 false (handleIn s [2] c.handle) 8 none (fun s =>
      recordAnswer (match Tbl.get? s.legs (hIdx c.handle) with
        | some l => legRecord s (hIdx c.handle) l
        | none => [])) with exempt := true }
def execLegQuery (c : Cmd) (s : State) : Out := .next (hostCmd 0x0207 legQueryPlan c s)

/-! ### Conferences -/

/-- The bus ranges of the open conferences. -/
def busRanges (s : State) : List (Nat × Nat) := s.confs.map fun e => (e.2.firstBus, 1 + e.2.aux)

/-- The lowest run of `n` free buses. -/
def freeBuses (s : State) (n : Nat) : Option Nat :=
  let used := busRanges s
  let starts := 0 :: used.map (fun r => r.1 + r.2)
  let ok := starts.filter fun a => decide (a + n ≤ 4096) && used.all fun r => decide (a + n ≤ r.1) || decide (r.1 + r.2 ≤ a)
  (sortBy (fun a b => decide (a < b)) ok).head?

/-- CONF_CREATE (R16, R18, R20): opens a conference and its buses. -/
def confCreatePlan (c : Cmd) (s : State) : Plan :=
  let p := c.params
  let i := newIndex s.confs c.handle 0 4096
  let k := u8 p 0
  let aux := u8 p 1
  let hold := if u16 p 2 = 0 then 200 else u16 p 2
  let run := freeBuses s (1 + aux)
  { op := 0x0301, handleOk := handleNew 3 c.handle, touches := [c.handle]
    state := notFree 0x0301 s.confs c.handle
    param := firstBad [ (decide (1 ≤ k) && decide (k ≤ 64), badParam 0), (decide (aux ≤ 15), badParam 1)
      , (decide (50 ≤ hold) && decide (hold ≤ 5000), badParam 2) ]
    res := match i with
      | none => some (noResource 2)
      | some i => match admitChange s { s with confs := Tbl.put s.confs i { k, aux } } false with
        | some e => some e
        | none => if run.isNone then some (noResource 3) else none
    run := fun s => match i, run with
      | some i, some f =>
        let s := { s with confs := Tbl.put s.confs i { k, aux, hold, firstBus := f } }
        let s := (List.range (1 + aux)).foldl (fun s b =>
          { s with audio.buses := Tbl.put s.audio.buses (f + b) { conf := i, num := b } }) s
        .okWith s (leN (confH i).toNat 4 ++ leN f 2 ++ leN (1 + aux) 2)
      | _, _ => .ok s }
def execConfCreate (c : Cmd) (s : State) : Out := .next (hostCmd 0x0301 confCreatePlan c s)

/-- The leg that a membership command names. -/
def memberLeg (c : Cmd) : Nat := u32 c.params 0 % 2 ^ 24

/-- The class number in a result: 0xFFFF for none. -/
def clsField (m : MixLeg) : Nat := (m.cls).getD 0xFFFF

/-- CONF_JOIN (R414, R18, R20). -/
def confJoinPlan (c : Cmd) (s : State) : Plan :=
  let i := memberLeg c
  let cf := hIdx c.handle
  let role := u8 c.params 4
  let ok := paramHandle s [2] (u32 c.params 0)
  let l : Leg := (Tbl.get? s.legs i).getD {}
  let s' := joinConf cf i role s
  { op := 0x0302, handleOk := handleIn s [3] c.handle, touches := c.handle :: (if ok then [legH i] else [])
    state := if ¬ ok then none
      else if l.state = .closing then some (wrongState 3)
      else if l.conf.isSome then some (wrongState 4) else none
    param := firstBad [(ok, badParam 0), (decide (role ≤ 2), badParam 4)]
    res := admitChange s s' (overClasses s' cf)
    run := fun s =>
      let s := joinConf cf i role s
      .okWith s (leN (clsField (mixOf s i)) 2 ++ leN 0 2 ++ leN (confUnits s (confOf s cf)) 4) }
def execConfJoin (c : Cmd) (s : State) : Out := .next (hostCmd 0x0302 confJoinPlan c s)

/-- CONF_LEAVE (R414). -/
def confLeavePlan (c : Cmd) (s : State) : Plan :=
  let i := memberLeg c
  let ok := paramHandle s [2] (u32 c.params 0)
  let l : Leg := (Tbl.get? s.legs i).getD {}
  { op := 0x0303, handleOk := handleIn s [3] c.handle, touches := c.handle :: (if ok then [legH i] else [])
    state := if ¬ ok then none
      else if l.state = .closing then some (wrongState 3)
      else if l.conf ≠ some (hIdx c.handle) then some (wrongState 2) else none
    param := firstBad [(ok, badParam 0)]
    run := fun s => .ok (leaveConf i s) }
def execConfLeave (c : Cmd) (s : State) : Out := .next (hostCmd 0x0303 confLeavePlan c s)

/-- A conference closes: its ACTIVE members go to HELD, its buses, classes and policy end (Table 1-3). -/
def closeConf (cf : Nat) (s : State) : State :=
  let x := confOf s cf
  let s := x.members.foldl (fun s i => holdLeg i 2 s) s
  let s := x.members.foldl (fun s i => legAdvance i (modLeg i (fun l => { l with conf := none }) s)) s
  let s := (x.members ++ x.leaving).foldl (fun s i => { s with
    audio.legs := Tbl.del s.audio.legs i, audio.outputs := Tbl.del s.audio.outputs i
    audio.jitter := Tbl.modify s.audio.jitter i (fun j => { j with encEngine := 0x7F }) }) s
  let buses := (List.range (1 + x.aux)).map (x.firstBus + ·)
  let waits := buses.flatMap fun b => ((Tbl.get? s.audio.buses b).map Bus.shadows).getD []
  let s := { s with
    confs := Tbl.del s.confs cf, video.policies := Tbl.del s.video.policies cf
    audio.buses := s.audio.buses.filter (fun e => e.2.conf != cf)
    dsp.busIns := s.dsp.busIns.filter (fun e => !buses.contains e.1)
    dsp.tasks := Tbl.each s.dsp.tasks (fun _ t => { t with objs := t.objs.filter (fun o => !(o.1 == 2 && buses.contains o.2)) }) }
  leaveLeases (confH cf) (waits.foldl (fun s w => finishRunning w.rs w.tag St.ABORTED 0 0 [] s) s)

/-- CONF_CLOSE (R13). -/
def confClosePlan (c : Cmd) (s : State) : Plan :=
  { op := 0x0304, handleOk := handleIn s [3] c.handle, touches := [c.handle]
    run := fun s => .ok (closeConf (hIdx c.handle) s) }
def execConfClose (c : Cmd) (s : State) : Out := .next (hostCmd 0x0304 confClosePlan c s)

/-- The compositions of a conference. -/
def confComps (s : State) (cf : Nat) : Nat := (s.video.comps.filter fun e => e.2.conf == cf).length

/-- A member's entry in CONF_QUERY. -/
def memberEntry (s : State) (cf : Conf) (i : Nat) : List Byte :=
  let m := mixOf s i
  leN (legH i).toNat 4 ++ leN (((Tbl.get? s.legs i).map Leg.role).getD 0) 1
    ++ leN (b2n (isTalker s cf i) + 2 * b2n m.forced + 4 * b2n m.muted + 8 * b2n (legStarved m)) 1 ++ leN (clsField m) 2

/-- The header of Table 1-6b. -/
def confHeader (s : State) (c : Nat) (cf : Conf) : List Byte :=
  leN cf.members.length 2 ++ leN cf.k 1 ++ leN (talkerCount s cf) 1 ++ leN cf.classes.length 1 ++ leN cf.aux 1
    ++ leN cf.hold 2 ++ leN cf.firstBus 2 ++ leN (confComps s c) 1 ++ leN 0 1 ++ leN (confUnits s cf) 4 ++ leN 0 8

/-- CONF_QUERY (R415). -/
def confQueryPlan (c : Cmd) (s : State) : Plan :=
  Plan.query 0x0305 false (handleIn s [3] c.handle) 8 none (fun s =>
    let i := hIdx c.handle
    let cf := confOf s i
    itemsAnswer (confHeader s i cf) (cf.members.map (memberEntry s cf)) (u32 c.params 0))
def execConfQuery (c : Cmd) (s : State) : Out := .next (hostCmd 0x0305 confQueryPlan c s)

end Sys2Proof.Machine
end

