-- ==== Sys2Proof/Machine/Mix.lean ====
section
/-! DEFINITION. Machine/Mix.lean: the mixing commands (R193, R199, R201–R204). -/

namespace Sys2Proof.Machine

/-! ### MIX_PLAN_SET (Table 8-8) -/

/-- Forced members of a conference, `i` counted as `now` says. -/
def forcedWith (s : State) (c i : Nat) (now : Bool) : Nat :=
  ((confOf s c).members.filter fun j => if j = i then now else (mixOf s j).forced).length

/-- MIX_PLAN_SET (R193). -/
def mixPlanPlan (c : Cmd) (s : State) : Plan :=
  let p := c.params
  let i := hIdx c.handle
  let set := fun (cf : Conf) => { cf with
    k := u8 p 0, pflags := u8 p 1, hold := u16 p 2, thresh := i16 p 4, crossfade := u16 p 6, hyst := u8 p 8 }
  let forced := ((confOf s i).members.filter fun j => (mixOf s j).forced).length
  { op := 0x0310, handleOk := handleIn s [3] c.handle, touches := [c.handle]
    len := some 16
    param := firstBad
      [ (decide (1 ≤ u8 p 0) && decide (u8 p 0 ≤ 64), badParam 0)
      , (decide (u8 p 1 < 8), badParam 1)
      , (decide (50 ≤ u16 p 2) && decide (u16 p 2 ≤ 5000), badParam 2)
      , (decide (-320 ≤ i16 p 4) && decide (i16 p 4 ≤ -80), badParam 4)
      , (decide (u16 p 6 ≤ 480), badParam 6)
      , (decide (u8 p 8 ≤ 20), badParam 8)
      , (decide (forced ≤ u8 p 0), ⟨St.MIX_FORCED_FULL, u8 p 0⟩) ]
    res := admitChange s (modConf i set s) false
    run := fun s => .ok (modConf i set s) }

/-- MIX_PLAN_SET (R193). -/
def execMixPlanSet (c : Cmd) (s : State) : Out := .next (hostCmd 0x0310 mixPlanPlan c s)

/-! ### MIX_ROLE_SET (Table 8-9) -/

/-- A member takes its new role, flags, trim and listening bus. -/
def applyRole (c i : Nat) (p : List Byte) (s : State) : State :=
  let s := modLeg i (fun l => { l with role := u8 p 0 }) s
  let s := modMix i (fun m => { m with
    forced := bit (u8 p 1) 0, muted := bit (u8 p 1) 1, bus := u8 p 4, trim := i16 p 2
    trimG := if m.trim = i16 p 2 then m.trimG else m.trimG.nextTo (Config.dbGain (i16 p 2)) 384 }) s
  refade i (reclass c i s)

/-- MIX_ROLE_SET (R193, R194, R199). -/
def mixRolePlan (c : Cmd) (s : State) : Plan :=
  let p := c.params
  let i := hIdx c.handle
  let cf := ((Tbl.get? s.legs i).bind Leg.conf)
  let aux := (cf.map (fun c => (confOf s c).aux)).getD 0
  let k := (cf.map (fun c => (confOf s c).k)).getD 0
  let s' := applyRole (cf.getD 0) i p s
  { op := 0x0311, handleOk := handleIn s [2] c.handle, touches := [c.handle]
    state := if cf.isNone then some (wrongState (Config.detail 0x0311 0)) else none
    param := firstBad
      [ (decide (u8 p 0 ≤ 2), badParam 0), (decide (u8 p 1 < 4), badParam 1)
      , (decide (-192 ≤ i16 p 2) && decide (i16 p 2 ≤ 48), badParam 2), (decide (u8 p 4 ≤ aux), badParam 4)
      , (!bit (u8 p 1) 0 || (mixOf s i).forced || decide (forcedWith s (cf.getD 0) i true ≤ k), ⟨St.MIX_FORCED_FULL, k⟩) ]
    res := admitChange s s' (overClasses s' (cf.getD 0))
    run := fun s =>
      let s := applyRole (cf.getD 0) i p s
      .okWith s (leN (((mixOf s i).toClass <|> (mixOf s i).cls).getD 0xFFFF) 2 ++ leN 0 6) }

/-- MIX_ROLE_SET (R193). -/
def execMixRoleSet (c : Cmd) (s : State) : Out := .next (hostCmd 0x0311 mixRolePlan c s)

/-! ### MIX_ROUTE_SET (Table 8-10, R201–R203) -/

/-- An entry of MIX_ROUTE_SET. -/
structure Route where
  op      : Nat
  kind    : Nat
  bus     : Nat
  object  : Nat
  channel : Nat
  width   : Nat
  gain    : Option Int
deriving DecidableEq, Repr

/-- The entry at index `i`; an output's or leg's OBJECT as its index. -/
def routeAt (p : List Byte) (i : Nat) : Route :=
  let o := 8 + 16 * i
  { op := u8 p o, kind := u8 p (o + 1), bus := u16 p (o + 2)
    object := if u8 p o ≤ 2 ∧ u8 p (o + 1) = 0 then u32 p (o + 4) else u32 p (o + 4) % 2 ^ 24
    channel := u16 p (o + 8), width := u8 p (o + 10)
    gain := if i16 p (o + 12) = -32768 then none else some (i16 p (o + 12)) }

/-- The parameter checks of one entry. -/
def routeChecks (s : State) (c : Nat) (p : List Byte) (i : Nat) : List (Bool × Err) :=
  let o := 8 + 16 * i
  let r := routeAt p i
  let feed := r.op == 1 || r.op == 2
  let aux := (confOf s c).aux
  let h := u32 p (o + 4)
  [ (decide (1 ≤ r.op) && decide (r.op ≤ 4), badParam o)
  , (!feed || decide (r.kind ≤ 1), badParam (o + 1))
  , (decide (r.bus ≤ aux) && (!feed || r.bus != 0), badParam (o + 2))
  , (if feed then (if r.kind = 0 then decide (h ≤ aux)
        else paramHandle s [2] h && ((Tbl.get? s.legs (h % 2 ^ 24)).bind Leg.conf) == some c)
      else paramHandle s [4] h, badParam (o + 4))
  , (feed || decide (r.channel + r.width ≤ 128), badParam (o + 8))
  , (feed || r.width == 1 || r.width == 2, badParam (o + 10))
  , (r.op != 1 || (match r.gain with
      | none => true
      | some g => decide (-384 ≤ g) && decide (g ≤ 48)), badParam (o + 12)) ]

/-- The feeds of a conference as (bus, kind, source) and its outputs as (bus, port, channel, width). -/
structure RouteSet where
  feeds : List (Nat × Nat × Nat) := []
  outs  : List (Nat × Nat × Nat × Nat) := []
deriving DecidableEq, Repr

/-- The routes of a conference that stay. -/
def routesNow (s : State) (c : Nat) : RouteSet :=
  let bs := s.audio.buses.filter fun e => e.2.conf == c
  { feeds := bs.flatMap fun e => (e.2.feeds.filter (fun f => !f.gone)).map fun f => (e.2.num, f.kind, f.src)
    outs := bs.flatMap fun e => (e.2.outs.filter (fun o => !o.gone)).map fun o => (e.2.num, o.port, o.channel, o.width) }

/-- Levels of buses that end at bus `b`: one for a bus that no bus feeds; beyond the fuel a cycle. -/
def busLevels (feeds : List (Nat × Nat × Nat)) : Nat → Nat → Nat
  | 0, _ => 0
  | fuel + 1, b =>
    1 + ((feeds.filter fun f => f.1 == b && f.2.1 == 0).map fun f => busLevels feeds fuel f.2.2).foldl max 0

/-- What reaches bus `b`, once per path: a leg by its index + 1, the main bus's talkers as 0 (R201). -/
def busPaths (feeds : List (Nat × Nat × Nat)) : Nat → Nat → List Nat
  | 0, _ => []
  | fuel + 1, b =>
    (if b = 0 then [0] else [])
      ++ (feeds.filter (fun f => f.1 == b)).flatMap fun f => if f.2.1 = 1 then [f.2.2 + 1] else busPaths feeds fuel f.2.2

/-- Whether some leg may reach a bus twice: a source listed twice, or a leg beside the main bus. -/
def twoPaths (l : List Nat) : Bool := l.length != l.eraseDups.length || (l.contains 0 && l != [0])

/-- Why a set of feeds is invalid (R201), 0 if it is not. -/
def feedsBad (aux : Nat) (feeds : List (Nat × Nat × Nat)) : Nat :=
  let buses := List.range (1 + aux)
  if buses.any fun b => decide (16 < busLevels feeds 18 b) then 1
  else if buses.any fun b => twoPaths (busPaths feeds 17 b) then 2
  else if buses.any fun b => decide (4 < busLevels feeds 18 b) then 3
  else if buses.any fun b => decide (64 < (feeds.filter (fun f => f.1 == b)).length) then 4
  else 0

/-- Whether two runs of channels overlap. -/
def overlap (a n b m : Nat) : Bool := decide (a < b + m) && decide (b < a + n)

/-- One entry on a route set: the set after it, or why not (notes/assumptions/32.md). -/
def routeStep (s : State) (c aux i : Nat) (r : Route) (x : RouteSet) : RouteSet ⊕ Err :=
  let key := (r.bus, r.kind, r.object)
  let out := (r.bus, r.object, r.channel, r.width)
  match r.op with
  | 1 =>
    if x.feeds.contains key then .inl x
    else
      let d := feedsBad aux (x.feeds ++ [key])
      if d = 0 then .inl { x with feeds := x.feeds ++ [key] } else .inr ⟨St.MIX_ROUTE_INVALID, d⟩
  | 2 => if x.feeds.contains key then .inl { x with feeds := x.feeds.filter (· != key) } else .inr (badParam (8 + 16 * i))
  | 3 =>
    let legs := (List.range r.width).any fun k => (legOwns s none r.object (r.channel + k)).isSome
    let others := s.audio.buses.any fun e => e.2.conf != c && e.2.outs.any fun o =>
      !o.gone && o.port == r.object && overlap o.channel o.width r.channel r.width
    let own := x.outs.any fun o => o.2.1 == r.object && overlap o.2.2.1 o.2.2.2 r.channel r.width
    if legs || others || own then .inr ⟨St.MIX_ROUTE_INVALID, 5⟩ else .inl { x with outs := x.outs ++ [out] }
  | _ => if x.outs.contains out then .inl { x with outs := x.outs.filter (· != out) } else .inr (badParam (8 + 16 * i))

/-- All entries in order: why the set is refused, with the entry's index. -/
def routeWalk (s : State) (c aux : Nat) : List Route → Nat → RouteSet → Option (Err × Nat)
  | [], _, _ => none
  | r :: rs, i, x =>
    match routeStep s c aux i r x with
    | .inr e => some (e, i)
    | .inl y => routeWalk s c aux rs (i + 1) y

/-- The linear gain of a feed. -/
def feedGain (g : Option Int) : Rat := (g.map Config.dbGain).getD 0

/-- One validated entry takes effect, its gain moving from the next block boundary (R203). -/
def applyRoute (c xf : Nat) (s : State) (r : Route) : State :=
  let b := busOf s c r.bus
  match r.op with
  | 1 => modBus b (fun x =>
      if x.feeds.any fun f => f.kind == r.kind && f.src == r.object then
        { x with feeds := x.feeds.map fun f => if f.kind = r.kind ∧ f.src = r.object then
            { f with qdb := r.gain, gone := false, gain := f.gain.nextTo (feedGain r.gain) xf } else f }
      else { x with feeds := x.feeds ++ [{ kind := r.kind, src := r.object, qdb := r.gain, gain := ({} : Ramp).nextTo (feedGain r.gain) xf }] }) s
  | 2 => modBus b (fun x => { x with feeds := x.feeds.map fun f =>
      if f.kind = r.kind ∧ f.src = r.object then { f with gone := true, gain := f.gain.nextTo 0 xf } else f }) s
  | 3 => modBus b (fun x => { x with outs := x.outs ++
      [{ port := r.object, channel := r.channel, width := r.width, gain := ({} : Ramp).nextTo 1 xf }] }) s
  | _ => modBus b (fun x => { x with outs := x.outs.map fun o =>
      if o.port = r.object ∧ o.channel = r.channel ∧ o.width = r.width then { o with gone := true, gain := o.gain.nextTo 0 xf } else o }) s

/-- MIX_ROUTE_SET (R201–R203). -/
def mixRoutePlan (c : Cmd) (s : State) : Plan :=
  let p := c.params
  let i := hIdx c.handle
  let n := u16 p 0
  let cf := confOf s i
  let xf := if u16 p 2 = 0xFFFF then cf.crossfade else u16 p 2
  let rs := (List.range n).map (routeAt p)
  { op := 0x0312, handleOk := handleIn s [3] c.handle, touches := [c.handle]
    len := some (8 + 16 * n)
    param := firstBad ([ (decide (1 ≤ n) && decide (n ≤ 64), badParam 0), (u16 p 2 == 0xFFFF || decide (u16 p 2 ≤ 480), badParam 2) ]
      ++ (List.range n).flatMap (routeChecks s i p))
    run := fun s =>
      match routeWalk s i cf.aux rs 0 (routesNow s i) with
      | some (e, k) => .reply s e.status e.detail 0 (leN k 4)
      | none => .ok (rs.foldl (applyRoute i xf) s) }

/-- MIX_ROUTE_SET (R203). -/
def execMixRouteSet (c : Cmd) (s : State) : Out := .next (hostCmd 0x0312 mixRoutePlan c s)

/-! ### MIX_PARAM_LOAD (Table 8-11, R204) -/

/-- How far a block number (low 32 bits, R177) lies ahead of the present block. -/
def blocksAhead (s : State) (b : Nat) : Int := signed 32 (b + 2 ^ 32 - nowBlock s % 2 ^ 32)

/-- MIX_PARAM_LOAD (R204): answered at the swap. -/
def mixParamPlan (c : Cmd) (s : State) : Plan :=
  let p := c.params
  let i := hIdx c.handle
  let d := blocksAhead s (u32 p 4)
  let timed := u8 p 1 == 1
  { op := 0x0313, handleOk := handleIn s [3] c.handle, touches := [c.handle]
    len := some 16
    param := firstBad
      [ (decide (u8 p 0 ≤ (confOf s i).aux), badParam 0), (decide (u8 p 1 ≤ 1), badParam 1)
      , (!timed || decide (0 < d), ⟨St.TIME_PASSED, 0⟩), (!timed || decide (d ≤ 10000), badParam 4)
      , (decide (-384 ≤ i16 p 8) && decide (i16 p 8 ≤ 48), badParam 8), (decide (u8 p 10 < 4), badParam 10)
      , (decide (-48 ≤ i16 p 12) && decide (i16 p 12 ≤ 0), badParam 12), (decide (u16 p 14 ≤ 48), badParam 14) ]
    run := fun s => .defer (modBus (busOf s i (u8 p 0)) (fun b => { b with shadows := b.shadows ++
      [{ set := { gain := i16 p 8, gainAuto := bit (u8 p 10) 0, limitEn := bit (u8 p 10) 1, ceiling := i16 p 12, knee := u16 p 14 }
         at_ := if timed then some (nowBlock s + d.toNat) else none, rs := c.rs, tag := c.tag }] }) s) }

/-- MIX_PARAM_LOAD (R204). -/
def execMixParamLoad (c : Cmd) (s : State) : Out := .next (hostCmd 0x0313 mixParamPlan c s)

/-! ### MIX_QUERY -/

/-- Whether a member is active (R192). -/
def legActive (s : State) (cf : Conf) (i : Nat) : Bool := decide (cf.thresh ≤ (mixOf s i).level)

/-- Whether a member's output or contribution crosses (MIX_L_TALK.CROSSING). -/
def legCrossing (m : MixLeg) : Bool := m.phase == .entering || m.phase == .crossing || (m.phase == .leaving && m.talk.goal == 0)

/-- The talkers, loudest first. -/
def talkersLoud (s : State) (cf : Conf) : List Nat := sortBy (louder s) (cf.talkers.filter (isTalker s cf))

/-- MIX_L_TALK[2:0]. -/
def talkBits (s : State) (i : Nat) : Nat :=
  match (Tbl.get? s.legs i).bind Leg.conf with
  | none => 0
  | some c => b2n (legActive s (confOf s c) i) + 2 * b2n (isTalker s (confOf s c) i) + 4 * b2n (legCrossing (mixOf s i))

/-- The 64 bytes that MIX_QUERY answers on a leg. -/
def mixLegRecord (s : State) (i : Nat) : List Byte :=
  let m := mixOf s i
  let j := jitOf s i
  let l : Leg := (Tbl.get? s.legs i).getD {}
  leN l.role 1 ++ leN (b2n m.forced + 2 * b2n m.muted) 1 ++ leN m.bus 1 ++ leN 0 1 ++ leN (clsField m) 2 ++ leN (toTwos 16 m.trim) 2
    ++ leN (toTwos 16 m.level) 2 ++ leN (talkBits s i) 1 ++ leN 0 1
    ++ (if l.type = 2 then leN 0 8 else leN (48 * j.target) 2 ++ leN j.depth 2 ++ leN (toTwos 32 j.drift) 4)
    ++ leN j.mismatch 4 ++ leN j.concealed 8 ++ leN j.late 8 ++ leN j.dup 8 ++ leN j.early 8 ++ leN j.resyncs 8

/-- A talker's entry. -/
def talkerEntry (s : State) (cf : Conf) (i : Nat) : List Byte :=
  let m := mixOf s i
  leN i 4 ++ leN (toTwos 16 m.level) 2 ++ leN (b2n m.forced + 2 * b2n (legCrossing m) + 4 * b2n (!legActive s cf i)) 1 ++ leN 0 1

/-- MIX_QUERY, on a conference or a leg. -/
def mixQueryPlan (c : Cmd) (s : State) : Plan :=
  Plan.query 0x0314 false (handleIn s [2, 3] c.handle) 8 none (fun s =>
    let i := hIdx c.handle
    if hCls c.handle = 2 then recordAnswer (mixLegRecord s i)
    else
      let cf := confOf s i
      let waiting := cf.talkers.filter fun j => legStarved (mixOf s j)
      itemsAnswer (leN cf.k 1 ++ leN (talkerCount s cf) 1 ++ leN waiting.length 1 ++ leN cf.classes.length 1 ++ leN cf.firstBus 2 ++ leN 0 2)
        ((talkersLoud s cf).map (talkerEntry s cf)) (u32 c.params 0))

/-- MIX_QUERY (R184). -/
def execMixQuery (c : Cmd) (s : State) : Out := .next (hostCmd 0x0314 mixQueryPlan c s)

end Sys2Proof.Machine
end

