-- ==== Sys2Proof/Machine/VideoOps.lean ====
section
/-! DEFINITION. Machine/VideoOps.lean: what the video chapters share: incoming streams, key-picture requests
(R258), the hand-over of pictures to encode streams (R269, R274). -/

namespace Sys2Proof.Machine

def decOf (s : State) (i : Nat) : Dec := Tbl.getD s.video.decs i {}
def modDec (i : Nat) (f : Dec → Dec) (s : State) : State := { s with video.decs := Tbl.modify s.video.decs i f }
def decH (i : Nat) : Word := mkH 6 i
def cmpH (i : Nat) : Word := mkH 7 i
def encH (i : Nat) : Word := mkH 8 i
def fwdH (i : Nat) : Word := mkH 9 i

/-- The ns of `n` ms. -/
def msNs (n : Nat) : Nat := n * 1000000

/-- The period in ns of a rate in 1/1,000 per second. -/
def periodNs (fps : Nat) : Nat := 1000000000000 / max 1 fps

/-- The counter of decode stream `i` and its device-wide sum. -/
def bumpDec (g w i : Nat) (s : State) : State := bump g (bump (winKey w i) s)

/-- Replace the bytes of `old` that the mask selects by those of `new`, over `n` bytes. -/
def maskTo (n : Nat) (old new : List Byte) (mask : Nat) : List Byte :=
  (List.range n).map fun k => if bit mask k then new.getD k 0 else old.getD k 0

/-! ### Incoming streams -/

/-- The number of an incoming stream: leg × 8 + slot. -/
def vkey (leg slot : Nat) : Nat := 8 * leg + slot

def streamOf (s : State) (k : Nat) : VStream := Tbl.getD s.video.streams k {}
def modStream (k : Nat) (f : VStream → VStream) (s : State) : State :=
  { s with video.streams := Tbl.upd s.video.streams k {} f }

/-- The slots of a leg's simulcast group, from the stream of the smallest measured picture to the largest (R282). -/
def groupSlots (s : State) (leg : Nat) : List Nat :=
  let n := ((Tbl.get? s.legs leg).map Leg.videoIn).getD 0
  let size := fun k => (streamOf s (vkey leg k)).size
  sortBy (fun a b => decide (size a < size b) || (size a == size b && decide (a < b))) ((List.range n).map (· + 1))

/-- The entry of a forward set. -/
def entryOf (s : State) (leg e : Nat) : Option FwdEntry := (Tbl.get? s.video.fwd leg).bind fun f => Tbl.get? f.entries e

/-- The incoming stream that an entry forwards now; none where it carries an encode stream. -/
def entryInput (e : FwdEntry) : Option Nat :=
  match e.src with
  | some (.leg l slot) => if slot = 0 then (if e.stream = 0 then none else some (vkey l e.stream)) else some (vkey l slot)
  | _ => none

/-- The incoming stream that a decode stream takes. -/
def decInput (s : State) (d : Dec) : Option Nat :=
  if bit d.dflags 1 then (entryOf s (hIdx d.source) d.slot).bind entryInput
  else some (vkey (hIdx d.source) d.slot)

/-- KREQ of a decode stream. -/
def Dec.kreqMode (d : Dec) : Nat := bits d.dflags 3 2

/-- The layer that a following stream's entry sends (VDE_W_SLOT). -/
def layerBits (l : Option Layer) : Nat :=
  match l with
  | some x => x.s + 4 * x.t
  | none => 0

/-! ### Key-picture requests (R258) -/

def kreqOf (s : State) (k : Nat) : KeyReq := Tbl.getD s.video.kreqs k {}
def modKreq (k : Nat) (f : KeyReq → KeyReq) (s : State) : State := { s with video.kreqs := Tbl.upd s.video.kreqs k {} f }

/-- KREQ_GAP, never below 250 ms, and FIR_AFTER_MS, in cycles. -/
def kreqGap (s : State) : Nat := msCycles (10 * max 25 (rgBits s R.VDE_CTRL 7 0))
def firAfter (s : State) : Nat := msCycles (rgBits s R.VDE_CTRL 19 8)

/-- A request of kind 1 (PLI) or 2 (FIR) leaves for an incoming stream, for those who asked. -/
def sendKreq (k kind : Nat) (by_ : List Word) (s : State) : State :=
  let s := modKreq k (fun r => { r with lastAt := some s.clock.cycles, pend := 0, by_ := [] }) s
  let s := bump R.VDE_KEY_REQUESTS s
  let s := by_.foldl (fun s h =>
    if hCls h = 6 then
      modDec (hIdx h) (fun d => { d with kreq := max d.kreq kind, reqAt := some s.clock.cycles, reqs := d.reqs + 1 })
        (bump (winKey R.VDE_W_KEY_REQUESTS (hIdx h)) s)
    else modStream k (fun v => { v with reqAt := some s.clock.cycles, firSent := v.firSent || kind == 2 }) (bump R.LFW_KREQ_UP s)) s
  let (v, s) := takeFree s
  (sendMedia (k / 8) 0xFF (v % 2048) true s).2

/-- A requester asks for a key picture of an incoming stream: sent at once, or when the limit allows. -/
def requestKey (k kind : Nat) (by_ : Word) (s : State) : State :=
  let r := kreqOf s k
  let due := match r.lastAt with
    | some a => decide (a + kreqGap s ≤ s.clock.cycles)
    | none => true
  if due then sendKreq k (max kind r.pend) (r.by_.filter (· != by_) ++ [by_]) s
  else modKreq k (fun r => { r with pend := max r.pend kind, by_ := r.by_.filter (· != by_) ++ [by_] }) s

/-- A requester's taint has ended: its waiting request is not sent. -/
def cancelKey (k : Nat) (by_ : Word) (s : State) : State :=
  if (kreqOf s k).by_.contains by_ then
    modKreq k (fun r => let b := r.by_.filter (· != by_); { r with by_ := b, pend := if b = [] then 0 else r.pend }) s
  else s

/-- The next FIR sequence number of an incoming stream. -/
def takeFir (k : Nat) (s : State) : Nat × State :=
  let f := ((kreqOf s k).fir + 1) % 256
  (f, modKreq k (fun r => { r with fir := f }) s)

/-! ### Pictures handed to encode streams -/

/-- R of an encode stream in 1/1,000 fps is the source rate over FPS_DIV (R274); its period in ns. -/
def encPeriod (s : State) (e : Enc) : Nat := 1000000000000 * e.fpsDiv / max 1 (encSrcFps s e.source)

/-- The engine's deadline for a picture of an encode stream's source (R269). -/
def encDeadline (s : State) (e : Enc) (instant : Nat) : Nat :=
  instant + encPeriod s e
    + (if hCls e.source = 7 then periodNs (((Tbl.get? s.video.comps (hIdx e.source)).map Comp.fps).getD 0) else 0)

/-- Whether a source picture becomes a repeat: a marker, or a tainted one under SKIP_TAINTED (R274). -/
def Enc.repeats (e : Enc) (p : SrcPic) : Bool := p.repeat_ || (bit e.eflags 2 && p.tainted)

/-- Every encode stream that names the source takes the picture, one in FPS_DIV of them (R274). -/
def feedEncs (source : Word) (instant : Nat) (marker tainted : Bool) (s : State) : State :=
  { s with video.encs := Tbl.each s.video.encs (fun _ e =>
      if e.source = source ∧ e.state ≠ .deleting then
        let e' := { e with srcSeen := e.srcSeen + 1 }
        if e.srcSeen % max 1 e.fpsDiv = 0 then
          { e' with queue := e.queue ++ [{ instant, repeat_ := marker, tainted, deadline := encDeadline s e instant }] }
        else e'
      else e) }

/-- The encode streams that name a source. -/
def encsOn (s : State) (source : Word) : Nat := (s.video.encs.filter fun e => e.2.source == source).length

/-- The pool streams of a composition (R260). -/
def poolOf (s : State) (comp : Nat) : List Nat := (s.video.decs.filter fun e => e.2.comp == cmpH comp).map Prod.fst

end Sys2Proof.Machine
end

