-- ==== Sys2Proof/Machine/VideoDec.lean ====
section
/-! DEFINITION. Machine/VideoDec.lean: decode streams (R248–R260). -/

namespace Sys2Proof.Machine

/-! ### Parameters (Table 11-9) -/

/-- The 32 parameter bytes in force. -/
def decBytes (d : Dec) : List Byte :=
  fit (leN d.codec 1 ++ leN d.dflags 1 ++ leN d.slot 1 ++ leN d.opPoint 1 ++ leN d.source.toNat 4 ++ leN d.maxW 2 ++ leN d.maxH 2
    ++ leN d.fps 4 ++ leN d.comp.toNat 4 ++ leN d.reorder 2 ++ leN d.spatial 1) 32

/-- The stream with the parameters of a block. -/
def decWith (d : Dec) (p : List Byte) : Dec :=
  { d with
    codec := u8 p 0, dflags := u8 p 1, slot := u8 p 2, opPoint := u8 p 3, source := BitVec.ofNat 32 (u32 p 4)
    maxW := u16 p 8, maxH := u16 p 10, fps := u32 p 12, comp := BitVec.ofNat 32 (u32 p 16)
    reorder := if u16 p 20 = 0 then 20 else u16 p 20, spatial := if u8 p 22 = 0 then 1 else u8 p 22 }

def decUnsupported (d : Nat) : Err := ⟨St.DEC_UNSUPPORTED, d⟩

/-- The checks of R248, R249 and Table 11-9 on a block. -/
def decBad (s : State) (p : List Byte) : Option Err :=
  let d := decWith {} p
  let follow := bit d.dflags 1
  let leg := hIdx d.source
  let src := if follow then paramHandle s [9] (u32 p 4) else paramHandle s [2] (u32 p 4)
  let even := fun lo hi n => decide (lo ≤ n) && decide (n ≤ hi) && n % 2 == 0
  firstBad
    [ (decide (d.codec ≤ 3), decUnsupported 1)
    , (decide (d.dflags < 16) && decide (d.kreqMode ≤ 2), badParam 1)
    , (!bit d.dflags 0 || d.codec == 1 || d.codec == 2, decUnsupported 4)
    , (if follow then decide (d.slot ≤ 15)
       else decide (1 ≤ d.slot) && decide (d.slot ≤ 4) && (!src || decide (d.slot ≤ ((Tbl.get? s.legs leg).map Leg.videoIn).getD 0)), badParam 2)
    , (decide (d.opPoint ≤ if d.codec = 2 then 31 else 7), badParam 3)
    , (src, badParam 4)
    , (even 64 4096 d.maxW && even 64 2304 d.maxH, decUnsupported 2)
    , (decide (1000 ≤ d.fps) && decide (d.fps ≤ 120000), badParam 12)
    , (d.comp == 0 || paramHandle s [7] (u32 p 16), badParam 16)
    , (decide (5 ≤ d.reorder) && decide (d.reorder ≤ 200), badParam 20)
    , (decide (d.spatial ≤ 3), badParam 22)
    , (decide (decCharge d ≤ engineCap s 40 48), decUnsupported 3) ]

/-- A stream may join the pool of its composition: its source leg is a member of the conference (R260). -/
def poolMember (s : State) (d : Dec) : Bool :=
  match Tbl.get? s.video.comps (hIdx d.comp) with
  | some c => d.comp == 0 || ((Tbl.get? s.legs (hIdx d.source)).bind Leg.conf) == some c.conf
  | none => true

/-- The 257th stream of a pool (R260). -/
def poolFull (s : State) (self : Option Nat) (d : Dec) : Bool :=
  d.comp != 0 && decide (256 ≤ ((poolOf s (hIdx d.comp)).filter fun i => some i != self).length)

/-! ### Placement (R251) -/

def vdePlaced (s : State) : List Placed := s.video.decs.map fun e => ⟨e.1, e.2.engine, decCharge e.2⟩

/-- A stream is placed whole on one engine. -/
def placeDec (i load : Nat) (s : State) : State :=
  let (l, s) := placeUser (enginesIn s 0x0E .inService) (engineCap s 40 48) 128
    ((vdePlaced s).filter (fun p => p.user != i)) i load s
  l.foldl (fun s p => modDec p.user (fun d => { d with engine := p.engine }) s) s

/-- The window counters of a stream. -/
def vdeCounters : List Nat :=
  [R.VDE_W_PICTURES, R.VDE_W_CONCEALED, R.VDE_W_MISSING_REF, R.VDE_W_TAINTED, R.VDE_W_KEY_REQUESTS, R.VDE_W_RATE_DROPS
  , R.VDE_W_SYNTAX_ERRORS, R.VDE_W_OVERSIZE, R.VDE_W_PRE_KEY, R.VDE_W_LATE_PKTS, R.VDE_W_LATE, R.VDE_W_LAST_PIC, R.VDE_W_DECODE_MAX]

/-- The window registers of instance `i` start from zero. -/
def clearWindow (l : List Nat) (i : Nat) (s : State) : State := l.foldl (fun s r => setRg (winKey r i) 0 s) s

/-- The results of DEC_CREATE: handle, charge in ksample/s, engine. -/
def chargeResult (h : Word) (charge engine : Nat) : List Byte :=
  leN h.toNat 4 ++ leN (kSample charge) 4 ++ leN engine 1 ++ leN 0 7

/-- A request for a key picture, where KREQ asks for them. -/
def askKey (i : Nat) (s : State) : State :=
  let d := decOf s i
  match decInput s d with
  | some k => if d.kreqMode = 0 then s else requestKey k 1 (decH i) s
  | none => s

/-! ### DEC_CREATE -/

/-- DEC_CREATE (R248–R251, R260). -/
def decCreatePlan (c : Cmd) (s : State) : Plan :=
  let i := newIndex s.video.decs c.handle 0 6144
  let d := decWith {} c.params
  { op := 0x0601, handleOk := handleNew 6 c.handle
    touches := c.handle :: (if d.comp ≠ 0 ∧ paramHandle s [7] d.comp.toNat then [d.comp] else [])
    state := (notFree 0x0601 s.video.decs c.handle) <|> (if poolMember s d then none else some (wrongState 3))
    len := some 32
    param := decBad s c.params
    res := match i with
      | none => some (noResource 10)
      | some i => (admitChange s { s with video.decs := Tbl.put s.video.decs i d } false)
          <|> (if poolFull s none d then some (noResource 0x61) else none)
    run := fun s => match i with
      | none => .ok s
      | some i =>
        let s := clearWindow vdeCounters i { s with video.decs := Tbl.put s.video.decs i d }
        let s := askKey i (placeDec i (decCharge d) s)
        .okWith s (chargeResult (decH i) (decCharge d) (decOf s i).engine) }

/-- DEC_CREATE (R250). -/
def execDecCreate (c : Cmd) (s : State) : Out := .next (hostCmd 0x0601 decCreatePlan c s)

/-! ### DEC_MODIFY -/

/-- A stream takes another coding, source or slot: it waits for a key picture of it (Table 11-2). -/
def restartDec (i : Nat) (s : State) : State :=
  let old := decInput s (decOf s i)
  let s := match old with
    | some k => cancelKey k (decH i) s
    | none => s
  modDec i (fun d => { d with
    state := .waitKey, asm := [], hiSeq := none, sent := [], queue := [], dirty := [], gaps := [], taint := 0, taintAt := none
    want := false, kreq := 0, reqAt := none, reqs := 0, fir := none, noKeySaid := false, rate := [] }) s

/-- The modified stream takes effect. -/
def applyDec (i : Nat) (d : Dec) (s : State) : State :=
  let old := decOf s i
  let fresh := d.codec != old.codec || d.source != old.source || d.slot != old.slot || bit d.dflags 1 != bit old.dflags 1
  let s := if fresh then restartDec i s else s
  let s := modDec i (fun x => { decWith x (decBytes d) with reorder := d.reorder }) s
  let s := if decCharge d = decCharge old then s
    else if hasRoom ((vdePlaced s).filter (fun p => p.user != i)) (engineCap s 40 48) 128 (decCharge d) old.engine then s
    else placeDec i (decCharge d) s
  if fresh then askKey i s else s

/-- DEC_MODIFY (R17's mask, R250). -/
def decModifyPlan (c : Cmd) (s : State) : Plan :=
  let i := hIdx c.handle
  let old := decOf s i
  let b := maskTo 32 (decBytes old) c.params (u64 c.params 32)
  let d := decWith old b
  { op := 0x0602, handleOk := handleIn s [6] c.handle
    touches := c.handle :: (if d.comp ≠ old.comp ∧ paramHandle s [7] d.comp.toNat then [d.comp] else [])
    state := if old.state = .deleting then some (wrongState (Config.detail 0x0602 0))
      else if (d.comp ≠ old.comp ∨ d.source ≠ old.source) ∧ ¬ poolMember s d then some (wrongState 3) else none
    len := some 40
    param := decBad s b
    res := (admitChange s { s with video.decs := Tbl.modify s.video.decs i (fun _ => d) } false)
      <|> (if poolFull s (some i) d then some (noResource 0x61) else none)
    run := fun s => .ok (applyDec i d s) }

/-- DEC_MODIFY (R250). -/
def execDecModify (c : Cmd) (s : State) : Out := .next (hostCmd 0x0602 decModifyPlan c s)

/-! ### DEC_DELETE -/

/-- A fixed tile or an encode stream names the stream. -/
def decNamed (s : State) (i : Nat) : Bool :=
  (s.video.comps.any fun c => c.2.tiles.any fun t => t.tdef.mode == 1 && t.tdef.stream == decH i)
    || decide (0 < encsOn s (decH i))

/-- A tile no longer shows stream `i`. -/
def dropStream (i : Nat) (t : Tile) : Tile := if t.stream == some i then { t with stream := none, shown := none } else t

/-- A stream returns to FREE, and its DEC_DELETE is answered. -/
def freeDec (i : Nat) (s : State) : State :=
  let d := decOf s i
  let s := match decInput s d with
    | some k => cancelKey k (decH i) s
    | none => s
  let s := leaveLeases (decH i) { s with
    video.decs := Tbl.del s.video.decs i
    video.comps := Tbl.each s.video.comps (fun _ c => { c with tiles := c.tiles.map (dropStream i) }) }
  match d.deleter with
  | some (rs, tag) => finishRunning rs tag St.OK 0 1 [] s
  | none => s

/-- DEC_DELETE (R250): answered when the current picture is committed. -/
def decDeletePlan (c : Cmd) (s : State) : Plan :=
  let i := hIdx c.handle
  { op := 0x0603, handleOk := handleIn s [6] c.handle, touches := [c.handle]
    state := if (decOf s i).state = .deleting then some (wrongState (Config.detail 0x0603 0))
      else if decNamed s i then some (wrongState 1) else none
    run := fun s =>
      let s' := modDec i (fun d => { d with state := .deleting, asm := [], queue := d.queue.take 1, deleter := some (c.rs, c.tag) }) s
      .defer (if (decOf s i).queue = [] then freeDec i s' else s') }

/-- DEC_DELETE (R250). -/
def execDecDelete (c : Cmd) (s : State) : Out := .next (hostCmd 0x0603 decDeletePlan c s)

/-! ### DEC_QUERY -/

/-- Pictures decoded over the last second, 1/1,000 fps. -/
def decRate (s : State) (d : Dec) (all_ : Bool) : Nat :=
  1000 * (d.rate.filter fun r => decide (s.clock.cycles < r.1 + msCycles 1000) && (all_ || r.2.2)).length

/-- One half of a window counter. -/
def ctrHalf (s : State) (base i off : Nat) : Nat :=
  let v := rgRaw s (winKey (base + (off - base) / 8 * 8) i)
  if (off - base) % 8 = 0 then v % 2 ^ 32 else v / 2 ^ 32

def decStateNum : DecState → Nat
  | .waitKey => 1
  | .decoding => 2
  | .deleting => 3

/-- Word `n` of the window of a decode stream (Table 11-13); VDE_W_REFCOMP is a measurement and not here. -/
def decWord (s : State) (i n : Nat) : Nat :=
  match Tbl.get? s.video.decs i with
  | none => 0
  | some d =>
    match n with
    | 0 => d.codec + 4 * b2n (bit d.dflags 0) + 8 * b2n (bit d.dflags 1) + 16 * d.kreqMode + 64 * d.spatial + 256 * d.opPoint
        + 65536 * d.engine + 2 ^ 24 * decStateNum d.state
    | 1 => d.source.toNat
    | 2 => d.slot + (if bit d.dflags 1 then 256 * layerBits ((entryOf s (hIdx d.source) d.slot).bind FwdEntry.current) else 0)
    | 3 => d.maxW + 65536 * d.maxH
    | 4 => d.fps
    | 5 => (d.pics.head?.map fun p => p.w + 65536 * p.h).getD 0
    | 6 => decRate s d false
    | 7 => b2n (d.taint != 0) + 2 * d.kreq + 256 * d.taint
        + 65536 * min 65535 ((d.taintAt.map fun a => cyclesMs (s.clock.cycles - a)).getD 0)
    | 8 => d.comp.toNat
    | 33 => rgRaw s (winKey R.VDE_W_DECODE_MAX i)
    | n => if n < 33 then ctrHalf s R.VDE_W_PICTURES i (R.VDE_W_CFG + 4 * n) else 0

/-- DEC_QUERY: the window registers in offset order; its parameter length is not given
(notes/assumptions/12.md). -/
def decQueryPlan (c : Cmd) (s : State) : Plan :=
  { op := 0x0604, priv := 0, handleOk := handleIn s [6] c.handle, len := none
    run := fun s =>
      let v := takeFree s
      .okWith v.2 ((List.range 34).flatMap (fun n => leN (decWord s (hIdx c.handle) n) 4) ++ leN (v.1 % 256) 4) }

/-- DEC_QUERY (Table 11-13). -/
def execDecQuery (c : Cmd) (s : State) : Out := .next (hostCmd 0x0604 decQueryPlan c s)

/-! ### Reassembly (R253) -/

/-- The final packet of a picture and every earlier one are present. -/
def AsmPic.complete (a : AsmPic) : Bool :=
  match a.first, a.last with
  | some f, some l => a.seqs.length == (l + 65536 - f) % 65536 + 1
  | _, _ => false

/-- Whether timestamp `a` lies before `b`. -/
def tsBefore (a b : Nat) : Bool := decide (signed 32 (a + 2 ^ 32 - b % 2 ^ 32) < 0)

/-- The oldest picture may go to decode: complete, or its REORDER_MS have passed. -/
def asmReady (d : Dec) (cycles : Nat) : Bool :=
  match d.asm with
  | [] => false
  | a :: _ => a.complete || match a.laterAt with
    | some t => decide (t + msCycles d.reorder ≤ cycles)
    | none => false

/-- Pictures go to decode in timestamp order while the oldest may. -/
def flushAsm (cycles : Nat) : Nat → Dec → Dec
  | 0, d => d
  | fuel + 1, d =>
    match d.asm with
    | [] => d
    | a :: t =>
      if asmReady d cycles then
        flushAsm cycles fuel { d with asm := t, sent := (a.ts :: d.sent).take 64, queue := d.queue ++ [⟨a.ts, a.complete, a.lastNs⟩] }
      else d

/-- A packet joins the picture of its timestamp. -/
def asmInsert (ts seq now cycles : Nat) (first last : Bool) : List AsmPic → List AsmPic
  | [] => [{ ts, first := if first then some seq else none, last := if last then some seq else none, seqs := [seq], lastNs := now }]
  | a :: t =>
    if a.ts = ts then
      { a with first := if first then some seq else a.first, last := if last then some seq else a.last
               seqs := if a.seqs.contains seq then a.seqs else a.seqs ++ [seq], lastNs := now } :: t
    else if tsBefore ts a.ts then
      { ts, first := if first then some seq else none, last := if last then some seq else none, seqs := [seq]
        lastNs := now, laterAt := some cycles } :: a :: t
    else { a with laterAt := some (a.laterAt.getD cycles) } :: asmInsert ts seq now cycles first last t

/-- A packet arrives after its picture went to decode, or from outside the window. -/
def asmLate (d : Dec) (ts seq : Nat) : Bool :=
  (match d.sent.head? with
    | some t => t == ts || tsBefore ts t
    | none => false)
    || (match d.hiSeq with
        | some h => decide (signed 16 (seq + 65536 - h) ≤ -64)
        | none => false)

/-- A packet of a decode stream's input arrives (R253). -/
def decArrive (i ts seq : Nat) (first last : Bool) (s : State) : State :=
  let d := decOf s i
  if d.state = .deleting then s
  else if asmLate d ts seq then bump (winKey R.VDE_W_LATE_PKTS i) s
  else
    let hi := match d.hiSeq with
      | some h => if 0 < signed 16 (seq + 65536 - h) then seq else h
      | none => seq
    modDec i (fun d =>
      let d := { d with hiSeq := some hi, asm := asmInsert ts seq (nowNs s) s.clock.cycles first last d.asm }
      flushAsm s.clock.cycles (d.asm.length + 1) d) s

/-- The cycle at which the oldest incomplete picture goes to decode all the same. -/
def reorderDue (d : Dec) : Option Nat := (d.asm.head?.bind AsmPic.laterAt).map (· + msCycles d.reorder)

/-- REORDER_TIMEOUT (R253). -/
def reorderTimeout (i : Nat) (s : State) : State :=
  match reorderDue (decOf s i) with
  | none => s
  | some due =>
    let s := tickTo due s
    modDec i (fun d => flushAsm s.clock.cycles (d.asm.length + 1) d) s
def execReorderTimeout (stream : Nat) (s : State) : Out := .next (reorderTimeout stream s)

/-! ### PICTURE_DECODE -/

/-- DEC_LIMIT for a case of Table 11-3, at most once per 10 s. -/
def decLimit (i case_ cause : Nat) (v : PicFacts) (s : State) : State :=
  let d := decOf s i
  let hushed := match Tbl.get? d.limitAt case_ with
    | some a => decide (s.clock.cycles < a + msCycles 10000)
    | none => false
  if hushed then s
  else
    raiseUnless R.VDE_EVENT_MASK 1 Ev.DEC_LIMIT (decH i)
      (leN cause 1 ++ leN 0 3 ++ leN v.w 2 ++ leN v.h 2 ++ leN (decRate s d true) 4)
      (modDec i (fun d => { d with limitAt := Tbl.put d.limitAt case_ s.clock.cycles }) s)

/-- A picture is written: to the pool, and to the encode streams that name the stream. -/
def writePic (i : Nat) (p : Pic) (s : State) : State :=
  let bad := p.tainted || p.concealed
  let s := if p.concealed then bumpDec R.VDE_CONCEALED R.VDE_W_CONCEALED i s else s
  let s := if p.tainted then bumpDec R.VDE_TAINTED R.VDE_W_TAINTED i s else s
  let s := modDec i (fun d => { d with
    num := d.num + 1, pics := (p :: d.pics).take 8, clean := if bad then d.clean else some p
    dirty := if bad then (p.num :: d.dirty).take 64 else d.dirty }) s
  feedEncs (decH i) (nowNs s) false bad (setRg (winKey R.VDE_W_LAST_PIC i) (nowShort s).toNat s)

/-- A gap opens in a temporal layer: REF_MISSING once, a substitute for a missing picture, and a request where KREQ asks
for one (R256, R258). `cause` 0 reference absent, 1 part of a picture absent, 2 syntax error. -/
def openGap (i layer cause ts : Nat) (s : State) : State :=
  let d := decOf s i
  if d.gaps.contains layer then s
  else
    let s := raiseUnless R.VDE_EVENT_MASK 0 Ev.REF_MISSING (decH i)
      (leN layer 1 ++ leN cause 1 ++ leN (b2n (d.pics == [])) 1 ++ leN 0 1 ++ leN d.sinceKey 4 ++ leN ts 4) s
    let s := modDec i (fun d => { d with gaps := d.gaps ++ [layer], want := d.want || d.kreqMode != 0 }) s
    let s := if cause = 0 then
        writePic i { num := d.num, at_ := nowNs s, w := (d.pics.head?.map Pic.w).getD 0, h := (d.pics.head?.map Pic.h).getD 0, concealed := true }
          (bumpDec R.VDE_MISSING_REF R.VDE_W_MISSING_REF i s)
      else s
    askKey i s

/-- The taint of a stream after a change of its layers: it starts or ends (R257, R258). -/
def settleTaint (i old : Nat) (s : State) : State :=
  let d := decOf s i
  if old == 0 && d.taint != 0 then modDec i (fun d => { d with taintAt := some s.clock.cycles, noKeySaid := false }) s
  else if d.taint = 0 ∧ (old ≠ 0 ∨ d.sinceKey = 0) then
    let s := modDec i (fun d => { d with taintAt := none, want := false, kreq := 0, reqAt := none, reqs := 0, fir := none, noKeySaid := false }) s
    match decInput s d with
    | some k => cancelKey k (decH i) s
    | none => s
  else s

/-- A picture is decoded as far as its data allows, and written (R256, R257). -/
def decodeAllowed (i : Nat) (p : DecPic) (v : PicFacts) (s : State) : State :=
  let absent := v.absent && !v.exempt && !v.key
  let s := if absent then openGap i v.temporal 0 p.ts s else s
  let s := if v.syntaxError then bumpDec R.VDE_SYNTAX_ERRORS R.VDE_W_SYNTAX_ERRORS i s else s
  let concealed := !p.complete || v.syntaxError
  let s := if !p.complete then openGap i v.temporal 1 p.ts s
    else if v.syntaxError then openGap i v.temporal 2 p.ts s else s
  let d := decOf s i
  let tainted := !v.key && (absent || v.refs.any d.dirty.contains)
  let s := writePic i { num := d.num, at_ := nowNs s, w := v.w, h := v.h, tainted, concealed }
    (bumpDec R.VDE_PICTURES R.VDE_W_PICTURES i s)
  let s := modDec i (fun d => { d with
    state := .decoding, sinceKey := if v.key then 0 else d.sinceKey + 1
    gaps := if p.complete then d.gaps.filter (· != v.temporal) else d.gaps, taint := setBit d.taint v.temporal tainted }) s
  settleTaint i d.taint s

/-- A picture beyond the declaration is not decoded and counts as a missing picture (Table 11-3). -/
def beyondLimit (i case_ cause : Nat) (p : DecPic) (v : PicFacts) (s : State) : State :=
  let s := decLimit i case_ cause v (bump (winKey R.VDE_W_OVERSIZE i) s)
  if (decOf s i).state = .decoding then openGap i v.temporal 0 p.ts s else s

/-- The pictures of the last second with this one, and whether their rate is above 1.25 × MAX_FPS. -/
def overRate (s : State) (d : Dec) : Bool := decide (125 * d.fps < 100 * (decRate s d false + 1000))

/-- The engine takes one picture of a stream. -/
def decodeOne (i : Nat) (p : DecPic) (v : PicFacts) (s : State) : State :=
  let d := decOf s i
  if d.state = .waitKey ∧ ¬ v.key then bump (winKey R.VDE_W_PRE_KEY i) s
  else if d.codec ≠ 2 ∧ d.opPoint < v.temporal then s
  else if d.maxW < v.w ∨ d.maxH < v.h then beyondLimit i 0 0 p v s
  else if v.excluded then beyondLimit i 0 1 p v s
  else if v.bit10 ∧ ¬ bit d.dflags 0 then beyondLimit i 1 3 p v s
  else
    let recent := d.rate.filter fun r => decide (s.clock.cycles < r.1 + msCycles 1000)
    let fast := overRate s d
    let top := (recent.map fun r => r.2.1).foldl max v.temporal
    let dropped := fast && v.unref && v.temporal == top
    let s := modDec i (fun d => { d with rate := recent ++ [(s.clock.cycles, v.temporal, !dropped)] }) s
    let s := if fast then decLimit i 2 2 v s else s
    if dropped then bumpDec R.VDE_RATE_DROPS R.VDE_W_RATE_DROPS i s
    else
      let s := decodeAllowed i p v s
      let late := decide (p.lastNs + periodNs d.fps < nowNs s)
      let s := if late then bump (winKey R.VDE_W_LATE i) s else s
      trackMax (winKey R.VDE_W_DECODE_MAX i) ((nowNs s - p.lastNs) / 1000) s

/-- The stream that an engine serves next: the one of the earliest deadline (R251). -/
def nextDecode (s : State) (engine : Nat) : Option Nat :=
  let dl := fun i => match (decOf s i).queue.head? with
    | some p => p.lastNs + periodNs (decOf s i).fps
    | none => 0
  firstBy (fun a b => decide (dl a < dl b) || (dl a == dl b && decide (a < b)))
    ((s.video.decs.filter fun e => e.2.engine == engine && e.2.queue != []).map Prod.fst)

/-- PICTURE_DECODE (R251–R258). -/
def pictureDecode (v : PicFacts) (s : State) : State :=
  match nextDecode s v.engine with
  | none => s
  | some i =>
    match (decOf s i).queue with
    | [] => s
    | p :: rest =>
      let s := tickToNs (p.lastNs + v.takesUs * 1000) s
      let gone := (decOf s i).state == .deleting
      let s := decodeOne i p v (modDec i (fun d => { d with queue := rest }) s)
      if gone then freeDec i s else s
def execPictureDecode (v : PicFacts) (s : State) : Out := .next (pictureDecode v s)

/-! ### Requests over time (R258) -/

/-- The forwarding policy of a leg's conference (Table 12-11). -/
def policyFor (s : State) (leg : Nat) : FwdPolicy :=
  match (Tbl.get? s.legs leg).bind Leg.conf with
  | some c => Tbl.getD s.video.policies c {}
  | none => {}

/-- A request that the limit deferred leaves when the limit allows; LFW's FIR follows its PLI after FIR_AFTER_MS under
REQ_MODE 2 (R258, R291). -/
def keyRequestSend (leg slot : Nat) (s : State) : State :=
  let k := vkey leg slot
  let r := kreqOf s k
  let v := streamOf s k
  if r.pend ≠ 0 then
    let s := tickTo (r.lastAt.getD 0 + kreqGap s) s
    sendKreq k r.pend r.by_ s
  else
    match v.reqAt with
    | some a =>
      if v.taint ≠ 0 ∧ ¬ v.firSent ∧ (policyFor s leg).reqMode = 2 then
        let s := tickTo (a + firAfter s) s
        requestKey k 2 (fwdH leg) (takeFir k s).2
      else s
    | none => s
def execKeyRequestSend (leg slot : Nat) (s : State) : Out := .next (keyRequestSend leg slot s)

/-- FIR_REPEAT: FIR_AFTER_MS after the last request of a taint with KREQ 2 (R258). -/
def firRepeat (i : Nat) (s : State) : State :=
  let d := decOf s i
  match d.reqAt, decInput s d with
  | some a, some k =>
    if d.taint ≠ 0 ∧ d.want ∧ d.kreqMode = 2 then
      let s := tickTo (a + firAfter s) s
      let s := if d.fir.isSome then s
        else
          let f := takeFir k s
          modDec i (fun d => { d with fir := some f.1 }) f.2
      requestKey k 2 (decH i) s
    else s
  | _, _ => s
def execFirRepeat (stream : Nat) (s : State) : Out := .next (firRepeat stream s)

/-- DEC_NO_KEY, once, after 5 s of taint (R258). -/
def decNoKey (i : Nat) (s : State) : State :=
  let d := decOf s i
  match d.taintAt with
  | some a =>
    if d.noKeySaid then s
    else
      let s := tickTo (a + msCycles 5000) s
      raise Ev.DEC_NO_KEY (decH i) (leN (min 255 d.reqs) 1 ++ leN 0 3 ++ leN (cyclesMs (s.clock.cycles - a)) 4)
        (modDec i (fun d => { d with noKeySaid := true }) s)
  | none => s
def execDecNoKey (stream : Nat) (s : State) : Out := .next (decNoKey stream s)

end Sys2Proof.Machine
end

