-- ==== Sys2Proof/Machine/Compose.lean ====
section
/-! DEFINITION. Machine/Compose.lean: compositions (R260–R268). -/

namespace Sys2Proof.Machine

def compOf (s : State) (i : Nat) : Comp := Tbl.getD s.video.comps i { conf := 0 }
def modComp (i : Nat) (f : Comp → Comp) (s : State) : State := { s with video.comps := Tbl.modify s.video.comps i f }

/-- The instant of output picture `k` in ns (R262). -/
def Comp.instant (c : Comp) (k : Nat) : Nat := c.t0 + k * 1000000000000 / max 1 c.fps

/-! ### CMP_CREATE -/

def cmpPlaced (s : State) : List Placed := s.video.comps.map fun e => ⟨e.1, e.2.engine, cmpCharge e.2⟩

/-- A composition is placed whole on one compositor (R260). -/
def placeComp (i load : Nat) (s : State) : State :=
  let (l, s) := placeUser (enginesIn s 0x0F .inService) (engineCap s 40 16) 512
    ((cmpPlaced s).filter (fun p => p.user != i)) i load s
  l.foldl (fun s p => modComp p.user (fun c => { c with engine := p.engine }) s) s

/-- The window counters of a composition. -/
def cmpCounters : List Nat :=
  [R.CMP_W_COMPOSE_MAX, R.CMP_W_PICTURES, R.CMP_W_LATE, R.CMP_W_REPEATS, R.CMP_W_SOURCE_LOST, R.CMP_W_LAYOUT_CHANGES, R.CMP_W_CLAMPED]

/-- CMP_CREATE (R260, R261). -/
def cmpCreatePlan (c : Cmd) (s : State) : Plan :=
  let p := c.params
  let i := newIndex s.video.comps c.handle 0 512
  let ok := paramHandle s [3] (u32 p 0)
  let conf := u32 p 0 % 2 ^ 24
  let x : Comp := { conf, w := u16 p 4, h := u16 p 6, fps := u32 p 8, cflags := u8 p 12, bg := [u16 p 14, u16 p 16, u16 p 18], hl := u32 p 20 }
  { op := 0x0701, handleOk := handleNew 7 c.handle, touches := c.handle :: (if ok then [confH conf] else [])
    state := notFree 0x0701 s.video.comps c.handle
    len := some 24
    param := firstBad
      [ (ok, badParam 0)
      , (decide (64 ≤ x.w) && decide (x.w ≤ 4096) && x.w % 8 == 0, badParam 4)
      , (decide (64 ≤ x.h) && decide (x.h ≤ 2304) && x.h % 8 == 0, badParam 6)
      , (decide (1000 ≤ x.fps) && decide (x.fps ≤ 60000), badParam 8), (decide (x.cflags < 4), badParam 12)
      , (decide (u16 p 14 < 1024), badParam 14), (decide (u16 p 16 < 1024), badParam 16), (decide (u16 p 18 < 1024), badParam 18) ]
    res := match i with
      | none => some (noResource 12)
      | some i => (admitChange s { s with video.comps := Tbl.put s.video.comps i x } false)
          <|> (if 64 ≤ confComps s conf then some (noResource 0x62) else none)
    run := fun s => match i with
      | none => .ok s
      | some i =>
        let s := placeComp i (cmpCharge x) (clearWindow cmpCounters i { s with video.comps := Tbl.put s.video.comps i x })
        .okWith s (chargeResult (cmpH i) (cmpCharge x) (compOf s i).engine) }
def execCmpCreate (c : Cmd) (s : State) : Out := .next (hostCmd 0x0701 cmpCreatePlan c s)

/-! ### Tile entries (Tables 11-6, 11-7) -/

/-- A tile entry of a block. -/
def tileAt (p : List Byte) (o : Nat) : TileDef :=
  { mode := u8 p o, rank := u8 p (o + 1), fit := u8 p (o + 2), tflags := u8 p (o + 3), stream := BitVec.ofNat 32 (u32 p (o + 4))
    x := u16 p (o + 8), y := u16 p (o + 10), w := u16 p (o + 12), h := u16 p (o + 14)
    cropX := u16 p (o + 16), cropY := u16 p (o + 18), cropW := u16 p (o + 20), cropH := u16 p (o + 22)
    z := u8 p (o + 24), border := u8 p (o + 25), fill := u32 p (o + 28) }

/-- A crop width or height with its default. -/
def crop1024 (n : Nat) : Nat := if n = 0 then 1024 else n

/-- Whether the ratio `n / d` lies within 1/8 … 8 (R267). -/
def ratioOk (n d : Nat) : Bool := decide (d ≤ 8 * n) && decide (n ≤ 8 * d)

/-- Whether a source of `w` × `h` is scaled into the tile within R267: stretched in each axis; else by one ratio, the
larger where it fills and the smaller where it is letterboxed. -/
def scaleOk (t : TileDef) (w h : Nat) : Bool :=
  let sx := (1024 * t.w, w * crop1024 t.cropW)
  let sy := (1024 * t.h, h * crop1024 t.cropH)
  let xBig := decide (sy.1 * sx.2 ≤ sx.1 * sy.2)
  match t.fit with
  | 2 => ratioOk sx.1 sx.2 && ratioOk sy.1 sy.2
  | 0 => if xBig then ratioOk sx.1 sx.2 else ratioOk sy.1 sy.2
  | _ => if xBig then ratioOk sy.1 sy.2 else ratioOk sx.1 sx.2

def layoutInvalid (d : Nat) : Err := ⟨St.CMP_LAYOUT_INVALID, d⟩

/-- The first complaint about a tile entry at offset `o`: Table 11-7's details, BAD_PARAM for a field out of its range. -/
def tileBad (s : State) (i : Nat) (c : Comp) (o : Nat) (t : TileDef) : Option Err :=
  let d := decOf s (hIdx t.stream)
  let inPool := hCls t.stream == 6 && Tbl.has s.video.decs (hIdx t.stream) && d.comp == cmpH i
  let even := fun n => n % 2 == 0
  firstBad
    [ (decide (t.mode ≤ 2), badParam o)
    , (t.mode != 2 || decide (t.rank < (confOf s c.conf).k), layoutInvalid 6)
    , (decide (t.fit ≤ 2), badParam (o + 2)), (decide (t.tflags < 4), badParam (o + 3))
    , (t.mode != 1 || inPool, layoutInvalid 3)
    , (even t.x && even t.y && even t.w && even t.h, layoutInvalid 5)
    , (decide (16 ≤ t.w), badParam (o + 12)), (decide (16 ≤ t.h), badParam (o + 14))
    , (decide (t.x + t.w ≤ c.w) && decide (t.y + t.h ≤ c.h), layoutInvalid 1)
    , (decide (t.cropX + crop1024 t.cropW ≤ 1024) && decide (t.cropY + crop1024 t.cropH ≤ 1024), layoutInvalid 5)
    , (decide (t.z ≤ 127), badParam (o + 24)), (decide (t.border ≤ 16), badParam (o + 25))
    , (t.mode != 1 || scaleOk t d.maxW d.maxH, layoutInvalid 2) ]

/-- The first entry refused, with its index. -/
def tilesBad (s : State) (i : Nat) (c : Comp) : List TileDef → Nat → Option (Nat × Err)
  | [], _ => none
  | t :: ts, n => match tileBad s i c (8 + 32 * n) t with
    | some e => some (n, e)
    | none => tilesBad s i c ts (n + 1)

/-! ### Changes (R265) -/

/-- A fresh tile, from the instant `now`. -/
def Tile.fresh (t : TileDef) (now : Nat) : Tile :=
  { tdef := t, stream := if t.mode = 1 then some (hIdx t.stream) else none, since := now }

/-- A change takes effect. -/
def LayoutOp.apply (now : Nat) (op : LayoutOp) (c : Comp) : Comp :=
  match op with
  | .layout ts => { c with tiles := ts.map (Tile.fresh · now) }
  | .tile k t => { c with tiles := c.tiles.set k (Tile.fresh t now) }
  | .overlay k o => { c with overlays := if o.format = 0 then Tbl.del c.overlays k else Tbl.put c.overlays k o }

/-- The tile count once every change that waits has applied. -/
def tilesAfter (c : Comp) : Nat :=
  c.changes.foldl (fun n x => match x.op with
    | .layout ts => ts.length
    | _ => n) c.tiles.length

/-- Commit a change: it waits for its output picture, an AT_FRAME already passed is refused. -/
def commitChange (i : Nat) (cmd : Cmd) (op : LayoutOp) (atFrame : Option Nat) (s : State) : Done :=
  let c := compOf s i
  if (match atFrame with | some f => decide (f < c.frame) | none => false) then .reply s St.TIME_PASSED 0 0 []
  else
    let now := nowNs s
    let first : Bool := match op with
      | .layout _ => c.state == .idle
      | _ => false
    .defer (modComp i (fun c => { c with
      state := if first then .running else c.state
      t0 := if first then (now + 1999999) / 1000000 * 1000000 else c.t0
      changes := c.changes ++ [{ op, fromNs := now + 1000000, atFrame, rs := cmd.rs, tag := cmd.tag }] }) s)

/-- A refusal that names an entry. -/
def entryErr (s : State) (e : Nat × Err) : Done := .reply s e.2.status e.2.detail 0 (leN e.1 4 ++ leN 0 4)

/-- AT_FRAME where LFLAGS gives it. -/
def atFrameOf (p : List Byte) : Option Nat := if bit (u8 p 1) 0 then some (u32 p 4) else none

/-- CMP_LAYOUT_SET (R261, R265). -/
def cmpLayoutPlan (c : Cmd) (s : State) : Plan :=
  let p := c.params
  let i := hIdx c.handle
  let n := u8 p 0
  let ts := (List.range n).map fun k => tileAt p (8 + 32 * k)
  { op := 0x0702, handleOk := handleIn s [7] c.handle, touches := [c.handle]
    state := if (compOf s i).state = .deleting then some (wrongState (Config.detail 0x0702 0)) else none
    len := some (8 + 32 * n)
    param := firstBad [(decide (u8 p 1 < 2), badParam 1)]
    run := fun s =>
      if 64 < n then entryErr s (64, layoutInvalid 4)
      else match tilesBad s i (compOf s i) ts 0 with
        | some e => entryErr s e
        | none => commitChange i c (.layout ts) (atFrameOf p) s }
def execCmpLayoutSet (c : Cmd) (s : State) : Out := .next (hostCmd 0x0702 cmpLayoutPlan c s)

/-- CMP_TILE_SET (R265). -/
def cmpTilePlan (c : Cmd) (s : State) : Plan :=
  let p := c.params
  let i := hIdx c.handle
  let k := u8 p 0
  let t := tileAt p 8
  { op := 0x0703, handleOk := handleIn s [7] c.handle, touches := [c.handle]
    state := if (compOf s i).state = .deleting then some (wrongState (Config.detail 0x0703 0)) else none
    len := some 40
    param := firstBad [(decide (u8 p 1 < 2), badParam 1)]
    run := fun s =>
      if tilesAfter (compOf s i) ≤ k then entryErr s (k, layoutInvalid 4)
      else match tileBad s i (compOf s i) 8 t with
        | some e => entryErr s (k, e)
        | none => commitChange i c (.tile k t) (atFrameOf p) s }
def execCmpTileSet (c : Cmd) (s : State) : Out := .next (hostCmd 0x0703 cmpTilePlan c s)

/-- An overlay of a block (Table 11-11). -/
def overlayAt (p : List Byte) : Overlay :=
  { format := u8 p 1, z := u8 p 2, alpha := u8 p 3, region := BitVec.ofNat 32 (u32 p 4), offset := u32 p 8
    x := u16 p 12, y := u16 p 14, w := u16 p 16, h := u16 p 18, stride := u32 p 20, colour := u32 p 24 }

/-- The bytes that an overlay's bitmap reaches in its region. -/
def Overlay.reach (o : Overlay) : Nat := o.offset + o.stride * (o.h - 1) + o.w * (if o.format = 1 then 4 else 1)

/-- CMP_OVERLAY_SET (R265, R268). -/
def cmpOverlayPlan (c : Cmd) (s : State) : Plan :=
  let p := c.params
  let i := hIdx c.handle
  let o := overlayAt p
  let even := fun n => n % 2 == 0
  { op := 0x0704, handleOk := handleIn s [7] c.handle, touches := [c.handle]
    state := if (compOf s i).state = .deleting then some (wrongState (Config.detail 0x0704 0)) else none
    len := some 32
    param := firstBad [ (decide (u8 p 0 ≤ 7), badParam 0), (decide (o.format ≤ 2), badParam 1), (decide (o.z ≤ 127), badParam 2)
      , (o.format == 0 || paramHandle s [0x13] (u32 p 4), badParam 4) ]
    run := fun s =>
      let size := ((Tbl.get? s.dram.regions (hIdx o.region)).map Region.sizeMib).getD 0 * 1048576
      let bad := if o.format = 0 then none else firstBad
        [ (o.offset % 64 == 0, layoutInvalid 7), (even o.x && even o.y && even o.w && even o.h, layoutInvalid 5)
        , (decide (o.x + o.w ≤ (compOf s i).w) && decide (o.y + o.h ≤ (compOf s i).h), layoutInvalid 1)
        , (o.stride % 64 == 0 && decide (o.reach ≤ size), layoutInvalid 7) ]
      match bad with
      | some e => entryErr s (u8 p 0, e)
      | none => commitChange i c (.overlay (u8 p 0) o) none s }
def execCmpOverlaySet (c : Cmd) (s : State) : Out := .next (hostCmd 0x0704 cmpOverlayPlan c s)

/-! ### CMP_DELETE -/

/-- A composition returns to FREE: its pool streams leave it, changes that wait are aborted. -/
def freeComp (i : Nat) (s : State) : State :=
  let c := compOf s i
  let s := leaveLeases (cmpH i) { s with
    video.comps := Tbl.del s.video.comps i
    video.decs := Tbl.each s.video.decs (fun _ d => if d.comp = cmpH i then { d with comp := 0 } else d) }
  let s := finishAll (c.changes.map fun x => (x.rs, x.tag)) St.ABORTED 0 0 s
  match c.deleter with
  | some (rs, tag) => finishRunning rs tag St.OK 0 1 [] s
  | none => s

/-- CMP_DELETE (R261). -/
def cmpDeletePlan (c : Cmd) (s : State) : Plan :=
  let i := hIdx c.handle
  { op := 0x0705, handleOk := handleIn s [7] c.handle, touches := [c.handle]
    state := if (compOf s i).state = .deleting then some (wrongState (Config.detail 0x0705 0))
      else if 0 < encsOn s (cmpH i) then some (wrongState 2) else none
    run := fun s =>
      let s' := modComp i (fun x => { x with state := .deleting, deleter := some (c.rs, c.tag) }) s
      .defer (if (compOf s i).state = .idle then freeComp i s' else s') }
def execCmpDelete (c : Cmd) (s : State) : Out := .next (hostCmd 0x0705 cmpDeletePlan c s)

/-! ### Talker-rank tiles (R266) -/

/-- The pool stream of a leg with the largest MAX_W × MAX_H, the lower index among equals. -/
def poolStream (s : State) (comp leg : Nat) : Option Nat :=
  let area := fun i => (decOf s i).maxW * (decOf s i).maxH
  firstBy (fun a b => decide (area b < area a) || (area a == area b && decide (a < b)))
    ((poolOf s comp).filter fun i => hIdx (decOf s i).source == leg)

/-- Hand the waiting talkers to the free places in order. -/
def assignRanks (isFree : Option Nat → Bool) : List Nat → List Nat → (Nat → Option Nat) → Nat → Option Nat
  | [], _, leg => leg
  | t :: ts, waiting, leg =>
    match waiting with
    | [] => leg
    | w :: ws =>
      if isFree (leg t) then assignRanks isFree ts ws (fun j => if j = t then some w else leg j)
      else assignRanks isFree ts waiting leg

/-- The legs of rank places after an assignment (R266, R284): `order` the places in rank order, `leg` who stands there,
`talkers` those with a stream, loudest first. -/
def rankLegs (order : List Nat) (leg : Nat → Option Nat) (talkers : List Nat) : Nat → Option Nat :=
  let stays := fun (o : Option Nat) => match o with
    | some l => talkers.contains l
    | none => false
  let on := order.filterMap leg
  assignRanks (fun o => !stays o) order (talkers.filter fun l => !on.contains l) leg

/-- Tile numbers with their tiles. -/
def numbered {α : Type} (l : List α) : List (Nat × α) := (List.range l.length).zip l

/-- The rank tiles take their legs and streams. -/
def assignTiles (s : State) (i : Nat) (c : Comp) : Comp :=
  let ranks := (numbered c.tiles).filter fun e => e.2.tdef.mode == 2
  let rank : Nat → Nat := fun k => ((c.tiles[k]?).map fun t => t.tdef.rank).getD 0
  let order := sortBy (fun a b => decide (rank a < rank b) || (rank a == rank b && decide (a < b))) (ranks.map Prod.fst)
  let talkers := (talkersLoud s (confOf s c.conf)).filter fun l => (poolStream s i l).isSome
  let leg := rankLegs order (fun k => (c.tiles[k]?).bind Tile.leg) talkers
  { c with tiles := (numbered c.tiles).map fun e =>
      if e.2.tdef.mode = 2 then
        let l := leg e.1
        let st := (l.bind (poolStream s i)) <|> e.2.stream
        { e.2 with leg := l, stream := st, shown := if st = e.2.stream then e.2.shown else none }
      else e.2 }

/-! ### Pictures in tiles (R262, R264) -/

/-- The picture a tile would show at an instant, and whether it is held for taint. -/
def tilePic (s : State) (t : Tile) (instant : Nat) : Option Pic × Bool :=
  match t.stream with
  | none => (none, false)
  | some k =>
    let d := decOf s k
    let newest := d.pics.find? fun p => decide (p.at_ < instant)
    let bad := d.taint != 0 || (match newest with
      | some p => p.tainted || p.concealed
      | none => false)
    if bit t.tdef.tflags 0 && bad then (d.clean.filter (fun p => decide (p.at_ < instant)), true) else (newest, false)

/-- The ns since which a tile's source has written nothing for it. -/
def tileSince (s : State) (t : Tile) (instant : Nat) : Nat :=
  match (tilePic s t instant).1 with
  | some p => p.at_
  | none => t.since

def tileHold (s : State) : Nat := msNs (rgBits s R.CMP_CTRL 15 0)

/-- CMP_SOURCE_LOST of a tile. -/
def loseTile (i k : Nat) (t : Tile) (at_ : Nat) (s : State) : State :=
  let s := modComp i (fun c => { c with tiles := c.tiles.modify k (fun t => { t with said := true }) }) s
  raiseUnless R.CMP_EVENT_MASK 0 Ev.CMP_SOURCE_LOST (cmpH i)
    (leN k 1 ++ leN 0 3 ++ leN ((t.stream.map fun d => (decH d).toNat).getD 0) 4 ++ leN ((nowNs s - at_) / 1000000) 4)
    (bump (winKey R.CMP_W_SOURCE_LOST i) s)

/-- One tile at an instant. -/
def showTile (i instant : Nat) (s : State) (k : Nat) : State :=
  match (compOf s i).tiles[k]? with
  | none => s
  | some t =>
    let put := fun (f : Tile → Tile) => modComp i (fun c => { c with tiles := c.tiles.modify k f })
    if t.stream = none then put (fun t => { t with state := 3 }) s
    else
      let (pic, frozen) := tilePic s t instant
      let since := tileSince s t instant
      let newer : Bool := match pic, t.shown with
        | some p, some n => decide (n < p.num)
        | some _, none => true
        | none, _ => false
      if tileHold s ≤ instant - since ∧ ¬ newer then
        let s := put (fun t => { t with state := 3 }) s
        if t.said then s else loseTile i k t since s
      else match pic with
        | none => put (fun t => { t with state := if t.shown.isSome then 1 else 3 }) s
        | some p =>
          if newer then
            let s := if scaleOk t.tdef p.w p.h then s else bump (winKey R.CMP_W_CLAMPED i) s
            put (fun t => { t with state := if frozen then 2 else 0, shown := some p.num, said := false }) s
          else
            put (fun t => { t with state := if frozen then 2 else 1 })
              (bump R.CMP_REPEATS (bump (winKey R.CMP_W_REPEATS i) s))

/-- Whether a change reaches output picture `k`. -/
def LayoutChange.reaches (x : LayoutChange) (k instant : Nat) : Bool :=
  match x.atFrame with
  | some f => decide (f ≤ k)
  | none => decide (x.fromNs ≤ instant)

/-- An output picture is composed at its instant, and handed to its encode streams (R262, R263). -/
def composeAt (i takesUs : Nat) (s : State) : State :=
  let c := compOf s i
  let k := c.frame
  let instant := c.instant k
  let late := decide (periodNs c.fps < 1000 * takesUs)
  let now := if late then [] else c.changes.filter fun x => x.reaches k instant
  let s := modComp i (fun c =>
    assignTiles s i { now.foldl (fun c x => x.op.apply instant c) c with
      changes := if late then c.changes else c.changes.filter fun x => !x.reaches k instant }) s
  let s := (List.range (compOf s i).tiles.length).foldl (showTile i instant) s
  let s := trackMax (winKey R.CMP_W_COMPOSE_MAX i) takesUs (modComp i (fun c => { c with frame := k + 1 }) s)
  let s := feedEncs (cmpH i) instant late false s
  let s := if late then
      let s := bump R.CMP_LATE (bump (winKey R.CMP_W_LATE i) s)
      let hushed := match c.lateAt with
        | some a => decide (s.clock.cycles < a + msCycles 1000)
        | none => false
      if hushed then s
      else raise Ev.CMP_LATE (cmpH i) (leN c.engine 1 ++ leN 0 3 ++ leN k 4 ++ leN (takesUs - periodNs c.fps / 1000) 4)
        (modComp i (fun c => { c with lateAt := some s.clock.cycles }) s)
    else bump R.CMP_PICTURES (bump (winKey R.CMP_W_PICTURES i) s)
  now.foldl (fun s x => finishRunning x.rs x.tag St.OK 0 1 (leN k 4 ++ leN 0 4) (bump (winKey R.CMP_W_LAYOUT_CHANGES i) s)) s

/-- COMPOSITION_INSTANT (R262). -/
def compositionInstant (i takesUs : Nat) (s : State) : State :=
  match Tbl.get? s.video.comps i with
  | none => s
  | some c =>
    match c.state with
    | .idle => s
    | .running => composeAt i takesUs (tickToNs (c.instant c.frame) s)
    | .deleting => freeComp i (tickToNs (c.instant c.frame) s)
def execCompositionInstant (comp takesUs : Nat) (s : State) : Out := .next (compositionInstant comp takesUs s)

/-- CMP_SOURCE_LOST: a tile's source has written nothing for TILE_HOLD_MS (R264). -/
def cmpSourceLost (i k : Nat) (s : State) : State :=
  match (compOf s i).tiles[k]? with
  | none => s
  | some t =>
    if t.stream = none ∨ t.said ∨ (compOf s i).state ≠ .running then s
    else
      let since := tileSince s t (nowNs s + 1)
      let s := tickToNs (since + tileHold s) s
      loseTile i k t since s
def execCmpSourceLost (comp tile : Nat) (s : State) : Out := .next (cmpSourceLost comp tile s)

/-! ### CMP_QUERY -/

def tilesIn (c : Comp) (n : Nat) : Nat := (c.tiles.filter fun t => t.state == n).length

/-- Word `n` of the window of a composition (Table 11-14). -/
def cmpWord (s : State) (i n : Nat) : Nat :=
  match Tbl.get? s.video.comps i with
  | none => 0
  | some c =>
    match n with
    | 0 => c.conf + 4096 * b2n (bit c.cflags 0) + 8192 * b2n (bit c.cflags 1)
        + 16384 * (match c.state with | .idle => 1 | .running => 2 | .deleting => 3) + 65536 * c.tiles.length + 2 ^ 24 * c.overlays.length
    | 1 => c.w + 65536 * c.h
    | 2 => c.fps
    | 3 => c.engine + 256 * encsOn s (cmpH i) + 65536 * (poolOf s i).length
    | 4 => c.frame - 1
    | 5 => if c.state = .running then shortOf (c.instant c.frame) % 2 ^ 32 else 0
    | 6 => if c.state = .running then shortOf (c.instant c.frame) / 2 ^ 32 else 0
    | 7 => rgRaw s (winKey R.CMP_W_COMPOSE_MAX i)
    | 8 => tilesIn c 1 + 256 * tilesIn c 2 + 65536 * tilesIn c 3
    | n => if n < 21 then ctrHalf s R.CMP_W_PICTURES i (R.CMP_W_CFG + 4 * n) else 0

/-- A tile's entry in CMP_QUERY. -/
def tileEntry (s : State) (e : Nat × Tile) : List Byte :=
  let t := e.2
  leN e.1 1 ++ leN t.tdef.mode 1 ++ leN t.state 1 ++ leN 0 1 ++ leN ((t.stream.map fun d => (decH d).toNat).getD 0) 4
    ++ leN ((t.leg <|> t.stream.map fun d => hIdx (decOf s d).source).getD 0) 4 ++ leN (t.shown.getD 0) 4

/-- CMP_QUERY; its parameter length is not given (notes/assumptions/12.md). -/
def cmpQueryPlan (c : Cmd) (s : State) : Plan :=
  { Plan.query 0x0706 false (handleIn s [7] c.handle) 0 none fun s =>
      let i := hIdx c.handle
      recordAnswer ((List.range 19).flatMap (fun n => leN (cmpWord s i n) 4) ++ (numbered (compOf s i).tiles).flatMap (tileEntry s))
    with len := none }
def execCmpQuery (c : Cmd) (s : State) : Out := .next (hostCmd 0x0706 cmpQueryPlan c s)

end Sys2Proof.Machine
end

