-- ==== Sys2Proof/Machine/Device.lean ====
section
/-! DEFINITION. Machine/Device.lean: the commands on the device object that need only the host interface:
leases, privileges, filters, echo, progress (R62–R75). -/

namespace Sys2Proof.Machine

/-- DEV_ECHO: the parameters come back unchanged, cut at a byte where they do not fit (R56). -/
def echoPlan (c : Cmd) (_ : State) : Plan :=
  { op := 0x010C, priv := 0, safe := true, handleOk := handleDev c.handle, len := none
    run := fun s =>
      let a := itemsAnswer [] (c.params.map fun b => [b]) 0
      .reply s a.1 0 a.2.1 a.2.2 }

/-- DEV_ECHO (R78). -/
def execDevEcho (c : Cmd) (s : State) : Out := .next (hostCmd 0x010C echoPlan c s)

/-- DEV_EVENT_ROUTE: the filter of one of the sending port's own ring sets (R75). -/
def eventRoutePlan (c : Cmd) (s : State) : Plan :=
  let rs := u8 c.params 0
  let mine := decide (rs ≤ 12) && portOf rs == Cmd.port c
  let ph := (ringOf s rs).phase
  { op := 0x0109, priv := 1, safe := true, handleOk := handleDev c.handle
    state := if mine ∧ (ph = .disabled ∨ ph = .draining) then some (wrongState 1) else none
    param := firstBad [(mine, badParam 0), (decide (u8 c.params 1 ≤ 5), badParam 1)]
    run := fun s => .ok (modRing rs (fun r =>
      { r with minSev := u8 c.params 1, mask := BitVec.ofNat 32 (u32 c.params 4) }) s) }

/-- DEV_EVENT_ROUTE (R75). -/
def execDevEventRoute (c : Cmd) (s : State) : Out := .next (hostCmd 0x0109 eventRoutePlan c s)

/-- Whether a port would still be at ADMIN once `p` has privilege `v`. -/
def adminRemains (s : State) (p v : Nat) : Bool :=
  [0, 1, 2, 3].any fun q => (if q = p then v else (portSt s q).priv) == 2

/-- DEV_PORT_PRIV (R64). -/
def portPrivPlan (c : Cmd) (s : State) : Plan :=
  let p := u8 c.params 0
  let v := u8 c.params 1
  { op := 0x010A, priv := 2, safe := true, handleOk := handleDev c.handle, touches := [devH]
    param := firstBad [(decide (p ≤ 3), badParam 0), (decide (v ≤ 2), badParam 1)]
    res := if adminRemains s p v then none else some ⟨St.NOT_PERMITTED, 4⟩
    run := fun s =>
      let old := (portSt s p).priv
      if old = v then .ok s
      else .ok (raise Ev.PORT_PRIV_CHANGED 0 (leN p 1 ++ leN old 1 ++ leN v 1 ++ leN (Cmd.port c) 1)
        (modPort p (fun q => { q with priv := v }) s)) }

/-- DEV_PORT_PRIV (R64). -/
def execDevPortPriv (c : Cmd) (s : State) : Out := .next (hostCmd 0x010A portPrivPlan c s)

/-! ### Leases (R65–R68, R417) -/

/-- The lease of this port that an ID names. -/
def ownLease (s : State) (port id : Nat) : Option Lease :=
  match Tbl.get? s.host.leases id with
  | some l => if l.port = port then some l else none
  | none => none

/-- A lease ID that must be one of the sending port's. -/
def leaseIdErr (s : State) (c : Cmd) : Option Err :=
  let id := u16 c.params 0
  if id ≠ 0 ∧ (ownLease s (Cmd.port c) id).isNone then some ⟨St.LEASE_CONFLICT, 0x10⟩ else none

/-- TERM_MS in range (Table 3-8). -/
def termOk (c : Cmd) : Bool := decide (100 ≤ u32 c.params 4) && decide (u32 c.params 4 ≤ 600000)

/-- LEASE_ACQUIRE (R65, R417, Table 3-8). The ID of a new lease is any unused one: which, the spec
leaves open (notes/assumptions/3.md). -/
def leaseAcquirePlan (c : Cmd) (s : State) : Plan :=
  let id := u16 c.params 0
  let term := u32 c.params 4
  let own := ownLease s (Cmd.port c) id
  { op := 0x0105, priv := if c.handle = devH then 2 else 1, safe := true
    handleOk := handleIn s (List.range 0x14) c.handle
    claims := [c.handle], leaseErr := leaseIdErr s c
    param := firstBad [(termOk c, badParam 4)]
    res := if id = 0 ∧ 4096 ≤ s.host.leases.length then some (noResource 0x10)
      else match own with
        | some l => if ¬ l.objs.contains c.handle ∧ 256 ≤ l.objs.length then some (noResource 0x11) else none
        | none => none
    run := fun s =>
      let ends := s.clock.cycles + msCycles term
      match own with
      | some l =>
        let objs := if l.objs.contains c.handle then l.objs else l.objs ++ [c.handle]
        .okWith { s with host.leases := Tbl.put s.host.leases id { l with term, ends, objs } }
          (leN id 2 ++ leN objs.length 2 ++ leN term 4)
      | none =>
        let (v, s) := takeFree s
        let new := Tbl.nthFree s.host.leases 1 (v % (65535 - s.host.leases.length))
        .okWith { s with host.leases := Tbl.put s.host.leases new { port := Cmd.port c, term, ends, objs := [c.handle] } }
          (leN new 2 ++ leN 1 2 ++ leN term 4) }

/-- LEASE_ACQUIRE (R65). -/
def execLeaseAcquire (c : Cmd) (s : State) : Out := .next (hostCmd 0x0105 leaseAcquirePlan c s)

/-- LEASE_RENEW (R67). -/
def leaseRenewPlan (c : Cmd) (s : State) : Plan :=
  let id := u16 c.params 0
  let term := u32 c.params 4
  { op := 0x0106, priv := 1, safe := true, handleOk := handleDev c.handle
    leaseErr := leaseIdErr s c
    param := firstBad [(id != 0, badParam 0), (termOk c, badParam 4)]
    run := fun s =>
      let ends := s.clock.cycles + msCycles term
      let n := ((Tbl.get? s.host.leases id).map fun l => l.objs.length).getD 0
      .okWith { s with host.leases := Tbl.modify s.host.leases id (fun l => { l with term, ends }) }
        (leN id 2 ++ leN n 2 ++ leN term 4) }

/-- LEASE_RENEW (R67). -/
def execLeaseRenew (c : Cmd) (s : State) : Out := .next (hostCmd 0x0106 leaseRenewPlan c s)

/-- LEASE_RELEASE: the whole lease, or the object named by the handle; the last object ends it (R66). -/
def leaseReleasePlan (c : Cmd) (s : State) : Plan :=
  let id := u16 c.params 0
  let covers := match ownLease s (Cmd.port c) id with
    | some l => c.handle == devH || l.objs.contains c.handle
    | none => false
  { op := 0x0107, priv := 1, safe := true, handleOk := handleIn s (List.range 0x14) c.handle
    leaseErr := leaseIdErr s c
    param := firstBad [(covers, badParam 0)]
    run := fun s =>
      match Tbl.get? s.host.leases id with
      | some l =>
        let rest := l.objs.filter (· != c.handle)
        if c.handle = devH ∨ rest = [] then .ok { s with host.leases := Tbl.del s.host.leases id }
        else .ok { s with host.leases := Tbl.put s.host.leases id { l with objs := rest } }
      | none => .ok s }

/-- LEASE_RELEASE (R66). -/
def execLeaseRelease (c : Cmd) (s : State) : Out := .next (hostCmd 0x0107 leaseReleasePlan c s)

/-- LEASE_BREAK (R68). -/
def leaseBreakPlan (c : Cmd) (s : State) : Plan :=
  let id := u16 c.params 0
  { op := 0x0108, priv := 2, safe := true, handleOk := handleDev c.handle
    param := firstBad [(Tbl.has s.host.leases id, badParam 0)]
    run := fun s =>
      match Tbl.get? s.host.leases id with
      | some l =>
        .ok (raiseTo l.port Ev.LEASE_BROKEN (l.objs.headD 0) (leN id 2 ++ leN l.port 1 ++ leN (Cmd.port c) 1)
          { s with host.leases := Tbl.del s.host.leases id })
      | none => .ok s }

/-- LEASE_BREAK (R68). -/
def execLeaseBreak (c : Cmd) (s : State) : Out := .next (hostCmd 0x0108 leaseBreakPlan c s)

/-- LEASE_EXPIRED (R67): the term of a lease ends. -/
def leaseExpired (id : Nat) (s : State) : State :=
  match Tbl.get? s.host.leases id with
  | none => s
  | some l =>
    let s := tickTo l.ends s
    raiseTo l.port Ev.LEASE_EXPIRED (l.objs.headD 0) (leN id 2 ++ leN l.port 1 ++ leN 0 1)
      { s with host.leases := Tbl.del s.host.leases id }

/-- LEASE_EXPIRED (R67). -/
def execLeaseExpired (id : Nat) (s : State) : Out := .next (leaseExpired id s)

/-! ### Progress (R70, R73) -/

/-- The outstanding command that RING_SET and TAG name. -/
def outTarget (s : State) (c : Cmd) : Option OutCmd :=
  s.host.cmds.find? (fun e => e.cmd.rs == u8 c.params 0 && e.cmd.tag.toNat == u32 c.params 4)

/-- The kept final status that RING_SET and TAG name, the latest first. -/
def keptTarget (s : State) (c : Cmd) : Option DoneCmd :=
  (ringOf s (u8 c.params 0)).kept.find? (fun k => k.tag.toNat == u32 c.params 4)

/-- RING_SET in range, and TAG outstanding or kept (R73). -/
def targetParam (s : State) (c : Cmd) : Option Err :=
  firstBad [(decide (u8 c.params 0 ≤ 12), badParam 0)
    , ((outTarget s c).isSome || (keptTarget s c).isSome, badParam 5)]

/-- QUERY_PROGRESS STATE of an outstanding command (Table 3-10). -/
def CmdPhase.code : CmdPhase → Nat
  | .queued => 0 | .waitingTime => 1 | .running => 2

/-- QUERY_PROGRESS (R73, Table 3-10). -/
def queryProgressPlan (c : Cmd) (s : State) : Plan :=
  Plan.query 0x0104 true (handleDev c.handle) 8 (targetParam s c) fun s =>
    match outTarget s c with
    | some e => recordAnswer (leN e.phase.code 1 ++ leN 0 3 ++ leN e.progress 4 ++ leN e.total 4 ++ leN 0 4)
    | none =>
      match keptTarget s c with
      | some k => recordAnswer (leN 3 1 ++ leN 0 1 ++ leN k.status 2 ++ leN k.progress 4 ++ leN k.total 4 ++ leN 0 4)
      | none => recordAnswer []

/-- QUERY_PROGRESS (R73). -/
def execQueryProgress (c : Cmd) (s : State) : Out := .next (hostCmd 0x0104 queryProgressPlan c s)

end Sys2Proof.Machine
end

