-- ==== Sys2Proof/Machine/Dram.lean ====
section
/-! DEFINITION. Machine/Dram.lean: the DRAM commands and what the controllers do by themselves (R131–R147). -/

namespace Sys2Proof.Machine

/-- DRAM_REQUEST (R133). -/
def execDramRequest (r : DramReq) (s : State) : Out := .next (dramRequest r s)

/-- ROW_IDLE_CLOSE (R131): in timer mode a row closes once it has been idle for IDLE_NS. -/
def rowIdleClose (ch bank : Nat) (s : State) : State :=
  match Tbl.get? (chanOf s ch).openRows bank with
  | some (_, at_) =>
    if 32 ≤ ch ∨ hintMode s ch then s
    else
      let s := tickTo (at_ + nsCycles (rgBits s R.DMC_CTRL 9 0)) s
      modChan ch (fun x => { x with openRows := Tbl.del x.openRows bank }) s
  | none => s

/-- ROW_IDLE_CLOSE (R131). -/
def execRowIdleClose (ch bank : Nat) (s : State) : Out := .next (rowIdleClose ch bank s)

/-- PER_BANK_REFRESH (R135): postponed at most 8 times per bank during bursts; a refresh closes the bank's row and
makes up for those postponed. -/
def bankRefresh (ch bank : Nat) (burst : Bool) (s : State) : State :=
  if 32 ≤ ch then s
  else
    let n := Tbl.getD (chanOf s ch).postponed bank 0
    if burst ∧ n < 8 then modChan ch (fun x => { x with postponed := Tbl.put x.postponed bank (n + 1) }) s
    else modChan ch (fun x => { x with postponed := Tbl.del x.postponed bank, openRows := Tbl.del x.openRows bank }) s

/-- PER_BANK_REFRESH (R135). -/
def execPerBankRefresh (ch bank : Nat) (burst : Bool) (s : State) : Out := .next (bankRefresh ch bank burst s)

/-- PATROL_SCRUB (R127): one line of a channel is read and, where the ECC finds an error, handled as on any read. -/
def patrolScrub (ch region offset ecc : Nat) (s : State) : State :=
  let s := modChan ch (fun x => { x with patrolled := x.patrolled + 1 }) s
  if Tbl.has s.dram.regions region then (eccCheck region offset ch ecc s).2
  else if ecc = 1 then bump R.DMC_CORRECTED (bump (chReg R.DMC_CH_CORRECTED ch) s)
  else s

/-- PATROL_SCRUB (R127). -/
def execPatrolScrub (ch region offset ecc : Nat) (s : State) : Out :=
  .next (if 32 ≤ ch then s else patrolScrub ch region offset ecc s)

/-- WCK_TRACKING (R136): the oscillator is read, `drift` in 1/1,000 UI, `temp` in °C, link-ECC corrections of the
last second. -/
def wckTracking (ch drift : Nat) (temp : Int) (linkEcc : Nat) (s : State) : State :=
  if 32 ≤ ch ∨ (chanOf s ch).state ≠ .active then s
  else
    let s := modChan ch (fun x => { x with drift, temp }) s
    let moved := decide ((rgBits s R.DMC_RETRAIN_CFG 15 8 : Int) ≤ |temp - (chanOf s ch).trainTemp|)
    if ¬ (chanOf s ch).retrain ∧ (moved ∨ 125 < drift ∨ 1000 < linkEcc) then startRetrain ch s else s

/-- WCK_TRACKING (R136). -/
def execWckTracking (ch drift : Nat) (temp : Int) (linkEcc : Nat) (s : State) : Out :=
  .next (wckTracking ch drift temp linkEcc s)

/-- A full retrain of channel `ch` has run its slices (R136, R137). -/
def retrainEnd (ch : Nat) (window : Bool) (readEye writeEye : Nat) (s : State) : State :=
  let x := chanOf s ch
  let key := chReg R.DMC_CH_RETRAINS ch
  let s := bump R.DMC_RETRAINS (bump32 key s)
  let s := modChan ch (fun x => { x with readEye, writeEye }) s
  if window then
    trainHandled ch none (modChan ch (fun x =>
      { x with retrain := false, slices := 0, drift := 0, trainTemp := x.temp
               outcome := if x.tries = 0 then 0 else if x.tries = 1 then 1 else 2 }) s)
  else if x.tries = 0 then modChan ch (fun x => { x with tries := 1, slices := 0 }) s
  else if x.sp < 3 then
    changeSp ch (x.sp + 1) 1 0
      (modChan ch (fun x => { x with tries := x.tries + 1, slices := 0, spLimit := max x.spLimit (x.sp + 1) }) s)
  else retireChannel ch s

/-- RETRAIN_SLICE (R136, R137): at most one per millisecond; the last one decides whether there is a window. A
slice of a channel that only has its margins measured records the eyes. -/
def retrainSlice (ch : Nat) (last caOk : Bool) (readEye writeEye : Nat) (s : State) : State :=
  let x := chanOf s ch
  let measuring := s.dram.trains.any (fun t => t.started && t.op == 2 && t.left.head? == some ch)
  if 32 ≤ ch ∨ ¬ (x.retrain ∨ measuring) then s
  else
    let s := tickTo (x.lastSlice + msCycles 1) s
    let s := modChan ch (fun x => { x with slices := x.slices + 1, lastSlice := s.clock.cycles }) s
    if ¬ last then s
    else if x.retrain then retrainEnd ch (caOk && decide (20 ≤ readEye) && decide (20 ≤ writeEye)) readEye writeEye s
    else trainHandled ch none (modChan ch (fun x => { x with readEye, writeEye }) s)

/-- RETRAIN_SLICE (R136). -/
def execRetrainSlice (ch : Nat) (last caOk : Bool) (readEye writeEye : Nat) (s : State) : Out :=
  .next (retrainSlice ch last caOk readEye writeEye s)

/-- Whether a change to a set point keeps the channel's load within its new limit (R130). -/
def spFits (s : State) (c sp : Nat) : Bool := decide (loadNow s c ≤ spLimitKb sp * 1000 * dramUnit)

/-- DRAM_SETPOINT (R129): the change a DRAM_TRAIN asked for, or one of the power manager. -/
def dramSetpoint (ch sp stallNs : Nat) (s : State) : State :=
  if 32 ≤ ch ∨ 3 < sp ∨ (chanOf s ch).state ≠ .active ∨ (chanOf s ch).retrain then s
  else
    match s.dram.trains.find? (fun t => t.started && t.op == 1 && t.left.head? == some ch) with
    | some t => trainHandled ch none (changeSp ch t.sp 0 stallNs s)
    | none => if spFits s ch sp ∧ (chanOf s ch).spLimit ≤ sp then changeSp ch sp 2 stallNs s else s

/-- DRAM_SETPOINT (R129). -/
def execDramSetpoint (ch sp stallNs : Nat) (s : State) : Out := .next (dramSetpoint ch sp stallNs s)

/-- The channel on which a lost slot is rebuilt: of the same half, with room, that with the lowest admitted load
(R141); the lowest-numbered among equals. -/
def rebuildOn (s : State) (r : Region) (slot : Nat) : Option Nat :=
  let half := (List.range 16).map (· + (if slot < 16 then 0 else 16))
  let fit_ := half.filter (fun c => !chanRetired s c && decide (r.share ≤ chanFree s c))
  fit_.find? (fun c => fit_.all (fun d => decide (loadNow s c ≤ loadNow s d)))

/-- Whether a mirror rebuild of a region can run (R141, Table 17-4). -/
def rebuilding (s : State) (r : Region) : Bool :=
  bit r.rflags 0 && r.state == .degraded && r.lost.any (fun k => (rebuildOn s r k).isSome)

/-- DRAM_MIRROR_RESTORED (R141): the copy of a lost slot is complete. -/
def mirrorRestored (region slot copyMs : Nat) (s : State) : State :=
  match Tbl.get? s.dram.regions region with
  | none => s
  | some r =>
    if ¬ bit r.rflags 0 ∨ ¬ r.lost.contains slot ∨ r.lost.contains (partner slot) then s
    else
      match rebuildOn s r slot with
      | none => s
      | some c =>
        let lost := r.lost.filter (· != slot)
        raise Ev.DRAM_MIRROR_RESTORED (regionH region) (leN c 1 ++ leN 0 3 ++ leN copyMs 4)
          (modRegion region (fun r => { r with
            lost, moved := Tbl.put r.moved slot c
            state := if lost = [] ∧ r.state = .degraded then .active else r.state }) s)

/-- DRAM_MIRROR_RESTORED (R141). -/
def execDramMirrorRestored (region slot copyMs : Nat) (s : State) : Out := .next (mirrorRestored region slot copyMs s)

/-! ### BAR2 (R142) -/

/-- The bytes of `count` all-ones. -/
def allOnes (count : Nat) : Nat := 2 ^ (8 * count) - 1

/-- Where a port's BAR2 offset falls: region and byte offset, if the map in force is enabled and it lies within
the region. -/
def bar2Target (s : State) (port offset n : Nat) : Option (Nat × Nat × Region) :=
  let m := Tbl.getD s.dram.bar2 port 0
  let o := offset + bits m 23 16 * 2 ^ 30
  match Tbl.get? s.dram.regions (bits m 11 0) with
  | some r => if bit m 31 ∧ offset + n ≤ 2 ^ 36 ∧ o + n ≤ r.sizeMib * 1048576 then some (bits m 11 0, o, r) else none
  | none => none

/-- A byte of a region that can be read: its stripe and line are not lost. -/
def Region.readable (r : Region) (o : Nat) : Bool := r.live o != [] && !r.poison.contains (o / 64 * 64)

/-- BAR2_ACCESS (R142). -/
def bar2Access (port offset : Nat) (write : Bool) (data : List Byte) (count : Nat) (s : State) : State :=
  let n := if write then data.length else count
  match bar2Target s port offset n with
  | some (i, o, r) =>
    if write then
      if r.live o = [] then bump R.DMC_BAR2_DROPPED s else regionWrite i o data s
    else if (List.range n).all (fun k => r.readable (o + k)) then emit (.readData (uN (regionRead s i o n) 0 n)) s
    else emit (.readData (allOnes n)) (bump R.DMC_BAR2_DROPPED s)
  | none =>
    let s := bump R.DMC_BAR2_DROPPED s
    if write then s else emit (.readData (allOnes n)) s

/-- BAR2_ACCESS (R142). -/
def execBar2Access (port offset : Nat) (write : Bool) (data : List Byte) (count : Nat) (s : State) : Out :=
  .next (bar2Access port offset write data count s)

/-- BAR2_MAP_SWITCH (R142): the accesses admitted through the old map have completed. -/
def bar2MapSwitch (port : Nat) (s : State) : State :=
  if 3 ≤ port then s
  else { s with dram.bar2 := Tbl.put s.dram.bar2 port (rgRaw s (R.DMC_BAR2_MAP + 4 * port)) }

/-- BAR2_MAP_SWITCH (R142). -/
def execBar2MapSwitch (port : Nat) (s : State) : Out := .next (bar2MapSwitch port s)

/-! ### Commands -/

/-- The channels a region takes: those named, or all of the half with more free capacity (the lower among equals),
or all 32 (Table 6-6); retired ones, and with MIRROR those whose partner is, are left out of a choice. -/
def pickChannels (s : State) (mask : Nat) (mirror : Bool) : Nat :=
  if mask ≠ 0 then mask
  else
    let ok := fun c => !chanRetired s c && (!mirror || !chanRetired s (partner c))
    let sum := fun (l : List Nat) => (l.map (chanFree s)).foldl (· + ·) 0
    let lower := List.range 16
    let upper := lower.map (· + 16)
    let pick := if mirror then (if sum upper ≤ sum lower then lower else upper) else allChans
    (pick.filter ok).foldl (fun m c => m + 2 ^ c) 0

/-- The region that a DRAM_REGION_CREATE asks for. -/
def newRegion (c : Cmd) (s : State) : Region :=
  let p := c.params
  { params := slice p 0 16, sizeMib := u32 p 0, channels := pickChannels s (u32 p 4) (bit (u8 p 12) 0)
    bwMbps := u32 p 8, rflags := u8 p 12, writePct := u8 p 13 }

/-- DRAM_REGION_CREATE (R140, R144, R145, Table 6-6). -/
def dramRegionCreatePlan (c : Cmd) (s : State) : Plan :=
  let p := c.params
  let idx := hIdx c.handle
  let r := newRegion c s
  let all := r :: Tbl.vals s.dram.regions
  let twoHalves := bit (u8 p 12) 0 && u32 p 4 % 65536 != 0 && u32 p 4 / 65536 != 0
  let new := newIndex s.dram.regions c.handle 512 3584
  { op := 0x1202, priv := 2, handleOk := handleNew 0x13 c.handle, touches := [c.handle], len := some 16
    state := if idx ≠ idxChoose ∧ idx < 512 then some (wrongState 1) else notFree 0x1202 s.dram.regions c.handle
    param := firstBad
      [ (u32 p 0 % 2 == 0 && u32 p 0 != 0, badParam 0), (!twoHalves, badParam 4)
      , (decide (u8 p 12 < 16) && bits (u8 p 12) 3 2 != 3, badParam 12), (decide (u8 p 13 ≤ 100), badParam 13) ]
    res := if ¬ worksheetOk s (mediaNow s) all then some (noResource 0x0D)
      else if r.channels = 0 ∨ ¬ regionsFit s all ∨ new.isNone then some (noResource 0x31) else none
    run := fun s =>
      let i := new.getD 0
      .okWith { s with dram.regions := Tbl.put s.dram.regions i (newRegion c s) }
        (leN (regionH i).toNat 4 ++ leN (r.sizeMib * (1 + b2n (bit r.rflags 0))) 4) }

/-- DRAM_REGION_CREATE (R140). -/
def execDramRegionCreate (c : Cmd) (s : State) : Out := .next (hostCmd 0x1202 dramRegionCreatePlan c s)

/-- Whether a BAR2 map, in force or written, uses a region. -/
def bar2Uses (s : State) (i : Nat) : Bool :=
  [0, 1, 2].any fun p =>
    let uses := fun m => bit m 31 && bits m 11 0 == i
    uses (Tbl.getD s.dram.bar2 p 0) || uses (rgRaw s (R.DMC_BAR2_MAP + 4 * p))

/-- A region ends: its contents are zeroed, its overlays switched off, its capacity free (R147). -/
def freeRegion (i : Nat) (s : State) : State :=
  let s := overlaysOff (regionH i) s
  leaveLeases (regionH i)
    { s with dram.cells := Memory.clear s.dram.cells (regionBase i) (2 ^ 40)
             dram.regions := Tbl.del s.dram.regions i }

/-- DRAM_REGION_DELETE (R147). -/
def dramRegionDeletePlan (c : Cmd) (s : State) : Plan :=
  let i := hIdx c.handle
  let r := (Tbl.get? s.dram.regions i).getD {}
  { op := 0x1203, priv := 2, handleOk := handleIn s [0x13] c.handle, touches := [c.handle]
    state := if r.users ≠ [] ∨ bar2Uses s i then some (wrongState 2) else none
    run := fun s => .reply (freeRegion i s) St.OK 0 (r.sizeMib * 256) [] }

/-- DRAM_REGION_DELETE (R147). -/
def execDramRegionDelete (c : Cmd) (s : State) : Out := .next (hostCmd 0x1203 dramRegionDeletePlan c s)

/-- DRAM_TRAIN (R130, R136–R139, Table 6-7). A set point faster than a step-down permits is refused as SP out of
range (notes/assumptions/19.md). -/
def dramTrainPlan (c : Cmd) (s : State) : Plan :=
  let p := c.params
  let op := u8 p 0
  let sp := u8 p 1
  let chans := chansOf (u32 p 4)
  { op := 0x1204, priv := 2, handleOk := handleDev c.handle, touches := [devH]
    param := firstBad
      [ (decide (op ≤ 2), badParam 0)
      , (op != 1 || (decide (sp ≤ 3) && chans.all (fun c => decide ((chanOf s c).spLimit ≤ sp))), badParam 1) ]
    res := if op = 1 ∧ ¬ chans.all (fun c => chanRetired s c || spFits s c sp) then some (noResource 0x0D) else none
    run := fun s =>
      if chans = [] then .reply s St.OK 0 0 []
      else
        let s := { s with dram.trains := s.dram.trains ++ [{ rs := c.rs, tag := c.tag, op, sp, left := chans }] }
        .defer (kickTrains (trainFuel s) s) }

/-- DRAM_TRAIN (R136). -/
def execDramTrain (c : Cmd) (s : State) : Out := .next (hostCmd 0x1204 dramTrainPlan c s)

/-- DMC_CH_STATUS[2:0]. -/
def ChState.code : ChState → Nat
  | .off => 0 | .training => 1 | .active => 2 | .selfRefresh => 3 | .switching => 4 | .retired => 5

/-- DRAM_QUERY state of a region. -/
def RegState.code : RegState → Nat
  | .active => 0 | .degraded => 1 | .dataLost => 2 | .deleting => 3

/-- Lost bytes of a region in units of 2⁻¹⁰ GiB, rounded down. -/
def Region.lostMib (r : Region) : Nat :=
  (r.sizeMib * 1048576 * r.lostStripes.length / max 1 (chansOf r.channels).length + 64 * r.poison.length) / 1048576

/-- DRAM_QUERY; its parameter length is not given (notes/assumptions/12.md). -/
def dramQueryPlan (c : Cmd) (s : State) : Plan :=
  { Plan.query 0x1205 false (handleDev c.handle || handleIn s [0x13] c.handle) 0 none fun s =>
      if hCls c.handle = 0x01 then
        recordAnswer (allChans.flatMap fun n =>
          let x := chanOf s n
          leN n 1 ++ leN x.state.code 1 ++ leN x.sp 1 ++ leN x.ranks 1 ++ leN (chanMib s n) 4
            ++ leN (loadMb (loadNow s n)) 4 ++ leN (spLimitKb x.sp / 1000) 4)
      else
        let r := (Tbl.get? s.dram.regions (hIdx c.handle)).getD {}
        recordAnswer (fit r.params 16 ++ leN r.state.code 1 ++ leN 0 3 ++ leN r.lostMib 4)
    with len := none }

/-- DRAM_QUERY (R146). -/
def execDramQuery (c : Cmd) (s : State) : Out := .next (hostCmd 0x1205 dramQueryPlan c s)

end Sys2Proof.Machine
end

