-- ==== Sys2Proof/Machine/Firmware.lean ====
section
/-! DEFINITION. Machine/Firmware.lean: the firmware and fuse commands (R83, R91–R95). -/

namespace Sys2Proof.Machine

/-- The three images of a slot are VALID. -/
def slotValid (s : State) (slot : Nat) : Bool :=
  [1, 2, 3].all fun t => (imageOf s (4 * slot + t)).state == .valid

/-- A reset is scheduled 10 ms after the command completes (R83). -/
def scheduleReset (slot : Nat) (s : State) : State :=
  { s with boot.resetAt := some (s.clock.cycles + msCycles 10), boot.resetSlot := slot }

/-- DEV_RESET (R83). -/
def devResetPlan (c : Cmd) (_ : State) : Plan :=
  { op := 0x010D, priv := 2, safe := true, handleOk := handleDev c.handle, touches := [devH]
    param := firstBad [(decide (u8 c.params 0 ≤ 2), badParam 0)]
    run := fun s => .ok (scheduleReset (u8 c.params 0) s) }

/-- DEV_RESET (R83). -/
def execDevReset (c : Cmd) (s : State) : Out := .next (hostCmd 0x010D devResetPlan c s)

/-! ### FW_LOAD (R92) -/

/-- The image bytes once a piece has been written at `o`. -/
def patchBytes (b : List Byte) (o : Nat) (piece : List Byte) : List Byte :=
  fit b o ++ piece ++ b.drop (o + piece.length)

/-- An image staged in AWAIT_IMAGES has verified and awaits its start: OTP_IMG_VERSION, OTP_IMG_SVN and the tested set show it
(Table 4-11). -/
def noteStaged (idx : Nat) (b : List Byte) (s : State) : State :=
  if s.boot.safeHold ∧ s.boot.safeReason = 1 then
    { s with boot := { s.boot with
        version := s.boot.version.set (idx % 4) (imgVersion b), svn := s.boot.svn.set (idx % 4) (imgSvn b)
        testedSet := if idx % 4 = 1 then Config.testedSet (imgPayload b) else s.boot.testedSet } }
  else s

/-- A complete image is checked and stored (R92). -/
def storeImage (idx : Nat) (b : List Byte) (s : State) : Done :=
  let chunks := (b.length + 4095) / 4096
  let cause := imageCause s (idx % 4) b
  if cause ≠ 0 then .reply (rejectImage cause s) St.IMAGE_REJECTED cause 0 []
  else if idx / 4 = 2 then .reply (noteStaged idx b (putImage idx { state := .valid, bytes := b } s)) St.OK 0 chunks []
  else if ¬ s.flash.present ∨ s.flash.fault ≠ 0 then
    .reply (putImage idx { imageOf s idx with state := .invalid } s) St.FLASH_FAIL
      (if ¬ s.flash.present then 1 else s.flash.fault) 0 []
  else .reply (putImage idx { state := .valid, bytes := b } s) St.OK 0 chunks []

/-- FW_LOAD: the assembly takes the data; when complete, the image is checked and stored (R92). -/
def fwLoadRun (c : Cmd) (s : State) : Done :=
  let idx := hIdx c.handle
  let total := u32 c.params 4
  if u8 c.params 0 = 0 then storeImage idx (fit c.dma total) s
  else
    let o := u32 c.params 8
    let old := match s.boot.asm with
      | some a => if a.idx = idx ∧ o ≠ 0 then a.bytes else []
      | none => []
    let b := patchBytes old o (slice c.params 16 (u32 c.params 12))
    if u8 c.params 1 = 1 then storeImage idx b { s with boot.asm := none }
    else .reply { s with boot.asm := some ⟨idx, total, b⟩ } St.OK 0 ((b.length + 4095) / 4096) []

/-- FW_LOAD (R92, Table 4-8). -/
def fwLoadPlan (c : Cmd) (s : State) : Plan :=
  let mode := u8 c.params 0
  let len := u32 c.params 12
  { op := 0x1101, priv := 2, safe := true, handleOk := handleIn s [0x11] c.handle, touches := [c.handle]
    state := if s.boot.running = some (hIdx c.handle / 4) then some (wrongState 2)
      else none
    len := some (if mode = 1 then 16 + up8 len else 16)
    param := firstBad
      [ (mode == 1 || (mode == 0 && Cmd.port c != 3), badParam 0)
      , (mode == 0 || decide (u8 c.params 1 ≤ 1), badParam 1)
      , (mode == 0 || u32 c.params 8 % 2048 == 0, badParam 8)
      , (mode == 0 || len == 2048 || (u8 c.params 1 == 1 && decide (1 ≤ len) && decide (len ≤ 2048)), badParam 12) ]
    run := fwLoadRun c }

/-- FW_LOAD (R92). -/
def execFwLoad (c : Cmd) (s : State) : Out := .next (hostCmd 0x1101 fwLoadPlan c s)

/-! ### FW_ACTIVATE (R93) -/

/-- The slot that TRIAL takes: the slot that does not run; with no slot running, slot A if its images
are VALID, else slot B. -/
def trialSlot (s : State) : Option Nat :=
  match s.boot.running with
  | some 0 => if slotValid s 1 then some 1 else none
  | some 1 => if slotValid s 0 then some 0 else none
  | _ => if slotValid s 0 then some 0 else if slotValid s 1 then some 1 else none

/-- The slot that runs, if a flash slot does. -/
def runningSlot (s : State) : Option Nat :=
  match s.boot.running with
  | some 0 => some 0
  | some 1 => some 1
  | _ => none

/-- The state failure of an FW_ACTIVATE operation. -/
def activateState (op : Nat) (s : State) : Option Err :=
  match op with
  | 1 => if (trialSlot s).isNone then some (wrongState 4) else none
  | 2 => if s.boot.trialBoot then none else some (wrongState (Config.detail 0x1102 2))
  | 3 => if (runningSlot s).isNone then some (wrongState 5) else none
  | 4 => if s.boot.safeHold ∧ s.boot.safeReason = 1 ∧ slotValid s 2 ∧ s.boot.resume = none then none
         else some (wrongState (Config.detail 0x1102 4))
  | _ => none

/-- CONFIRM: the counters rise to the running image's SVNs, then TRIAL clears (R93). -/
def confirmRun (s : State) : Done :=
  if s.fuses.trip then .reply s St.OTP_PROGRAM_FAIL 5 0 []
  else
    let s := [1, 2, 3].foldl (fun s t => raiseArb t (s.boot.svn.getD t 0) s) s
    let s := rewriteDir (fun d => { d with trial := false }) { s with boot.trialBoot := false }
    .ok (raise Ev.FW_CONFIRMED 0
      (leN ((runningSlot s).getD 0) 1 ++ leN (arbCounter s 1) 1 ++ leN (arbCounter s 2) 1 ++ leN (arbCounter s 3) 1) s)

/-- The operations of R93. START goes on with boot steps 8 to 11 (KINDLING_BOOT), which answer it. -/
def activateRun (c : Cmd) (s : State) : Done :=
  match u8 c.params 0 with
  | 1 =>
    let s := rewriteDir (fun d => { d with preferred := (trialSlot s).getD 0, trial := true, tried := false }) s
    .ok (if u8 c.params 1 = 1 then scheduleReset 0 s else s)
  | 2 => confirmRun s
  | 3 => .ok (rewriteDir (fun d => { d with preferred := (runningSlot s).getD 0, trial := false }) s)
  | _ => .defer { s with boot.resume := some (c.rs, c.tag, false) }

/-- FW_ACTIVATE (R93, Table 4-9). -/
def fwActivatePlan (c : Cmd) (s : State) : Plan :=
  let op := u8 c.params 0
  { op := 0x1102, priv := 2, safe := true, handleOk := handleDev c.handle, touches := [devH]
    state := activateState op s
    param := firstBad
      [ (decide (1 ≤ op) && decide (op ≤ 4), badParam 0)
      , (decide (u8 c.params 1 ≤ if op = 1 then 1 else 0), badParam 1) ]
    run := activateRun c }

/-- FW_ACTIVATE (R93). -/
def execFwActivate (c : Cmd) (s : State) : Out := .next (hostCmd 0x1102 fwActivatePlan c s)

/-- FW_ACCEPT_UNTESTED (R91): steps 9 to 11 follow (KINDLING_BOOT), which answer it. -/
def fwAcceptPlan (c : Cmd) (s : State) : Plan :=
  { op := 0x1103, priv := 2, safe := true, handleOk := handleDev c.handle, touches := [devH]
    state := if ¬ (s.boot.safeHold ∧ s.boot.safeReason = 2) then some (wrongState 1)
      else if s.boot.resume ≠ none then some (wrongState 2) else none
    len := some 0
    res := if policyBit s 0 then none else some ⟨St.POLICY_FORBIDS, 0⟩
    run := fun s => .defer { s with boot.resume := some (c.rs, c.tag, true) } }

/-- FW_ACCEPT_UNTESTED (R91). -/
def execFwAcceptUntested (c : Cmd) (s : State) : Out := .next (hostCmd 0x1103 fwAcceptPlan c s)

/-! ### FW_QUERY -/

/-- FW_QUERY STATE. -/
def ImgState.code : ImgState → Nat
  | .empty => 0 | .valid => 1 | .invalid => 2

/-- One 16-byte entry of FW_QUERY. -/
def fwEntry (s : State) (slot t : Nat) : List Byte :=
  let im := imageOf s (4 * slot + t)
  leN t 1 ++ leN slot 1 ++ leN im.state.code 1 ++ leN 0 1 ++ leN (imgVersion im.bytes) 4
    ++ leN (imgSvn im.bytes) 4 ++ leN (imgPayloadLen im.bytes) 4

/-- FW_QUERY (R93). The spec gives no parameter length for it: any is taken
(notes/assumptions/12.md). -/
def fwQueryPlan (c : Cmd) (_ : State) : Plan :=
  { Plan.query 0x1104 true (handleDev c.handle) 0 none fun s =>
      let d := activeDir s.flash
      recordAnswer (leN (s.boot.running.getD (Config.detail 0x1104 0)) 1 ++ leN (b2n d.trial) 1 ++ leN (b2n d.tried) 1
        ++ leN 0 1 ++ leN s.boot.testedSet.length 4
        ++ fwEntry s 0 1 ++ fwEntry s 0 2 ++ fwEntry s 0 3 ++ fwEntry s 1 1 ++ fwEntry s 1 2 ++ fwEntry s 1 3)
    with len := none }

/-- FW_QUERY (R93). -/
def execFwQuery (c : Cmd) (s : State) : Out := .next (hostCmd 0x1104 fwQueryPlan c s)

/-! ### Fuses (R94, R95) -/

/-- The thermometer of a counter value, three copies (Table 4-10). -/
def thermometer (v : Nat) : List Byte := leN (2 ^ v - 1) 8 ++ leN (2 ^ v - 1) 8 ++ leN (2 ^ v - 1) 8

/-- The payload of generation `g` of a record. -/
def genPayload (s : State) (t g : Nat) : Option (List Byte) :=
  if t = 5 then some (fit (thermometer (arbCounter s 1) ++ thermometer (arbCounter s 2) ++ thermometer (arbCounter s 3)) 120)
  else ((recGens s t)[g]?).map (·.payload)

/-- The generation OTP_READ names: GEN, or 0xFF for the one in force. -/
def otpGen (s : State) (t gen : Nat) : Option Nat :=
  if t = 5 then some 0 else if gen = 0xFF then (inForce s t).map Prod.fst else some gen

/-- The 8-byte generation header (R94). The counters' CRC covers only the reserved bytes. -/
def genHeader (t g : Nat) (p : List Byte) : List Byte :=
  leN t 1 ++ leN g 1 ++ leN p.length 2 ++ leN (crc32 (if t = 5 then p.drop 72 else p)) 4

/-- OTP_READ (R95). -/
def otpReadPlan (c : Cmd) (s : State) : Plan :=
  let t := u8 c.params 0
  let g := otpGen s t (u8 c.params 1)
  Plan.query 0x1105 true (handleDev c.handle) 8
    (firstBad [ (decide (1 ≤ t) && decide (t ≤ 7), badParam 0)
              , ((g.bind (genPayload s t)).isSome, badParam 1) ])
    fun s =>
      match g.bind (fun g => (genPayload s t g).map fun p => (g, p)) with
      | some (g, p) => recordAnswer (genHeader t g p ++ p)
      | none => recordAnswer []

/-- OTP_READ (R95). -/
def execOtpRead (c : Cmd) (s : State) : Out := .next (hostCmd 0x1105 otpReadPlan c s)

/-- How many bits of a 64-bit word are set. -/
def popcount (x : Nat) : Nat → Nat
  | 0 => 0
  | n + 1 => x % 2 + popcount (x / 2) n

/-- OTP_PROGRAM on a record with generations: the next generation is written once and whole (R94, R95). -/
def programRecord (t : Nat) (payload : List Byte) (s : State) : Done :=
  let gens := recGens s t
  let ok := !s.fuses.trip
  let s := { s with fuses.recs := Tbl.put s.fuses.recs t (gens ++ [⟨ok, payload⟩]) }
  if ok then
    .ok (raise Ev.OTP_PROGRAMMED 0 (leN t 1 ++ leN gens.length 1 ++ leN (3 - gens.length) 1) (bump R.OTP_PROGRAM_OPS s))
  else .reply s St.OTP_PROGRAM_FAIL t 0 []

/-- OTP_PROGRAM on the anti-rollback record: counters rise, none is lowered (R95). The counters are
named by thermometers at payload bytes 0, 8 and 16 (notes/assumptions/13.md). -/
def programArb (p : List Byte) (s : State) : Done :=
  if s.fuses.trip then .reply s St.OTP_PROGRAM_FAIL 5 0 []
  else
    let s := [1, 2, 3].foldl (fun s t => raiseArb t (popcount (u64 p (8 * (t - 1))) 64) s) s
    .ok (raise Ev.OTP_PROGRAMMED 0 (leN 5 1) s)

/-- OTP_PROGRAM (R95). -/
def otpProgramPlan (c : Cmd) (s : State) : Plan :=
  let t := u8 c.params 0
  { op := 0x1106, priv := 2, safe := true, handleOk := handleDev c.handle, touches := [devH]
    state := if t ≠ 5 ∧ 1 ≤ t ∧ t ≤ 7 ∧ 4 ≤ (recGens s t).length then some ⟨St.OTP_LOCKED, t⟩ else none
    len := if 1 ≤ t ∧ t ≤ 7 then some (recBytes t) else none
    param := firstBad [(decide (1 ≤ t) && decide (t ≤ 7), badParam 0)]
    run := fun s =>
      let p := c.params.drop 8
      if t = 5 then programArb p s else programRecord t p s }

/-- OTP_PROGRAM (R95). -/
def execOtpProgram (c : Cmd) (s : State) : Out := .next (hostCmd 0x1106 otpProgramPlan c s)

end Sys2Proof.Machine
end

