-- ==== Sys2Proof/Machine/DspCmds.lean ====
section
/-! DEFINITION. Machine/DspCmds.lean: the DSP commands 0x0501–0x0506 (R224–R229). -/

namespace Sys2Proof.Machine

/-! ### DSP_LOAD (R229) -/

/-- Tasks that use a program. -/
def progTasks (s : State) (p : Nat) : Nat := (s.dsp.tasks.filter (fun e => e.2.prog == p)).length

/-- An image is complete: it is checked and becomes the program. -/
def storeProgram (prog : Nat) (b : List Byte) (s : State) : Done :=
  let s := { s with dsp.asm := Tbl.del s.dsp.asm prog }
  match imageBad b with
  | some d => .reply s St.DSP_IMAGE_INVALID d 0 []
  | none => .reply { s with dsp.programs := Tbl.put s.dsp.programs prog (parseProgram b) } St.OK 0 ((b.length + 4095) / 4096) []

/-- The assembly in the program store takes the data (as R92). -/
def dspLoadRun (c : Cmd) (s : State) : Done :=
  let prog := u8 c.params 2
  let total := u32 c.params 4
  if u8 c.params 0 = 0 then storeProgram prog (fit c.dma total) s
  else
    let o := u32 c.params 8
    let b := patchBytes (if o = 0 then [] else Tbl.getD s.dsp.asm prog []) o (slice c.params 16 (u32 c.params 12))
    if u8 c.params 1 = 1 then storeProgram prog b s
    else .reply { s with dsp.asm := Tbl.put s.dsp.asm prog b } St.OK 0 ((b.length + 4095) / 4096) []

/-- DSP_LOAD (R229, Table 4-8). -/
def dspLoadPlan (c : Cmd) (s : State) : Plan :=
  let mode := u8 c.params 0
  let prog := u8 c.params 2
  let len := u32 c.params 12
  { op := 0x0501, handleOk := handleDev c.handle, touches := [c.handle]
    state := if progTasks s prog = 0 ∨ prog < 64 then none else some ⟨St.DSP_PROGRAM_IN_USE, progTasks s prog % 65536⟩
    len := some (if mode = 1 then 16 + up8 len else 16)
    param := firstBad
      [ (mode == 1 || (mode == 0 && Cmd.port c != 3), badParam 0)
      , (mode == 0 || decide (u8 c.params 1 ≤ 1), badParam 1)
      , (decide (64 ≤ prog), badParam 2)
      , (mode == 0 || u32 c.params 8 % 2048 == 0, badParam 8)
      , (mode == 0 || len == 2048 || (u8 c.params 1 == 1 && decide (1 ≤ len) && decide (len ≤ 2048)), badParam 12) ]
    run := dspLoadRun c }

/-- DSP_LOAD (R229). -/
def execDspLoad (c : Cmd) (s : State) : Out := .next (hostCmd 0x0501 dspLoadPlan c s)

/-! ### DSP_TASK_CREATE (R224) -/

/-- Whether a level needs INTERRUPT_SAFE and the program lacks it. -/
def needsSafe (s : State) (prog level : Nat) : Bool :=
  levelMode s level == 1 && !bit (((progOf s prog).map Program.pflags).getD 0) 0

/-- The task that parameters describe (Table 9-13). -/
def taskFrom (p : List Byte) : Task :=
  { prog := u8 p 0, level := u8 p 1, tflags := u8 p 2, maxObj := u8 p 3, cycles := u32 p 4, cyclesObj := u32 p 8
    rate := if bit (u8 p 2) 0 ∨ u8 p 3 ≠ 0 then 1000 else u32 p 12
    budget := u32 p 16, trigger := [u8 p 20, u8 p 21, u8 p 22, u8 p 23], paramBytes := u16 p 24 }

/-- DSP_TASK_CREATE (R224, Table 9-13). -/
def taskCreatePlan (c : Cmd) (s : State) : Plan :=
  let p := c.params
  let flueTask := !bit (u8 p 2) 0 && u8 p 3 == 0
  { op := 0x0502, handleOk := handleNew 5 c.handle, touches := [c.handle]
    state := notFree 0x0502 s.dsp.tasks c.handle
    len := some 32
    param := firstBad
      [ ((progOf s (u8 p 0)).isSome, badParam 0)
      , (decide (u8 p 1 ≤ 7), badParam 1)
      , (decide (u8 p 2 ≤ 3), badParam 2)
      , (decide (u8 p 3 ≤ 64), badParam 3)
      , (decide (1 ≤ u32 p 4) && decide (u32 p 4 ≤ 1000000), badParam 4)
      , (!flueTask || (decide (1 ≤ u32 p 12) && decide (u32 p 12 ≤ 10000000)), badParam 12)
      , (decide (u16 p 24 ≤ 1024) && u16 p 24 % 8 == 0, badParam 24)
      , (!needsSafe s (u8 p 0) (u8 p 1), ⟨St.DSP_BIND_INVALID, 1⟩) ]
    res := if (newIndex s.dsp.tasks c.handle 0 16384).isNone then some (noResource (Config.detail 0x0502 1)) else none
    run := fun s =>
      let i := (newIndex s.dsp.tasks c.handle 0 16384).getD 0
      .okWith { s with dsp.tasks := Tbl.put s.dsp.tasks i (taskFrom p) } (leN (taskH i).toNat 4) }

/-- DSP_TASK_CREATE (R224). -/
def execDspTaskCreate (c : Cmd) (s : State) : Out := .next (hostCmd 0x0502 taskCreatePlan c s)

/-! ### DSP_TASK_BIND (R225–R227) -/

/-- The four handles from an offset; 0 is none. -/
def flueHandles (p : List Byte) (o : Nat) : List (Option Nat) :=
  [0, 1, 2, 3].map fun k => let h := u32 p (o + 4 * k); if h = 0 then none else some (h % 2 ^ 24)

/-- The flue handles from an offset name flues. -/
def flueHandlesOk (s : State) (p : List Byte) (o : Nat) : List (Bool × Err) :=
  [0, 1, 2, 3].map fun k =>
    (u32 p (o + 4 * k) == 0 || paramHandle s [0x12] (u32 p (o + 4 * k)), badParam (o + 4 * k))

/-- The number of an insert object: a leg, or a bus by conference and bus within it. -/
def bindObject (s : State) (p : List Byte) : Nat :=
  if u8 p 0 = 1 then u32 p 4 % 2 ^ 24
  else ((Tbl.get? s.confs (u32 p 4 % 2 ^ 24)).map (fun c => c.firstBus + u8 p 8)).getD 0

/-- The inserts that an object has. -/
def insertsOf (s : State) (kind n : Nat) : List Nat :=
  if kind = 1 then Tbl.getD s.dsp.legIns n [] else Tbl.getD s.dsp.busIns n []

/-- Why a binding is invalid (DSP_BIND_INVALID, Table 9-15). -/
def bindInvalid (p : List Byte) (t : Task) (target : Nat) (s : State) : Option Err :=
  let kind := u8 p 0
  let st := ((progOf s t.prog).map (fun g => g.stateBytes + t.maxObj * g.stateObj)).getD 0
  let full := (flueHandles p 32).any fun o => match o.bind (flueOf s) with
    | some f => !f.producers.contains target && decide (8 ≤ f.producers.length)
    | none => false
  let taken := (flueHandles p 16).any fun o => match o.bind (flueOf s) with
    | some f => f.consumer.isSome
    | none => false
  firstBad ([(!needsSafe s t.prog t.level, 1), (target < 0x8000 || st == 0, 2), (kind != 0 || !full, 3)
    , (kind == 0 || decide ((insertsOf s kind (bindObject s p)).length < 2), 4), (kind != 0 || !taken, 5)
    , (kind == 0 || decide (t.objs.length < t.maxObj), 6)].map fun e => (e.1, ⟨St.DSP_BIND_INVALID, e.2⟩))

/-- The parameters of DSP_TASK_BIND (Table 9-14). -/
def bindParam (p : List Byte) (t : Task) (s : State) : Option Err :=
  let kind := u8 p 0
  let target := u16 p 2
  let conf := Tbl.get? s.confs (u32 p 4 % 2 ^ 24)
  firstBad
    ([ (decide (kind ≤ 2), badParam 0)
    , (t.placed || (decide (target < 272) && target % 17 != 16) || (decide (0x8000 ≤ target) && decide (target < 0x8010)), badParam 2)
    , (kind == 0 || (kind == 1 && paramHandle s [2] (u32 p 4)) || (kind == 2 && paramHandle s [3] (u32 p 4)), badParam 4)
    , (kind != 2 || decide (u8 p 8 ≤ (conf.map Conf.aux).getD 0), badParam 8) ]
    ++ (if kind = 0 then flueHandlesOk s p 16 ++ flueHandlesOk s p 32 else []))

/-- Bytes of checkpoint copies in use. -/
def ckptUsed (s : State) : Nat := Tbl.sum s.dsp.tasks (fun t => if t.placed then 2 * t.stateLen else 0)

/-- What a first binding lacks: the DRAM worksheet, cycles, tasks on the core, data memory, the checkpoint region, instruction
memory, in ascending code. -/
def bindShort (t : Task) (target : Nat) (s : State) : Option Err :=
  match progOf s t.prog with
  | none => none
  | some g =>
    let sl := g.stateBytes + t.maxObj * g.stateObj
    let room := placeOn t g target (levelMode s t.level == 2) s
    let short := fun n => match room with
      | .inr x => x == n
      | .inl _ => false
    match mediaErr s (mediaCharge (decTotal s) (encTotal s) (cmpTotal s) (otherBytes s + 2 * sl * t.rate)) with
    | some e => some e
    | none => firstBad
        [ (cyclesFit s target t.need, noResource 0x50)
        , (decide (0x8000 ≤ target) || decide (coreTasks s target < 64), noResource 0x51)
        , (!short 0x52, noResource 0x52)
        , (decide (ckptUsed s + 2 * sl ≤ Config.ckptBytes), noResource 0x53)
        , (!short 0x54, noResource 0x54) ]

/-- A task's flues are registered with it: inputs become RETAIN (R108, Table 9-14). -/
def bindFlues (i target : Nat) (ins outs : List (Option Nat)) (s : State) : State :=
  let one := fun (g : Flue → Flue) (s : State) (o : Option Nat) => match o with
    | some j => (match flueOf s j with
      | some f => { s with flues := Tbl.put s.flues j (g f) }
      | none => s)
    | none => s
  let s := ins.foldl (one fun f => { f with retain := true, consumer := some i, users := f.users ++ [taskH i] }) s
  outs.foldl (one fun f => { f with
    producers := if f.producers.contains target then f.producers else f.producers ++ [target]
    users := f.users ++ [taskH i] }) s

/-- The binding takes effect: areas at the first, then flues or the object. -/
def bindRun (i : Nat) (p : List Byte) (s : State) : State :=
  match taskOf s i, (taskOf s i).bind (fun t => progOf s t.prog) with
  | some t, some g =>
    let kind := u8 p 0
    let target := if t.placed then t.target else u16 p 2
    let s := if t.placed then s
      else
        match placeOn t g target (levelMode s t.level == 2) s with
        | .inl (s, areas) =>
          modTask i (fun t => { t with
            state := .bound, target, core := if target < 0x8000 then target else (target - 0x8000) * 17, areas
            stateLen := g.stateBytes + t.maxObj * g.stateObj, workLen := g.workBytes }) s
        | .inr _ => s
    if kind = 0 then
      updateReady i (bindFlues i target (flueHandles p 16) (flueHandles p 32)
        (modTask i (fun t => { t with inputs := flueHandles p 16, outputs := flueHandles p 32 }) s))
    else
      let n := bindObject s p
      let s := modTask i (fun t => { t with objs := t.objs ++ [(kind, n)] }) s
      if kind = 1 then { s with dsp.legIns := Tbl.upd s.dsp.legIns n [] (· ++ [i]) }
      else { s with dsp.busIns := Tbl.upd s.dsp.busIns n [] (· ++ [i]) }
  | _, _ => s

/-- DSP_TASK_BIND (R225–R227). -/
def taskBindPlan (c : Cmd) (s : State) : Plan :=
  let i := hIdx c.handle
  let t : Task := (taskOf s i).getD {}
  let target := if t.placed then t.target else u16 c.params 2
  { op := 0x0503, handleOk := handleIn s [5] c.handle, touches := [c.handle]
    state := if t.state = .created ∨ (t.state = .bound ∧ u8 c.params 0 ≠ 0) then none
      else some (wrongState (Config.detail 0x0503 0))
    len := some 48
    param := bindParam c.params t s <|> bindInvalid c.params t target s
    res := if t.placed then none else bindShort t target s
    run := fun s => .ok (bindRun i c.params s) }

/-- DSP_TASK_BIND (R225). -/
def execDspTaskBind (c : Cmd) (s : State) : Out := .next (hostCmd 0x0503 taskBindPlan c s)

/-! ### DSP_TASK_PARAM, DSP_TASK_DELETE (R229) -/

/-- DSP_TASK_PARAM: the shadow copy takes the data once no earlier command waits; the reply comes at the swap. -/
def taskParamPlan (c : Cmd) (s : State) : Plan :=
  let i := hIdx c.handle
  let t : Task := (taskOf s i).getD {}
  let o := u16 c.params 0
  let n := u16 c.params 2
  { op := 0x0504, handleOk := handleIn s [5] c.handle, touches := [c.handle]
    state := if t.state = .bound then none else some (wrongState (Config.detail 0x0504 0))
    len := some (8 + up8 n)
    param := firstBad [(decide (o < t.paramBytes), badParam 0), (decide (o + n ≤ t.paramBytes), badParam 2)]
    run := fun s =>
      let first := t.params == []
      let s := modTask i (fun t => { t with params := t.params ++ [(c.rs, c.tag, o, slice c.params 8 n)] }) s
      .defer (if first then writeShadowParam i s else s) }

/-- DSP_TASK_PARAM (R229). -/
def execDspTaskParam (c : Cmd) (s : State) : Out := .next (hostCmd 0x0504 taskParamPlan c s)

/-- A task stops at once, as by a trap without the event (Table 9-12). -/
def forceStop (i : Nat) (t : Task) (s : State) : State :=
  let s := rewindInputs t (abandonOutputs t s)
  if (coreOf s t.core).task = some i then leaveTask t.core s
  else modCore t.core (fun c => match c.under with
    | some u => if u.task = some i then { c with under := some { u with task := none } } else c
    | none => c) s

/-- DSP_TASK_DELETE (R224). -/
def taskDeletePlan (c : Cmd) (s : State) : Plan :=
  let i := hIdx c.handle
  let t : Task := (taskOf s i).getD {}
  let busy := taskBusy s i t
  { op := 0x0505, handleOk := handleIn s [5] c.handle, touches := [c.handle]
    state := if t.state = .deleting then some (wrongState (Config.detail 0x0505 0)) else none
    param := firstBad [(decide (u8 c.params 0 ≤ 1), badParam 0)]
    run := fun s =>
      if u8 c.params 0 = 1 then .ok (freeTask i (forceStop i t s))
      else if t.state = .bound ∧ busy then
        .defer (modTask i (fun t => { t with state := .deleting, deleter := some (c.rs, c.tag) }) s)
      else .ok (freeTask i s) }

/-- DSP_TASK_DELETE (R224). -/
def execDspTaskDelete (c : Cmd) (s : State) : Out := .next (hostCmd 0x0505 taskDeletePlan c s)

/-! ### DSP_QUERY (R229) -/

/-- The number of a task's state; the spec gives the states no numbers (notes/assumptions/11.md). -/
def taskStateNum : TaskState → Nat
  | .created => Config.detail 0x0506 1
  | .bound => Config.detail 0x0506 2
  | .faulted => Config.detail 0x0506 3
  | .deleting => Config.detail 0x0506 4

/-- One entry per program loaded. -/
def programItems (s : State) : List (List Byte) :=
  let item := fun n (p : Program) => leN n 1 ++ leN 1 1 ++ leN p.bundles.length 2 ++ leN p.const_.length 4
    ++ leN (progTasks s n) 4 ++ leN p.version 4
  ([0, 1, 2].map fun n => item n (libProgram n)) ++ s.dsp.programs.map fun e => item e.1 e.2

/-- DSP_QUERY on the device or a task. -/
def dspQueryPlan (c : Cmd) (s : State) : Plan :=
  Plan.query 0x0506 false (handleDev c.handle || handleIn s [5] c.handle) 8 none fun s =>
    if c.handle = devH then itemsAnswer [] (programItems s) (u32 c.params 0)
    else
      let t : Task := (taskOf s (hIdx c.handle)).getD {}
      recordAnswer (leN (taskStateNum t.state) 1 ++ leN t.level 1 ++ leN t.core 2 ++ leN t.prog 1 ++ leN t.objs.length 1
        ++ leN 0 2 ++ leN t.dispatches 8 ++ leN t.traps 4 ++ leN t.cause 1 ++ leN t.code 1 ++ leN t.trapPc 2 ++ leN t.largest 4)

/-- DSP_QUERY (R229). -/
def execDspQuery (c : Cmd) (s : State) : Out := .next (hostCmd 0x0506 dspQueryPlan c s)

end Sys2Proof.Machine
end

