-- ==== Sys2Proof/Machine/Encode.lean ====
section
/-! DEFINITION. Machine/Encode.lean: encode streams (R269–R281). -/

namespace Sys2Proof.Machine

def encOf (s : State) (i : Nat) : Enc := Tbl.getD s.video.encs i {}
def modEnc (i : Nat) (f : Enc → Enc) (s : State) : State := { s with video.encs := Tbl.modify s.video.encs i f }

/-! ### Layers (R271, Table 12-2) -/

/-- SIMULCAST, and SVC where more than one spatial layer is not simulcast. -/
def Enc.simulcast (e : Enc) : Bool := bit e.eflags 1
def Enc.ir (e : Enc) : Bool := bit e.eflags 3

/-- Width and height of spatial layer `l`. -/
def Enc.layerW (e : Enc) (l : Nat) : Nat := e.w / 2 ^ (e.spatial - 1 - l)
def Enc.layerH (e : Enc) (l : Nat) : Nat := e.h / 2 ^ (e.spatial - 1 - l)

/-- The temporal layer at place `pos` of the pattern. -/
def temporalAt (temporal pos : Nat) : Nat :=
  match temporal with
  | 2 => pos % 2
  | 3 => [0, 2, 1, 2].getD (pos % 4) 0
  | _ => 0

/-- The bitrate share of a temporal layer in percent, and R over its picture rate. -/
def shareOf (temporal t : Nat) : Nat :=
  match temporal with
  | 2 => if t = 0 then 60 else 40
  | 3 => [50, 20, 30].getD t 0
  | _ => 100
def rateDiv (temporal t : Nat) : Nat :=
  match temporal with
  | 2 => 2
  | 3 => if t = 2 then 2 else 4
  | _ => 1

/-! ### Rate control (R275, Table 12-4) -/

/-- Units in a row and rows of spatial layer `l`. -/
def Enc.unit (e : Enc) : Nat := if e.codec = 2 then 64 else 16
def Enc.rowUnits (e : Enc) (l : Nat) : Nat := (e.layerW l + e.unit - 1) / e.unit
def Enc.rows (e : Enc) (l : Nat) : Nat := (e.layerH l + e.unit - 1) / e.unit

/-- The bound of a floor row in bytes, and floor_total. -/
def Enc.floorRow (e : Enc) (l : Nat) (key : Bool) : Nat := 8 + (if key then 6 * e.rowUnits l else (e.rowUnits l + 7) / 8)
def Enc.floorTotal (e : Enc) (l : Nat) (key : Bool) : Nat := 64 + e.rows l * e.floorRow l key

/-- TARGET_KBPS of a layer; its buffer B in bytes. -/
def Enc.kbps (e : Enc) (l : Nat) : Nat := e.target.getD l 0
def Enc.bufBytes (e : Enc) (l : Nat) : Rat := (e.bufMs * e.kbps l : Nat) / 8

/-- base of R275 for a source rate in 1/1,000 fps. -/
def Enc.base (e : Enc) (srcFps l t : Nat) : Rat :=
  ((e.kbps l * 10 * shareOf e.temporal t * rateDiv e.temporal t * e.fpsDiv * 1000 : Nat) : Rat) / (8 * max 1 srcFps : Nat)

/-- The target of R275, lowered by the overrun of R277. -/
def pictureTarget (base b fullness overrun : Rat) (floor : Nat) : Rat :=
  let t := min (2 * base) (max (base / 2) (base + (b / 2 - fullness) / 4))
  max (min t (floor : Rat)) (t - overrun)

/-- The cap of R275. -/
def pictureCap (pct : Nat) (base b fullness : Rat) (floor : Nat) : Rat :=
  max (floor : Rat) (min ((pct : Rat) * base / 100) (b - fullness))

/-- What coding the rows of a picture leaves: bytes used, the first floor row, rows floored. -/
structure RowsDone where
  used  : Nat := 0
  first : Option Nat := none
  count : Nat := 0
deriving DecidableEq, Repr

/-- The rows of R276, top to bottom; each is its estimate, its bytes coded normally and in floor mode. -/
def codeRows (cap : Rat) (floorRow rows : Nat) (facts : List (Nat × Nat × Nat)) : (left : Nat) → RowsDone → RowsDone
  | 0, d => d
  | left + 1, d =>
    let r := rows - (left + 1)
    let f := facts.getD r (0, 0, floorRow)
    let reserve := left * floorRow
    let floorB := min f.2.2 floorRow
    let floored : RowsDone := { used := d.used + floorB, first := d.first <|> some r, count := d.count + 1 }
    let d :=
      if d.first.isNone ∧ ((d.used + f.1 + reserve : Nat) : Rat) ≤ cap then
        if ((d.used + f.2.1 + reserve : Nat) : Rat) > cap then floored else { d with used := d.used + f.2.1 }
      else floored
    codeRows cap floorRow rows facts left d

/-! ### Parameters (Table 12-10) -/

/-- The 48 parameter bytes in force. -/
def encBytes (e : Enc) : List Byte :=
  fit (leN e.codec 1 ++ leN e.profile 1 ++ leN e.spatial 1 ++ leN e.temporal 1 ++ leN e.source.toNat 4 ++ leN e.w 2 ++ leN e.h 2
    ++ leN e.fpsDiv 1 ++ leN e.eflags 1 ++ leN e.irPeriod 2 ++ e.target.flatMap (fun t => leN t 4)
    ++ leN e.hardCap 2 ++ leN e.keyCap 2 ++ leN e.bufMs 2 ++ leN e.keyGap 2 ++ leN e.switchMs 2 ++ leN e.payload 2) 48

/-- The stream with the parameters of a block. -/
def encWith (e : Enc) (p : List Byte) : Enc :=
  let d := fun o v => if u16 p o = 0 then v else u16 p o
  { e with
    codec := u8 p 0, profile := u8 p 1, spatial := u8 p 2, temporal := u8 p 3, source := BitVec.ofNat 32 (u32 p 4)
    w := u16 p 8, h := u16 p 10, fpsDiv := u8 p 12, eflags := u8 p 13, irPeriod := u16 p 14
    target := [u32 p 16, u32 p 20, u32 p 24], hardCap := d 28 250, keyCap := d 30 1000, bufMs := d 32 500, keyGap := d 34 500
    switchMs := d 36 1000, payload := d 38 1200 }

def encUnsupported (d : Nat) : Err := ⟨St.ENC_UNSUPPORTED, d⟩

/-- A layer's key-picture cap at an empty buffer is at least its floor_total (R277). -/
def keyCapOk (e : Enc) (srcFps l : Nat) : Bool :=
  let f := e.floorTotal l true
  decide ((f : Rat) ≤ min ((e.keyCap : Rat) * e.base srcFps l 0 / 100) (e.bufBytes l))

/-- The checks of R270–R277 and Table 12-10 on a block. -/
def encBad (s : State) (p : List Byte) : Option Err :=
  let e := encWith {} p
  let n := e.spatial
  let range := fun lo hi x => decide (lo ≤ x) && decide (x ≤ hi)
  let size := fun hi x => range 64 hi x && x % 2 ^ n == 0 && decide (64 ≤ x / 2 ^ (n - 1))
  let tgt := fun k => if k < n then range 16 200000 (e.kbps k) else e.kbps k == 0
  firstBad
    [ (e.codec == 0 || e.codec == 2, encUnsupported 1)
    , (decide (e.profile ≤ if e.codec = 0 then 1 else 0), encUnsupported 1)
    , (range 1 3 n, badParam 2), (range 1 3 e.temporal, badParam 3)
    , (paramHandle s [6, 7] (u32 p 4), badParam 4)
    , (size 4096 e.w && size 2304 e.h, encUnsupported 2)
    , (e.fpsDiv == 1 || e.fpsDiv == 2 || e.fpsDiv == 4, badParam 12)
    , (decide (e.eflags < 16), badParam 13)
    , (!bit e.eflags 0 || e.codec == 2, encUnsupported 4)
    , (e.codec != 0 || n == 1 || e.simulcast, encUnsupported 6)
    , (if e.ir then range 8 255 e.irPeriod else e.irPeriod == 0, badParam 14)
    , (tgt 0, badParam 16), (tgt 1, badParam 20), (tgt 2, badParam 24)
    , (range 100 1000 e.hardCap, badParam 28), (range 100 4000 e.keyCap, badParam 30), (range 100 2000 e.bufMs, badParam 32)
    , (range 100 10000 e.keyGap, badParam 34), (range 200 10000 e.switchMs, badParam 36), (range 500 1400 e.payload, badParam 38)
    , (decide (encCharge s e ≤ engineCap s 20 24), encUnsupported 3)
    , ((List.range n).all (keyCapOk e (encSrcFps s e.source)), encUnsupported 5) ]

/-! ### Placement (R269) -/

def venPlaced (s : State) : List Placed := s.video.encs.map fun e => ⟨e.1, e.2.engine, encCharge s e.2⟩

def placeEnc (i load : Nat) (s : State) : State :=
  let (l, s) := placeUser (enginesIn s 0x10 .inService) (engineCap s 20 24) 64
    ((venPlaced s).filter (fun p => p.user != i)) i load s
  l.foldl (fun s p => modEnc p.user (fun e => { e with engine := p.engine }) s) s

/-- The window counters of a stream. -/
def venCounters : List Nat :=
  [R.VEN_W_PICTURES, R.VEN_W_KEY_PICTURES, R.VEN_W_FLOOR_PICTURES, R.VEN_W_FLOOR_ROWS, R.VEN_W_REPEATS, R.VEN_W_KEY_REQUESTS
  , R.VEN_W_BYTES, R.VEN_W_ENCODE_MAX, R.VEN_W_LATE]

/-- ENC_CREATE (R269–R277). -/
def encCreatePlan (c : Cmd) (s : State) : Plan :=
  let i := newIndex s.video.encs c.handle 0 1536
  let e := encWith {} c.params
  { op := 0x0801, handleOk := handleNew 8 c.handle, touches := [c.handle]
    state := notFree 0x0801 s.video.encs c.handle
    len := some 48
    param := encBad s c.params
    res := match i with
      | none => some (noResource 11)
      | some i => admitChange s { s with video.encs := Tbl.put s.video.encs i e } false
    run := fun s => match i with
      | none => .ok s
      | some i =>
        let s := placeEnc i (encCharge s e) (clearWindow venCounters i { s with
          video.encs := Tbl.put s.video.encs i e
          video.encOut := s.video.encOut.filter (fun x => x.1 / 4 != i) })
        .okWith s (chargeResult (encH i) (encCharge s e) (encOf s i).engine) }

/-- ENC_CREATE (R273). -/
def execEncCreate (c : Cmd) (s : State) : Out := .next (hostCmd 0x0801 encCreatePlan c s)

/-! ### Key-picture requests (R278, R279) -/

/-- A request for a key picture, or, with IR, for a wave, in the spatial layers named. `cause`: 1 receiver, 2 floored key
picture. -/
def requestEncKey (i : Nat) (layers : List Nat) (cause : Nat) (s : State) : State :=
  let s := bump (winKey R.VEN_W_KEY_REQUESTS i) s
  modEnc i (fun e =>
    if e.ir then { e with waveWant := true, waveCause := if e.waveWant then e.waveCause else cause }
    else { e with keyWant := e.keyWant ++ layers.filter (fun l => !e.keyWant.contains l)
                  keyCause := if e.keyWant = [] ∧ ¬ e.force then cause else e.keyCause }) s

/-- A key picture of every layer at the next picture, whatever the gap: ENC_KEY_PICTURE (0) or a structure change (3). -/
def forceKey (i cause : Nat) (s : State) : State :=
  let s := bump (winKey R.VEN_W_KEY_REQUESTS i) s
  modEnc i (fun e => { e with force := true, keyCause := if e.keyWant = [] ∧ ¬ e.force then cause else e.keyCause }) s

/-! ### ENC_MODIFY -/

/-- Whether a modification changes the structure (Table 12-3). -/
def newStructure (old e : Enc) : Bool :=
  old.w != e.w || old.h != e.h || old.spatial != e.spatial || old.temporal != e.temporal || old.fpsDiv != e.fpsDiv
    || bit old.eflags 0 != bit e.eflags 0 || bit old.eflags 1 != bit e.eflags 1

/-- The modified stream takes effect. -/
def applyEnc (i : Nat) (e : Enc) (s : State) : State :=
  let old := encOf s i
  let s := modEnc i (fun _ => e) s
  let s := if encCharge s e = encCharge s old then s
    else if hasRoom ((venPlaced s).filter (fun p => p.user != i)) (engineCap s 20 24) 64 (encCharge s e) old.engine then s
    else placeEnc i (encCharge s e) s
  if newStructure old e then
    let s := modEnc i (fun e => { e with pos := 0, wave := 0, waveWant := false, swWant := [false, false, false]
                                         overrun := [0, 0, 0], fullness := [0, 0, 0] }) s
    if old.state = .encoding then forceKey i 3 s else s
  else s

/-- ENC_MODIFY (R273). -/
def encModifyPlan (c : Cmd) (s : State) : Plan :=
  let i := hIdx c.handle
  let old := encOf s i
  let b := maskTo 48 (encBytes old) c.params (u64 c.params 48)
  let e := encWith old b
  { op := 0x0802, handleOk := handleIn s [8] c.handle, touches := [c.handle]
    state := if old.state = .deleting then some (wrongState (Config.detail 0x0802 0))
      else if e.codec ≠ old.codec ∨ e.profile ≠ old.profile ∨ e.source ≠ old.source then some (wrongState 2) else none
    len := some 56
    param := encBad s b
    res := admitChange s { s with video.encs := Tbl.modify s.video.encs i (fun _ => e) } false
    run := fun s => .ok (applyEnc i e s) }
def execEncModify (c : Cmd) (s : State) : Out := .next (hostCmd 0x0802 encModifyPlan c s)

/-! ### ENC_KEY_PICTURE, ENC_DELETE -/

/-- ENC_KEY_PICTURE: served at the next picture, answered when it is coded (R278–R280). -/
def encKeyPlan (c : Cmd) (s : State) : Plan :=
  let i := hIdx c.handle
  let e := encOf s i
  let mode := u8 c.params 0
  let layer := u8 c.params 1
  { op := 0x0803, handleOk := handleIn s [8] c.handle, touches := [c.handle]
    state := if e.state = .deleting then some (wrongState (Config.detail 0x0803 0)) else none
    param := firstBad
      [ (mode == 0 || (mode == 1 && e.ir) || (mode == 2 && !e.simulcast), badParam 0)
      , (mode != 2 || (decide (1 ≤ layer) && decide (layer < e.spatial)), badParam 1) ]
    run := fun s =>
      let s := modEnc i (fun e => { e with waiters := e.waiters ++ [(c.rs, c.tag, mode, layer)] }) s
      .defer (match mode with
        | 0 => forceKey i 0 s
        | 1 => modEnc i (fun e => { e with waveWant := true, waveCause := if e.waveWant then e.waveCause else 0 })
                 (bump (winKey R.VEN_W_KEY_REQUESTS i) s)
        | _ => bump (winKey R.VEN_W_KEY_REQUESTS i) s) }
def execEncKeyPicture (c : Cmd) (s : State) : Out := .next (hostCmd 0x0803 encKeyPlan c s)

/-- A forward entry names the stream. -/
def encForwarded (s : State) (i : Nat) : Bool :=
  s.video.fwd.any fun f => f.2.entries.any fun e => (e.2.kind == 3 && e.2.source == (encH i).toNat) || e.2.src == some (.enc i)

/-- A stream returns to FREE. -/
def freeEnc (i : Nat) (s : State) : State :=
  let e := encOf s i
  let s := leaveLeases (encH i) { s with
    video.encs := Tbl.del s.video.encs i, video.encOut := s.video.encOut.filter (fun x => x.1 / 4 != i) }
  let s := finishAll (e.waiters.map fun w => (w.1, w.2.1)) St.ABORTED 0 0 s
  match e.deleter with
  | some (rs, tag) => finishRunning rs tag St.OK 0 1 [] s
  | none => s

/-- ENC_DELETE (R273): answered when the current picture is committed. -/
def encDeletePlan (c : Cmd) (s : State) : Plan :=
  let i := hIdx c.handle
  { op := 0x0804, handleOk := handleIn s [8] c.handle, touches := [c.handle]
    state := if (encOf s i).state = .deleting then some (wrongState (Config.detail 0x0804 0))
      else if encForwarded s i then some (wrongState 1) else none
    run := fun s =>
      let s' := modEnc i (fun e => { e with state := .deleting, queue := e.queue.take 1, deleter := some (c.rs, c.tag) }) s
      .defer (if (encOf s i).queue = [] then freeEnc i s' else s') }
def execEncDelete (c : Cmd) (s : State) : Out := .next (hostCmd 0x0804 encDeletePlan c s)

/-! ### ENCODE_PICTURE -/

/-- The bytes that a layer's buffer has drained by `ns`. -/
def drained (e : Enc) (l ns : Nat) : Rat := max 0 (e.fullness.getD l 0 - ((e.kbps l * 125 * (ns - e.fullNs) : Nat) : Rat) / 1000000000)

/-- Whether the key gap has passed at an instant (R278). -/
def gapOver (e : Enc) (instant : Nat) : Bool :=
  match e.keyNs with
  | some k => decide (k + msNs e.keyGap ≤ instant)
  | none => true

/-- The spatial layers that take a key picture. -/
def keyLayers (e : Enc) (first : Bool) (instant : Nat) : List Nat :=
  let all_ := List.range e.spatial
  if first || e.force then all_
  else if e.keyWant ≠ [] ∧ gapOver e instant then (if e.simulcast then all_.filter e.keyWant.contains else all_)
  else []

/-- A command waits for a wave, or for a switch point of layer `l`. -/
def asked (e : Enc) (mode l : Nat) : Bool := e.waiters.any fun w => w.2.2.1 == mode && (mode != 2 || w.2.2.2 == l)

/-- Whether spatial layer `l` takes a switch point in a T0 picture (R280). -/
def switchDue (e : Enc) (l instant : Nat) : Bool :=
  !e.simulcast && decide (1 ≤ l) && decide (l < e.spatial)
    && (decide (e.swNs.getD l 0 + msNs e.switchMs ≤ instant) || (e.swWant.getD l false && gapOver e instant) || asked e 2 l)

/-- ENC_KEY. -/
def encKeyEvent (i cause wave frame : Nat) (s : State) : State :=
  raiseUnless R.VEN_EVENT_MASK 1 Ev.ENC_KEY (encH i) (leN cause 1 ++ leN wave 1 ++ leN 0 2 ++ leN frame 4) s

/-- ENC_FLOOR, at most once per stream in FLOOR_EVENT_S (R276). -/
def encFloorEvent (i l rows frame : Nat) (d : RowsDone) (excess : Nat) (s : State) : State :=
  let hushed := match (encOf s i).floorAt with
    | some a => decide (s.clock.cycles < a + msCycles (1000 * rgBits s R.VEN_CTRL 7 0))
    | none => false
  if hushed then s
  else raiseUnless R.VEN_EVENT_MASK 0 Ev.ENC_FLOOR (encH i)
    (leN l 1 ++ leN (d.first.getD 0) 1 ++ leN d.count 1 ++ leN rows 1 ++ leN frame 4 ++ leN excess 4)
    (modEnc i (fun e => { e with floorAt := some s.clock.cycles }) s)

/-- The packets of a coded picture join the pacing queues of the legs whose entries take its layer (R293). -/
def paceLayer (i l t bytes eligible : Nat) (s : State) : State :=
  let e := encOf s i
  let n := max 1 e.payload
  let sizes := List.replicate (bytes / n) n ++ (if bytes % n = 0 then [] else [bytes % n])
  { s with video.fwd := Tbl.each s.video.fwd (fun _ f => { f with
      queue := f.queue ++ f.entries.flatMap (fun x =>
        match x.2.src, x.2.current with
        | some (.enc k), some c =>
          if k == i && decide (t ≤ c.t) && (if e.simulcast then c.s == l else decide (l ≤ c.s)) then
            sizes.map fun b => { entry := x.1, bytes := b, eligible }
          else []
        | _, _ => []) }) }

/-- The rounding of a byte count that is not whole (VEN_W_OVERRUN). -/
def ratFloor (q : Rat) : Nat := (q.num / q.den).toNat

/-- One spatial layer of a picture is coded (R275–R277). -/
def codeLayer (i t : Nat) (p : SrcPic) (repeat_ : Bool) (keys : List Nat) (points : List Nat) (facts : List (List (Nat × Nat × Nat)))
    (s : State) (l : Nat) : State :=
  let e := encOf s i
  let key := keys.contains l
  let rep := repeat_ && !key
  let t := if key then 0 else t
  let rows := e.rows l
  let floor := e.floorTotal l key
  let fl := drained e l p.instant
  let b := e.bufBytes l
  let base := e.base (encSrcFps s e.source) l t
  let target := pictureTarget base b fl (e.overrun.getD l 0) floor
  let cap := pictureCap (if key then e.keyCap else e.hardCap) base b fl floor
  let d : RowsDone :=
    if rep then { used := 64 + (List.range rows).foldl (fun a r => a + min ((facts.getD l []).getD r (0, 0, e.floorRow l false)).2.2 (e.floorRow l false)) 0 }
    else codeRows cap (e.floorRow l key) rows (facts.getD l []) rows { used := 64 }
  let excess : Rat := max 0 ((d.used : Rat) - target)
  let overflow := decide (cap = (floor : Rat)) && decide (b < fl + (d.used : Rat))
  let status := b2n key + 2 * b2n (decide (0 < d.count)) + 4 * b2n rep + 8 * b2n (points.contains l) + 16 * l + 64 * t
    + 256 * (d.first.getD 0 % 256) + 65536 * (d.count % 256) + 2 ^ 24 * (rows % 256)
  let s := modEnc i (fun e => { e with
    fullness := e.fullness.set l (fl + (d.used : Rat)), overrun := e.overrun.set l excess
    lastStatus := status, lastBytes := d.used, lastOver := ratFloor excess }) s
  let s := bump R.VEN_PICTURES (bump (winKey R.VEN_W_PICTURES i) (bumpBy R.VEN_BYTES d.used (bumpBy (winKey R.VEN_W_BYTES i) d.used s)))
  let s := if key then bump R.VEN_KEY_PICTURES (bump (winKey R.VEN_W_KEY_PICTURES i) s) else s
  let s := if rep then bump R.VEN_REPEATS (bump (winKey R.VEN_W_REPEATS i) s) else s
  let s := if 0 < d.count ∨ overflow then bump R.VEN_FLOOR_PICTURES (bump (winKey R.VEN_W_FLOOR_PICTURES i) s) else s
  let s := bumpBy (winKey R.VEN_W_FLOOR_ROWS i) d.count s
  let s := if 0 < d.count then encFloorEvent i l rows e.frame d (ratFloor excess) s else s
  let s := if key ∧ rows < 2 * d.count then requestEncKey i [l] 2 s else s
  let s := { s with video.encOut := Tbl.upd s.video.encOut (4 * i + l) {} (fun v => { v with
    pkts := v.pkts.filter (fun k => decide (nowNs s < k.1 + 500000000)) ++ [(nowNs s, l, t, d.used)]
    size := e.layerW l * e.layerH l, picNs := nowNs s }) }
  paceLayer i l t d.used (p.deadline + max 40000000 (encPeriod s e)) s

/-- The commands that a picture serves are answered with its frame number. -/
def serveWaiters (i frame : Nat) (served : Nat × Nat → Bool) (s : State) : State :=
  let w := (encOf s i).waiters.filter fun w => served (w.2.2.1, w.2.2.2)
  w.foldl (fun s x => finishRunning x.1 x.2.1 St.OK 0 1 (leN frame 4 ++ leN 0 4) s)
    (modEnc i (fun e => { e with waiters := e.waiters.filter fun w => !served (w.2.2.1, w.2.2.2) }) s)

/-- One picture of an encode stream (R275–R280). -/
def encodeOne (i : Nat) (p : SrcPic) (facts : List (List (Nat × Nat × Nat))) (s : State) : State :=
  let e := encOf s i
  let first := e.state == .waitSource
  let keys := keyLayers e first p.instant
  let cause := if first then 4 else e.keyCause
  let t := temporalAt e.temporal e.pos
  let all_ := keys.length == e.spatial
  -- a wave starts where one is asked for and none runs; a key picture of every layer stands for it
  let starts := e.wave == 0 && e.ir && keys == [] && e.waveWant && (gapOver e p.instant || asked e 1 0)
  let wave := if all_ then 0 else if starts then e.irPeriod else e.wave
  let waveEnds := wave == 1
  let points := (List.range e.spatial).filter fun l =>
    !keys.contains l && (waveEnds || (t == 0 && switchDue e l p.instant))
  let repeat_ := e.repeats p
  let s := (List.range e.spatial).foldl (codeLayer i t p repeat_ keys points facts) (modEnc i (fun e => { e with
    state := .encoding, keyWant := e.keyWant.filter (fun l => !keys.contains l), force := false
    waveWant := e.waveWant && !starts && !all_ }) s)
  let moved := keys ++ points
  let s := modEnc i (fun e => { e with
    fullNs := p.instant, pos := e.pos + 1, frame := e.frame + 1, wave := wave - 1
    keyNs := if keys = [] then e.keyNs else some p.instant
    swNs := (numbered e.swNs).map fun x => if moved.contains x.1 then p.instant else x.2
    swWant := (numbered e.swWant).map fun x => x.2 && !moved.contains x.1 }) s
  let s := if keys ≠ [] then encKeyEvent i cause 0 e.frame s else s
  let s := if starts then encKeyEvent i e.waveCause 1 e.frame s else s
  serveWaiters i e.frame (fun w => (w.1 == 0 && all_) || (w.1 == 1 && (starts || all_)) || (w.1 == 2 && moved.contains w.2)) s

/-- The stream that an engine serves next (R269). -/
def nextEncode (s : State) (engine : Nat) : Option Nat :=
  let dl : Nat → Nat := fun i => ((encOf s i).queue.head?.map SrcPic.deadline).getD 0
  firstBy (fun a b => decide (dl a < dl b) || (dl a == dl b && decide (a < b)))
    ((s.video.encs.filter fun e => e.2.engine == engine && e.2.queue != []).map Prod.fst)

/-- ENCODE_PICTURE (R275–R281). -/
def encodePicture (v : EncFacts) (s : State) : State :=
  match nextEncode s v.engine with
  | none => s
  | some i =>
    match (encOf s i).queue with
    | [] => s
    | p :: rest =>
      let s := tickToNs (p.instant + v.takesUs * 1000) s
      let gone := (encOf s i).state == .deleting
      let s := encodeOne i p v.rows (modEnc i (fun e => { e with queue := rest }) s)
      let late := decide (p.deadline + max 40000000 (encPeriod s (encOf s i)) < nowNs s)
      let s := if late then bump32 (winKey R.VEN_W_LATE i) s else s
      let s := trackMax (winKey R.VEN_W_ENCODE_MAX i) ((nowNs s - p.instant) / 1000) s
      if gone then freeEnc i s else s
def execEncodePicture (v : EncFacts) (s : State) : Out := .next (encodePicture v s)

/-! ### ENC_QUERY -/

/-- The top layer's buffer fullness in ms. -/
def fullMs (s : State) (e : Enc) : Nat :=
  let l := e.spatial - 1
  ratFloor (drained e l (nowNs s) * 8 / (max 1 (e.kbps l) : Nat))

/-- Word `n` of the window of an encode stream (Table 12-13). -/
def encWord (s : State) (i n : Nat) : Nat :=
  match Tbl.get? s.video.encs i with
  | none => 0
  | some e =>
    match n with
    | 0 => e.codec + 4 * b2n (bit e.eflags 0) + 8 * b2n e.simulcast + 16 * e.spatial + 64 * e.temporal + 256 * e.fpsDiv
        + 4096 * b2n (bit e.eflags 2) + 8192 * b2n e.ir + 65536 * e.engine
        + 2 ^ 24 * (match e.state with | .waitSource => 1 | .encoding => 2 | .deleting => 3)
    | 1 => e.source.toNat
    | 2 => e.w + 65536 * e.h
    | 3 => encSrcFps s e.source / max 1 e.fpsDiv
    | 4 => e.kbps 0
    | 5 => e.kbps 1
    | 6 => e.kbps 2
    | 7 => e.hardCap + 65536 * e.keyCap
    | 8 => e.keyGap + 65536 * e.switchMs
    | 9 => e.bufMs + 65536 * min 65535 (fullMs s e)
    | 10 => e.lastStatus
    | 11 => e.frame - 1
    | 12 => e.lastBytes % 2 ^ 24
    | 13 => b2n (e.force || e.keyWant != []) + 2 * b2n (e.wave != 0) + 4 * b2n (e.swWant.contains true || e.waiters.any (fun w => w.2.2.1 == 2))
        + 65536 * min 65535 ((e.keyNs.map fun k => (nowNs s - k) / 1000000).getD 0)
    | 28 => rgRaw s (winKey R.VEN_W_ENCODE_MAX i)
    | 29 => rgRaw s (winKey R.VEN_W_LATE i)
    | 30 => e.lastOver % 2 ^ 24
    | n => if n < 28 then ctrHalf s R.VEN_W_PICTURES i (R.VEN_W_CFG + 4 * n) else 0

/-- ENC_QUERY; its parameter length is not given (notes/assumptions/12.md). -/
def encQueryPlan (c : Cmd) (s : State) : Plan :=
  { Plan.query 0x0805 false (handleIn s [8] c.handle) 0 none fun s =>
      recordAnswer ((List.range 31).flatMap fun n => leN (encWord s (hIdx c.handle) n) 4)
    with len := none }
def execEncQuery (c : Cmd) (s : State) : Out := .next (hostCmd 0x0805 encQueryPlan c s)

end Sys2Proof.Machine
end

