-- ==== Sys2Proof/Machine/Blocks.lean ====
section
/-! DEFINITION. Machine/Blocks.lean: the block boundary: inputs, inserts, buses, individual outputs, talker
selection, parameter swaps and ticks (R177, R189–R205, R227). -/

namespace Sys2Proof.Machine

/-! ### Samples -/

/-- A block faded linearly to zero across its 48 samples (R205). -/
def fadeBlock (x : List Int) : List Int :=
  (List.range x.length).map fun k => x.getD k 0 * (48 - (k % 48 : Nat)) / 48

/-- A sample rounded to Q1.31 steps and saturated, and whether it saturated (R189 step 5). -/
def q31 (x : Rat) : Int × Bool :=
  let v := Config.mixRound x
  let w := clampI (-2147483648) 2147483647 v
  (w, v != w)

/-- A block in Q1.31, and how many samples saturated. -/
def q31Block (x : List Rat) : List Int × Nat :=
  let l := x.map q31
  (l.map Prod.fst, (l.filter Prod.snd).length)

/-- Sums of blocks. -/
def addBlocks (a b : List Rat) : List Rat := a.zipWith (· + ·) b
def zeroStereo : List Rat := List.replicate 96 0
def sumBlocks (l : List (List Rat)) : List Rat := l.foldl addBlocks zeroStereo

/-- The peak of a block. -/
def peakOf (x : List Int) : Nat := (x.map Int.natAbs).foldl max 0

/-! ### Leg inputs (R189 step 1, R205, R245) -/

/-- Whether a TDM leg's port repeats its last samples. -/
def portHolds (p : AspPort) : Bool := p.phase == .hold || p.phase == .relock

/-- Channels of a leg or bus, as an insert object counts them. -/
def legChannels (s : State) (i : Nat) : Nat := ((Tbl.get? s.legs i).map Leg.channels).getD 1

/-- A leg's block as it reaches the mixer before inserts: its samples and whether it is late. -/
def rawBlock (s : State) (inputs : List LegInput) (i : Nat) : List Int × Bool :=
  let n := 48 * legChannels s i
  let l : Leg := (Tbl.get? s.legs i).getD {}
  let p : AspPort := Tbl.getD s.asp.ports (hIdx l.attach) {}
  if l.type = 2 ∧ portHolds p then
    ((List.range l.channels).flatMap fun k => List.replicate 48 (Tbl.getD p.lastRx (l.attachChan + k) 0), false)
  else if l.type = 2 ∧ p.phase ≠ .running then (List.replicate n 0, false)
  else
    match inputs.find? (fun x => x.leg == i) with
    | none => (List.replicate n 0, false)
    | some x => if x.complete then ((x.samples ++ List.replicate n 0).take n, false)
        else (fadeBlock (((mixOf s i).block ++ List.replicate n 0).take n), true)

/-- A late input is counted and reported (R205): engine kind 0 VCA, 1 GRV, 2 ASP. -/
def noteLate (h : Word) (leg : Option Nat) (kind n : Nat) (s : State) : State :=
  let s := bump R.MIX_LATE_INPUT s
  let s := match leg with
    | some i => bump (winKey R.MIX_L_LATE i) s
    | none => s
  raise Ev.MIX_LATE_INPUT h (leN kind 1 ++ leN 0 7 ++ leN n 4) s

/-! ### Inserts (R227) -/

/-- The key of an insert's state. -/
def insKey (task kind num : Nat) : Nat := 32768 * task + (if kind = 1 then num else 16384 + num)

/-- Mono channels of an insert object. -/
def objChannels (s : State) (o : Nat × Nat) : Nat := if o.1 = 1 then legChannels s o.2 else 2

/-- 48 samples as the 192 bytes of an insert packet, and back. -/
def insBytes (x : List Int) : List Byte := x.flatMap fun v => leN (toTwos 32 v) 4
def insSamples (b : List Byte) : List Int := (List.range 48).map fun k => i32 b (4 * k)

/-- What a task has pushed for an object from the input of block `n`, if all of it is there. -/
def insOutput (s : State) (t : Task) (o : Nat × Nat) (n : Nat) : Option (List Int) :=
  let pk := t.insOut.filter fun p => p.meta_ == n % 2 ^ 32
  let before := ((t.objs.takeWhile (· != o)).map (objChannels s)).foldl (· + ·) 0
  let mine := (pk.drop before).take (objChannels s o)
  if mine.length = objChannels s o then some (mine.flatMap fun p => insSamples p.data) else none

/-- The handle, and the bus for DSP_BYPASS, of an insert object. -/
def objHandle (s : State) (o : Nat × Nat) : Word × Nat :=
  if o.1 = 1 then (legH o.2, 0)
  else match Tbl.get? s.audio.buses o.2 with
    | some b => (confH b.conf, b.num)
    | none => (0, 0)

/-- A block passes one insert in block `n`: the task's output of block n − 1 takes its place, or, faulted with
BYPASS_ON_FAULT, the input 48 samples late; a missing output is late. A new insert fades in. -/
def passInsert (o : Nat × Nat) (n xf : Nat) (x : List Int) (task : Nat) (s : State) : List Int × State :=
  match taskOf s task with
  | none => (x, s)
  | some t =>
    let key := insKey task o.1 o.2
    match Tbl.get? s.audio.inserts key with
    | none =>
      (x, { s with audio.inserts := Tbl.put s.audio.inserts key { last := x, out := x.map fun _ => 0, fade := ({} : Ramp).moveTo 1 xf 0 } })
    | some st =>
      let h := objHandle s o
      let r : List Int × State :=
        if t.state = .faulted ∧ bit t.tflags 1 then
          let s := bump R.GRV_BYPASS_BLOCKS s
          (st.last, if t.bypassed then s
            else raiseUnless R.GRV_EVENT_MASK 0 Ev.DSP_BYPASS (taskH task)
              (leN h.1.toNat 4 ++ leN h.2 1 ++ leN 0 3 ++ leN n 4) (modTask task (fun t => { t with bypassed := true }) s))
        else
          match insOutput s t o (n - 1) with
          | some y => (y, s)
          | none => (fadeBlock st.out, noteLate h.1 (if o.1 = 1 then some o.2 else none) 1 n s)
      let y := (List.range x.length).map fun k =>
        let g := st.fade.at_ (k % 48)
        if g = 1 then r.1.getD k 0 else (q31 (g * (r.1.getD k 0 : Rat) + (1 - g) * (x.getD k 0 : Rat))).1
      (y, { r.2 with audio.inserts := Tbl.put r.2.audio.inserts key { last := x, out := r.1, fade := st.fade.pass 48 } })

/-- A block passes the inserts of an object in bind order. -/
def passInserts (o : Nat × Nat) (n xf : Nat) (tasks : List Nat) (x : List Int) (s : State) : List Int × State :=
  tasks.foldl (fun (a : List Int × State) t => passInsert o n xf a.1 t a.2) (x, s)

/-- At the end of block `n` each insert task takes the blocks of its objects, one packet per mono channel, in bind
order, and outputs of earlier blocks go. -/
def pushInserts (n : Nat) (s : State) : State :=
  (s.dsp.tasks.filter (fun e => e.2.objs != [])).foldl (fun s e =>
    let pk := e.2.objs.flatMap fun o => match Tbl.get? s.audio.inserts (insKey e.1 o.1 o.2) with
      | some st => (List.range (objChannels s o)).map fun ch =>
          ({ meta_ := n % 2 ^ 32, data := insBytes ((st.last.drop (48 * ch)).take 48) } : InsPkt)
      | none => []
    updateReady e.1 (modTask e.1 (fun t => { t with
      insIn := if t.state = .bound then t.insIn ++ pk else t.insIn
      insOut := t.insOut.filter (fun p => p.meta_ == n % 2 ^ 32), block := n % 2 ^ 32 }) s)) s

/-- Insert state of tasks that no longer have the object goes. -/
def dropInserts (s : State) : State :=
  { s with audio.inserts := Tbl.sel s.audio.inserts fun k _ =>
      match taskOf s (k / 32768) with
      | some t => t.objs.contains (if k % 32768 < 16384 then (1, k % 16384) else (2, k % 16384))
      | none => false }

/-! ### Contributions and buses (R189–R191) -/

/-- A leg's block with its trim, its crossfade and, where `talk`, its part in the talker set, in stereo: a mono input goes
to both channels. -/
def legTerm (s : State) (eff : Tbl (List Int)) (talk : Bool) (i : Nat) : List Rat :=
  let m := mixOf s i
  let x := Tbl.getD eff i []
  let two := legChannels s i == 2
  (List.range 96).map fun k =>
    let j := k % 48
    ((x.getD (if two then k else j) 0 : Int) : Rat) * m.trimG.at_ j * m.fade.at_ j * (if talk then m.talk.at_ j else 1)

/-- A block at a ramped gain. -/
def atGain (g : Ramp) (x : List Rat) : List Rat := (List.range x.length).map fun k => x.getD k 0 * g.at_ (k % 48)

/-- Steps 3 and 4 of R189 on a sum: G, BUS_GAIN, the limiter from a reduction; the block and the reduction after it. -/
def shape (set : BusSet) (g busG : Ramp) (gr : Nat) (x : List Rat) : List Rat × Nat :=
  let y := atGain busG (atGain g x)
  if set.limitEn then (Config.limiter set.ceiling set.knee gr y, Config.limiterGr set.ceiling set.knee gr y) else (y, 0)

/-- The talkers of a conference's main bus whose contribution is not zero. -/
def liveTalkers (s : State) (c : Nat) : List Nat :=
  ((confOf s c).members ++ (confOf s c).leaving).filter fun i => (mixOf s i).talk.live && (mixOf s i).fade.live

/-- The contributions to a bus, without those of leg `excl`; a bus that feeds it is taken as formed in this block, or,
without the leg, from its own contributions at its own gains (R196). -/
def busTerms (s : State) (eff : Tbl (List Int)) (excl : Option Nat) : Nat → Nat → List (List Rat)
  | 0, _ => []
  | fuel + 1, b =>
    match Tbl.get? s.audio.buses b with
    | none => []
    | some bus =>
      if bus.num = 0 then
        ((liveTalkers s bus.conf).filter fun i => some i != excl).map (legTerm s eff true)
      else
        (bus.feeds.filter fun f => f.gain.live).flatMap fun f =>
          if f.kind = 1 then
            if some f.src = excl ∨ ¬ (mixOf s f.src).fade.live then [] else [atGain f.gain (legTerm s eff false f.src)]
          else
            let src := busOf s bus.conf f.src
            match Tbl.get? s.audio.buses src with
            | none => []
            | some sb =>
              match excl with
              | none => if sb.n = 0 then [] else [atGain f.gain (sb.block.map fun v => (v : Rat))]
              | some _ =>
                let t := busTerms s eff excl fuel src
                if t = [] then [] else [atGain f.gain (shape sb.active sb.g sb.busG sb.gr (sumBlocks t)).1]

/-- The goal of G for a count and a set (R190, SFLAGS.GAIN_AUTO). -/
def gGoal (set : BusSet) (n : Nat) : Rat := if set.gainAuto then Config.dbGain (-(attQ n : Int)) else 1

/-- A bus is formed (R189): n, G, the limiter, its inserts; saturated samples and reduction are counted. -/
def formBus (n : Nat) (eff : Tbl (List Int)) (b : Nat) (s : State) : State :=
  match Tbl.get? s.audio.buses b with
  | none => s
  | some bus =>
    let terms := busTerms s eff none 6 b
    let k := terms.length
    let g := if k = bus.n then bus.g else bus.g.moveTo (gGoal bus.active k) 384 0
    let r := shape bus.active g bus.busG bus.gr (sumBlocks terms)
    let q := q31Block r.1
    let xf := (confOf s bus.conf).crossfade
    let s := if r.2 = 0 then s else bump R.MIX_LIMIT_ACTIVE s
    let s := bumpBy R.MIX_CLIP q.2 (bumpBy (winKey R.MIX_B_CLIP b) q.2 s)
    let s := bump (R.MIX_J_BLOCKS + 0x20 * (Config.mixJunction b % 4)) s
    let y := passInserts (2, b) n xf (Tbl.getD s.dsp.busIns b []) q.1 s
    let s := modBus b (fun x => { x with n := k, gQ := attQ k, g, gr := r.2, block := y.1, peak := Config.dbOf (peakOf y.1) }) y.2
    if q.2 = 0 then s
    else
      let quiet := match bus.clipAt with
        | some t => decide (s.clock.cycles < t + msCycles 1000)
        | none => false
      if quiet then modBus b (fun x => { x with clipN := x.clipN + q.2 }) s
      else
        raiseUnless R.MIX_EVENT_MASK 1 Ev.MIX_CLIP (confH bus.conf) (leN bus.num 2 ++ leN 0 2 ++ leN (bus.clipN + q.2) 4)
          (modBus b (fun x => { x with clipN := 0, clipAt := some s.clock.cycles }) s)

/-- The depth of a bus in its conference's feeds, those that fade out included. -/
def busDepth (s : State) : Nat → Nat → Nat
  | 0, _ => 0
  | fuel + 1, b =>
    match Tbl.get? s.audio.buses b with
    | none => 0
    | some bus => ((bus.feeds.filter fun f => f.kind == 0).map fun f => 1 + busDepth s fuel (busOf s bus.conf f.src)).foldl max 0

/-- Every bus is formed, those that feed others first (R201). -/
def formBuses (n : Nat) (eff : Tbl (List Int)) (s : State) : State :=
  [0, 1, 2, 3, 4, 5].foldl (fun s d =>
    ((Tbl.keys s.audio.buses).filter fun b => min 5 (busDepth s 6 b) == d).foldl (fun s b => formBus n eff b s) s) s

/-! ### Individual outputs (R196–R199) -/

/-- Whether a member is sent an individual output in this block (Table 8-4). -/
def wantsOutput (s : State) (i : Nat) : Bool :=
  match Tbl.get? s.legs i with
  | none => false
  | some l =>
    l.role != 2 && if l.coded then (mixOf s i).phase != .none && (mixOf s i).phase != .pending else l.state == .active

/-- A bus's block as rationals; a bus that has formed none is silent. -/
def busSignal (s : State) (b : Nat) : List Rat :=
  match (Tbl.get? s.audio.buses b).map Bus.block with
  | some x => if x = [] then zeroStereo else x.map fun v => (v : Rat)
  | none => zeroStereo

/-- `a` and `b` mixed by a ramp: all `a` at 0, all `b` at 1. -/
def blend (r : Ramp) (a b : List Rat) : List Rat :=
  (List.range a.length).map fun k => let x := r.at_ (k % 48); a.getD k 0 * (1 - x) + b.getD k 0 * x

/-- A stereo block for a receiver of one or two channels. -/
def toChannels (two : Bool) (x : List Rat) : List Rat :=
  if two then x else (List.range 48).map fun j => (x.getD j 0 + x.getD (48 + j) 0) / 2

/-- A member's individual output is formed, with its own gain state and limiter. -/
def formOutput (eff : Tbl (List Int)) (c i : Nat) (s : State) : State :=
  let m := mixOf s i
  let b := busOf s c m.bus
  match Tbl.get? s.audio.buses b with
  | none => s
  | some bus =>
    let terms := busTerms s eff (some i) 6 b
    let k := terms.length
    let goal := gGoal bus.active k
    let g : Ramp := if m.oQ = 0 then { cur := goal, goal } else if m.oQ = k + 1 then m.oG else m.oG.moveTo goal 384 0
    let r := shape bus.active g bus.busG m.oGr (sumBlocks terms)
    let out := match m.phase with
      | .entering => blend m.cross (busSignal s b) r.1
      | .leaving => blend m.cross (busSignal s b) r.1
      | .crossing =>
        let from_ := match (m.cls.bind fun k => Tbl.get? (confOf s c).classes k) with
          | some x => busOf s c x.bus
          | none => b
        blend m.cross (busSignal s from_) (busSignal s b)
      | _ => r.1
    let q := q31Block (toChannels (legChannels s i == 2) out)
    let s := bumpBy R.MIX_CLIP q.2 (modMix i (fun m => { m with oG := g, oQ := k + 1, oGr := r.2 }) s)
    { s with audio.outputs := Tbl.put s.audio.outputs i q.1 }

/-- Every individual output. -/
def formOutputs (eff : Tbl (List Int)) (s : State) : State :=
  s.confs.foldl (fun s e =>
    (e.2.members ++ e.2.leaving).foldl (fun s i =>
      if wantsOutput s i then formOutput eff e.1 i s
      else { modMix i (fun m => { m with oQ := 0 }) s with audio.outputs := Tbl.del s.audio.outputs i }) s) s

/-! ### After the mix -/

/-- A leg's samples, level and activity of block `n` are noted (R189 step 1, R192). -/
def noteInput (n : Nat) (inputs : List LegInput) (thresh : Int) (x : List Int) (i : Nat) (s : State) : State :=
  let lv := ((inputs.find? (fun q => q.leg == i)).map LegInput.level).getD (-3072)
  modMix i (fun m => { m with
    block := x, level := lv
    lastActive := if thresh ≤ lv then some n else m.lastActive
    lvlLow := if thresh ≤ lv then none else some (m.lvlLow.getD n) }) s

/-- The inputs of block `n`: each member's block, after its inserts. -/
def takeInputs (n : Nat) (inputs : List LegInput) (s : State) : Tbl (List Int) × State :=
  s.confs.foldl (fun (a : Tbl (List Int) × State) e =>
    (e.2.members ++ e.2.leaving).foldl (fun (a : Tbl (List Int) × State) i =>
      let s := a.2
      let r := rawBlock s inputs i
      let kind := if ((Tbl.get? s.legs i).map Leg.type) = some 2 then 2 else 0
      let s := if r.2 then noteLate (legH i) (some i) kind n s else s
      let s := noteInput n inputs e.2.thresh r.1 i s
      let y := passInserts (1, i) n e.2.crossfade (Tbl.getD s.dsp.legIns i []) r.1 s
      (Tbl.put a.1 i y.1, y.2)) a) ([], s)

/-- 48 samples pass on every ramp. -/
def passRamps (s : State) : State :=
  { s with
    audio.legs := Tbl.each s.audio.legs fun _ m => { m with
      trimG := m.trimG.pass 48, talk := m.talk.pass 48, fade := m.fade.pass 48, cross := m.cross.pass 48, oG := m.oG.pass 48 }
    audio.buses := Tbl.each s.audio.buses fun _ b => { b with
      g := b.g.pass 48, busG := b.busG.pass 48
      feeds := b.feeds.map fun f => { f with gain := f.gain.pass 48 }
      outs := b.outs.map fun o => { o with gain := o.gain.pass 48 } } }

/-- The moves that wait for a block boundary start; routes that have faded out go (R203). -/
def startRamps (s : State) : State :=
  { s with
    audio.legs := Tbl.each s.audio.legs fun _ m => { m with
      trimG := m.trimG.boundary, talk := m.talk.boundary, fade := m.fade.boundary }
    audio.buses := Tbl.each s.audio.buses fun _ b => { b with
      feeds := (b.feeds.filter fun f => !(f.gone && f.gain.dead)).map fun f => { f with gain := f.gain.boundary }
      outs := (b.outs.filter fun o => !(o.gone && o.gain.dead)).map fun o => { o with gain := o.gain.boundary } } }

/-- A bus's oldest shadow set becomes active at the start of block `n` (R204). -/
def swapBus (n b : Nat) (s : State) : State :=
  match Tbl.get? s.audio.buses b with
  | none => s
  | some bus =>
    match bus.shadows with
    | [] => s
    | w :: rest =>
      if n < w.at_.getD n then s
      else
        let s := modBus b (fun x => { x with
          shadows := rest, active := w.set
          busG := x.busG.moveTo (Config.dbGain w.set.gain) 384 0
          g := if w.set.gainAuto = x.active.gainAuto then x.g else x.g.moveTo (gGoal w.set x.n) 384 0 }) s
        let s := raiseUnless R.MIX_EVENT_MASK 2 Ev.MIX_PARAM_APPLIED (confH bus.conf)
          (leN bus.num 2 ++ leN 0 6 ++ leN n 4) (bump R.MIX_SWAPS s)
        finishRunning w.rs w.tag St.OK 0 1 [] s

/-- The swaps of every bus at the start of block `n`. -/
def swapBuses (n : Nat) (s : State) : State := (Tbl.keys s.audio.buses).foldl (fun s b => swapBus n b s) s

/-- Block tasks receive their tick for block `n`. -/
def tickTasks (n : Nat) (s : State) : State :=
  (s.dsp.tasks.filter (fun e => bit e.2.tflags 0)).foldl (fun s e =>
    updateReady e.1 (modTask e.1 (fun t => { t with tick := true, block := n % 2 ^ 32 }) s)) s

/-- Closing legs leave their conference (R14). -/
def closeLegs (s : State) : State :=
  (s.legs.filter (fun e => e.2.state == .closing && e.2.conf.isSome)).foldl (fun s e => legAdvance e.1 (leaveConf e.1 s)) s

/-- The mixer takes a block of each port's received audio (R241). -/
def takePorts (s : State) : State :=
  { s with asp.ports := Tbl.each s.asp.ports fun _ p => { p with unread := p.unread - p.lockRate / 1000 } }

/-- BLOCK_BOUNDARY (R177): block `n` has ended; it is mixed, and block n + 1 starts. -/
def blockBoundary (inputs : List LegInput) (s : State) : State :=
  let now := nowBlock s
  let mixed := now = 0 ∨ s.audio.lastBlock = some (now - 1)
  let s := if mixed then tickToNs ((now + 1) * 1000000) s else s
  let n := if mixed then now else now - 1
  let (eff, s) := takeInputs n inputs (closeLegs s)
  let s := formOutputs eff (formBuses n eff s)
  let s := pushInserts n s
  let s := bump R.MIX_BLOCKS (passRamps s)
  let s := selectAll n { s with audio.lastBlock := some n }
  let s := swapBuses (n + 1) (startRamps s)
  tickTasks (n + 1) (takePorts (dropInserts (forgetLeft s)))

/-- BLOCK_BOUNDARY (R177). -/
def execBlockBoundary (inputs : List LegInput) (s : State) : Out := .next (blockBoundary inputs s)

end Sys2Proof.Machine
end

