-- ==== Sys2Proof/Machine/Voice.lean ====
section
/-! DEFINITION. Machine/Voice.lean: class and individual encodes with their crossings (R195–R200), the jitter buffer
and the frames decoded or concealed from it (R182–R187). -/

namespace Sys2Proof.Machine

/-! ### Crossings (R197–R199) -/

/-- A leg's crossing is over: it is counted, its individual encode ends, and where it is in the talker set again it waits
to enter. -/
def endCrossing (c i n : Nat) (s : State) : State :=
  let again := (confOf s c).talkers.contains i
  let s := modMix i (fun m => { m with phase := if again then .pending else .none, starved := none, since := if again then n else m.since }) s
  bump R.MIX_CROSSINGS (modJit i (fun j => { j with encEngine := 0x7F }) s)

/-- What a member's last frame began ends at this crossing instant. -/
def finishCrossing (c n : Nat) (s : State) (i : Nat) : State :=
  let m := mixOf s i
  match m.phase with
  | .entering => bump R.MIX_CROSSINGS (modMix i (fun m => { m with phase := .talker }) s)
  | .leaving =>
    if m.talk.goal = 0 then
      let s := endCrossing c i n s
      match (mixOf s i).toClass, m.cls with
      | some k, some old =>
        if (mixOf s i).phase = .none then s
        else settleClass c old (modMix i (fun m => { m with cls := some k, toClass := none }) s)
      | _, _ => s
    else s
  | .crossing =>
    let s := modMix i (fun m => { m with cls := m.toClass <|> m.cls, toClass := none }) s
    let s := endCrossing c i n s
    match m.cls with
    | some old => settleClass c old s
    | none => s
  | .talker =>
    match m.toClass, m.cls with
    | some k, some old => settleClass c old (modMix i (fun m => { m with cls := some k, toClass := none }) s)
    | _, _ => s
  | _ => s

/-- A dropped talker's leaving frame starts (R198). -/
def startLeaving (c f w n : Nat) (s : State) (i : Nat) : State :=
  let m := mixOf s i
  if m.phase = .leaving ∧ m.talk.goal ≠ 0 then
    noteTalkers c 0xFFFF i (n + 1) (modMix i (fun m => { m with talk := m.talk.moveTo 0 f w, cross := m.cross.moveTo 0 f w }) s)
  else s

/-- A pending member enters where an individual encode is free (R197, R199). -/
def startEntering (c f w n : Nat) (s : State) (i : Nat) : State :=
  let m := mixOf s i
  if m.phase = .pending ∧ encodesRunning s c < (confOf s c).k then
    let weight := ((Tbl.get? s.legs i).map legWeight).getD 0
    let s := modMix i (fun m => { m with
      phase := .entering, starved := none, oQ := 0, talk := m.talk.moveTo 1 f w, cross := ({} : Ramp).moveTo 1 f w }) s
    let waited := match m.starved with
      | some b => nowBlock s - (b + 1)
      | none => 0
    let s := trackMax (winKey R.MIX_C_WAIT_MAX c) waited (placeEncode i weight s)
    noteTalkers c i 0xFFFF (n + 1) (bump (winKey R.MIX_L_ENTRIES i) s)
  else if m.phase = .pending then modMix i (fun m => { m with starved := some (m.starved.getD n) }) s
  else s

/-- A member that changes class crosses through one individual frame (R199). -/
def startMoving (c f w : Nat) (s : State) (i : Nat) : State :=
  let m := mixOf s i
  if m.phase = .none ∧ m.toClass.isSome ∧ encodesRunning s c < (confOf s c).k then
    placeEncode i (((Tbl.get? s.legs i).map legWeight).getD 0)
      (modMix i (fun m => { m with phase := .crossing, oQ := 0, cross := ({} : Ramp).moveTo 1 f w }) s)
  else s

/-- The members for which a class frame's boundary is the crossing instant. -/
def crossers (s : State) (c k : Nat) : List Nat :=
  ((confOf s c).members ++ (confOf s c).leaving).filter fun i => (mixOf s i).cls == some k

/-- A coded frame of a member leaves, where the leg is ACTIVE; its length is open. -/
def sendFrame (s : State) (i : Nat) : State :=
  if ((Tbl.get? s.legs i).map Leg.state) = some .active then
    let (v, s) := takeFree s
    (sendMedia i 0xFF (v % 2048) false s).2
  else s

/-- A class encode codes its next frame, at whose start its members cross (R195–R199). A class without members ends. -/
def classFrame (c k : Nat) (s : State) : State :=
  match Tbl.get? (confOf s c).classes k with
  | none => s
  | some m =>
    let s := tickToNs (sampleNs m.start) s
    if m.freeAt.isSome ∧ classUsers s c k = [] then modConf c (fun cf => { cf with classes := Tbl.del cf.classes k }) s
    else
      let f := frameSamples m.frame
      let w := untilSample s m.start
      let n := nowBlock s
      let s := modConf c (fun cf => { cf with classes := Tbl.modify cf.classes k (fun m => { m with start := m.start + f, freeAt := none }) }) s
      let here := crossers s c k
      let s := here.foldl (finishCrossing c n) s
      let here := crossers s c k
      let s := here.foldl (startLeaving c f w (n - 1)) s
      let waiting := sortBy (fun a b => decide ((mixOf s a).since < (mixOf s b).since)
        || ((mixOf s a).since == (mixOf s b).since && decide (a < b))) here
      let s := waiting.foldl (startEntering c f w (n - 1)) s
      let s := here.foldl (startMoving c f w) s
      let s := bump R.VCA_FRAMES_ENCODED s
      let listeners := (crossers s c k).filter fun i => (mixOf s i).phase == .none || (mixOf s i).phase == .pending
      listeners.foldl sendFrame s

/-- An individual encode codes a frame on its class's boundaries. -/
def memberFrame (c k i : Nat) (s : State) : State :=
  let m := mixOf s i
  let runs : Bool := match m.phase with
    | .entering | .talker | .leaving | .crossing => true
    | _ => false
  if ((confOf s c).members ++ (confOf s c).leaving).contains i ∧ m.cls = some k ∧ runs then
    sendFrame (bump R.VCA_FRAMES_ENCODED s) i
  else s

/-- VOICE_ENCODE_FRAME (R195): a frame of a class encode, or of a member's individual encode. -/
def execVoiceEncodeFrame (conf cls : Nat) (member : Option Nat) (s : State) : Out :=
  .next (match member with
    | none => classFrame conf cls s
    | some i => memberFrame conf cls i s)

/-! ### The jitter buffer (R182–R185) -/

/-- Samples at Fs of one RTP timestamp unit. -/
def rtpScale (l : Leg) : Nat := if l.codec = 1 ∨ l.codec = 2 ∨ l.codec = 3 then 6 else 1

/-- The sample at which a timestamp plays. -/
def Jitter.playAt (j : Jitter) (ts : Nat) : Int := (j.anchor : Int) + (ts : Int) - (j.anchorTs : Int)

/-- Samples before its first one at which a frame is released (R182, Table 8-6). -/
def releaseLead (l : Leg) : Nat := if l.type = 3 then 48 else 96

/-- A resynchronisation: the buffer is flushed, the output fades over 2 ms, the next packet anchors again (R185). -/
def resync (i cause : Nat) (s : State) : State :=
  let t := 48 * (jitOf s i).target
  let s := modJit i (fun j => { j with
    phase := .idle, pkts := [], released := [], played := [], lastSeq := none, earlyRun := 0, driftAt := none, conceal := 0
    lateness := [], resyncs := satAdd 32 j.resyncs 1 }) s
  let s := modMix i (fun m => { m with fade := m.fade.moveTo 0 96 0 }) s
  raiseUnless R.VCA_EVENT_MASK 0 Ev.JB_RESYNC (legH i) (leN cause 1 ++ leN 0 3 ++ leN t 2 ++ leN t 2) s

/-- A first packet anchors the buffer: its first sample plays at the block that lies the target after its arrival (R182). -/
def anchorJitter (i : Nat) (l : Leg) (p : JbPkt) (rtp : Nat) (s : State) : State :=
  let block := (nowNs s + (jitOf s i).target * 1000000 + 999999) / 1000000
  modJit i (fun j => { j with
    phase := .filling, pkts := [p], anchor := 48 * block, anchorTs := p.ts, nextTs := p.ts, lastSeq := some p.seq, lastTs := rtp
    depth := 48 * block - nowSample s, lateness := [(nowNs s, (nowNs s : Int) - (p.ts * 1000000 / 48 : Nat))], earlyRun := 0
    target := if l.type = 3 then l.jbMin else j.target }) s

/-- The timestamp nearest the last one whose low 32 bits are `ts`. -/
def unwrapTs (last ts : Nat) : Int := (last : Int) + signed 32 (ts + 2 ^ 32 - last % 2 ^ 32)

/-- Insert a packet by timestamp. -/
def insertPkt (p : JbPkt) : List JbPkt → List JbPkt
  | [] => [p]
  | q :: t => if p.ts < q.ts then p :: q :: t else q :: insertPkt p t

/-- A decrypted audio packet of an ACTIVE leg reaches its jitter buffer (R166, R182, R184). -/
def jbArrive (i iface cells seq ts : Nat) (s : State) : State :=
  match Tbl.get? s.legs i with
  | none => s
  | some l =>
    let s := modJit i (fun j => { j with received := satAdd 64 j.received 1 }) s
    let j := jitOf s i
    let k := rtpScale l
    match j.lastSeq with
    | none => anchorJitter i l { seq, ts := (2 ^ 32 + ts) * k, iface, cells } (2 ^ 32 + ts) s
    | some last =>
      let u := unwrapTs j.lastTs ts
      let t := u.toNat * k
      if (signed 16 (seq + 65536 - last)).natAbs > 1000 then resync i 2 s
      else if (u - j.lastTs).natAbs * k > 48000 then resync i 1 s
      else if j.played.contains seq || (j.pkts ++ j.released).any (fun p => p.seq == seq) then
        modJit i (fun j => { j with dup := satAdd 64 j.dup 1 }) s
      else if t < j.nextTs then bump R.VCA_LATE (modJit i (fun j => { j with late := satAdd 64 j.late 1 }) s)
      else if j.playAt t - (nowSample s : Int) > 48 * l.jbMax then
        let s := modJit i (fun j => { j with early := satAdd 64 j.early 1, earlyRun := j.earlyRun + 1 }) s
        if 8 ≤ (jitOf s i).earlyRun then resync i 0 s else s
      else
        modJit i (fun j => { j with
          pkts := insertPkt { seq, ts := t, iface, cells } j.pkts, earlyRun := 0
          lastSeq := if 0 < signed 16 (seq + 65536 - last) then some seq else j.lastSeq
          lastTs := max j.lastTs u.toNat
          lateness := (nowNs s, (nowNs s : Int) - (t * 1000000 / 48 : Nat))
            :: j.lateness.filter (fun e => decide (nowNs s < e.1 + 2000000000)) }) s

/-- JB_RELEASE (R182): the frame due next goes to its engine 2 blocks before its first sample. -/
def jbRelease (i : Nat) (s : State) : State :=
  match Tbl.get? s.legs i with
  | none => s
  | some l =>
    let j := jitOf s i
    if j.phase = .idle ∨ l.state ≠ .active ∨ j.released ≠ [] then s
    else
      let s := tickToNs (sampleNs ((j.playAt j.nextTs).toNat - releaseLead l)) s
      match j.pkts.find? (fun p => p.ts == j.nextTs) with
      | none => s
      | some p => modJit i (fun j => { j with
          pkts := j.pkts.filter (· != p), released := [p], played := (p.seq :: j.played).take 1024 }) s

/-- JB_RELEASE (R182). -/
def execJbRelease (leg : Nat) (s : State) : Out := .next (jbRelease leg s)

/-- Insert into a rising list of integers. -/
def insertInt (x : Int) : List Int → List Int
  | [] => [x]
  | y :: t => if x ≤ y then x :: y :: t else y :: insertInt x t

/-- The 95th percentile of a list less its minimum, by nearest rank. -/
def p95Spread (l : List Int) : Nat :=
  let r := l.foldr insertInt []
  (r.getD ((95 * r.length + 99) / 100 - 1) 0 - r.getD 0 0).toNat

/-- The target of R183 in ms. -/
def jbTarget (l : Leg) (j : Jitter) (now : Nat) : Nat :=
  let spread := p95Spread ((j.lateness.filter (fun e => decide (now < e.1 + 2000000000))).map Prod.snd)
  let want := (spread + 500000 * l.frame + 999999) / 1000000
  let want := min l.jbMax (max l.jbMin want)
  if j.target < want then want else max want (j.target - 1)

/-- The depth moves towards the target: by whole frames once the leg has been quiet for 200 ms, else by what the converter
slews, at most 5,000 ppm of 100 ms and open within that (R183, R188). -/
def followTarget (i : Nat) (l : Leg) (s : State) : State :=
  let j := jitOf s i
  let m := mixOf s i
  let goal := 48 * j.target
  let f := max 1 (frameSamples l.frame)
  let quiet := match m.lvlLow with
    | some b => decide (b + 200 ≤ s.audio.lastBlock.getD 0 + 1)
    | none => false
  let (v, s) := takeFree s
  let gap := if goal < j.depth then j.depth - goal else goal - j.depth
  let move := if quiet then gap / f * f else min gap (v % 25)
  if goal < j.depth then modJit i (fun j => { j with depth := j.depth - move, anchor := j.anchor - move }) s
  else modJit i (fun j => { j with depth := j.depth + move, anchor := j.anchor + move }) s

/-- JB_TARGET_RECOMPUTE (R183), with the sender's drift as the converter measures it (R188). -/
def jbTargetRecompute (i : Nat) (s : State) : State :=
  match Tbl.get? s.legs i with
  | none => s
  | some l =>
    let j := jitOf s i
    if ¬ l.coded ∨ j.phase = .idle then s
    else
      let s := followTarget i l (modJit i (fun j => { j with target := jbTarget l j (nowNs s) }) s)
      let (v, s) := takeFree s
      let d := signed 17 v
      let bad := decide (50000 < d.natAbs)
      let s := modJit i (fun j => { j with drift := d, driftAt := if bad then some (j.driftAt.getD s.clock.cycles) else none }) s
      match (jitOf s i).driftAt with
      | some t => if t + msCycles 2000 ≤ s.clock.cycles then resync i 3 s else s
      | none => s

/-- JB_TARGET_RECOMPUTE (R183). -/
def execJbTargetRecompute (leg : Nat) (s : State) : Out := .next (jbTargetRecompute leg s)

/-! ### Decoding and concealment (R179, R184, R186, R187) -/

/-- A frame of `n` samples has been produced. -/
def advanceFrame (i n : Nat) (s : State) : State :=
  modJit i (fun j => { j with nextTs := j.nextTs + n, released := [] }) s

/-- A frame is concealed; after CONCEAL_MAX_MS the leg fades out and stops being a candidate (R186). -/
def concealFrame (i : Nat) (l : Leg) (s : State) : State :=
  let s := bump R.VCA_CONCEALED (modJit i (fun j => { j with
    phase := .concealing, concealed := satAdd 64 j.concealed 1, conceal := j.conceal + l.frame }) s)
  let j := jitOf s i
  if j.longSaid ∨ j.conceal < 2 * rgBits s R.VCA_CTRL 7 0 then s
  else
    let s := modJit i (fun j => { j with longSaid := true }) s
    let s := modMix i (fun m => { m with dropped := true, fade := m.fade.nextTo 0 (48 * rgBits s R.VCA_CTRL 15 8) }) s
    raise Ev.VCA_CONCEAL_LONG (legH i) (leN 0 4 ++ leN (j.conceal / 2) 4) s

/-- A frame has been decoded: a run of concealment ends, and the contribution returns where it had faded. -/
def decodedFrame (i : Nat) (s : State) : State :=
  let s := bump R.VCA_FRAMES_DECODED (modJit i (fun j => { j with phase := .playing, conceal := 0, longSaid := false }) s)
  let s := modMix i (fun m => { m with dropped := false }) s
  let f := (mixOf s i).fade
  match Tbl.get? s.legs i with
  | some l =>
    let goal := fadeGoal s l (mixOf s i)
    if (f.next.map Prod.fst).getD f.goal = goal then s else refade i s
  | none => s

/-- A frame shorter than the leg's FRAME (R187): counted, and reported at most once per 10 s. -/
def noteMismatch (i : Nat) (l : Leg) (v : VoiceFrame) (s : State) : State :=
  let j := jitOf s i
  let s := modJit i (fun j => { j with mismatch := satAdd 32 j.mismatch 1 }) s
  let quiet := match j.mismatchAt with
    | some t => decide (s.clock.cycles < t + msCycles 10000)
    | none => false
  if quiet then s
  else
    raiseUnless R.VCA_EVENT_MASK 1 Ev.VCA_FRAME_MISMATCH (legH i) (leN l.frame 1 ++ leN v.length 1 ++ leN (b2n (!v.headroom)) 1)
      (modJit i (fun j => { j with mismatchAt := some s.clock.cycles }) s)

/-- Whether the gap before the next packet held is DTX: consecutive sequence numbers (Table 8-3). -/
def dtxGap (j : Jitter) : Bool :=
  match j.pkts, j.played with
  | p :: _, q :: _ => p.seq == (q + 1) % 65536
  | _, _ => false

/-- VOICE_DECODE_FRAME (R179, R184): the frame due is decoded, filled with comfort output, or concealed. -/
def voiceDecode (v : VoiceFrame) (s : State) : State :=
  let i := v.leg
  match Tbl.get? s.legs i with
  | none => s
  | some l =>
    let j := jitOf s i
    if l.state ≠ .active ∨ j.phase = .idle then s
    else
      match j.released with
      | _ :: _ =>
        if v.length < l.frame then
          let s := advanceFrame i (frameSamples v.length) (noteMismatch i l v s)
          if v.headroom then decodedFrame i s else concealFrame i l s
        else decodedFrame i (advanceFrame i (frameSamples v.length) s)
      | [] =>
        let s := advanceFrame i (frameSamples l.frame) s
        if v.dtx || dtxGap j then modJit i (fun j => { j with dtx := satAdd 64 j.dtx 1 }) s else concealFrame i l s

/-- VOICE_DECODE_FRAME (R179). -/
def execVoiceDecodeFrame (v : VoiceFrame) (s : State) : Out := .next (voiceDecode v s)

end Sys2Proof.Machine
end

