-- ==== Sys2Proof/Machine/Asp.lean ====
section
/-! DEFINITION. Machine/Asp.lean: the audio serial ports (R230–R247). -/

namespace Sys2Proof.Machine

def portAt (s : State) (n : Nat) : AspPort := Tbl.getD s.asp.ports n {}
def modAsp (n : Nat) (f : AspPort → AspPort) (s : State) : State := { s with asp.ports := Tbl.upd s.asp.ports n {} f }
def aspH (n : Nat) : Word := mkH 4 n

/-- A register of a port's block (Table 10-9). -/
def aspKey (r n : Nat) : Nat := r + 0x100 * n

/-- The transmit and master-clock edge domains of a port (R234). -/
def aspTxEdge (n : Nat) : Nat := 51 + 2 * n
def aspMclkEdge (n : Nat) : Nat := 86 + n

/-- The state number of ASP_P_STATUS. -/
def AspPhase.num : AspPhase → Nat
  | .disabled => 0
  | .idle => 1
  | .armed => 2
  | .running => 3
  | .hold => 4
  | .relock => 5

/-- The supported rates (R233). -/
def aspRates : List Nat := [8000, 16000, 24000, 32000, 44100, 48000, 88200, 96000]

/-- The TDM legs of a port. -/
def portLegs (s : State) (n : Nat) : List Nat := (s.legs.filter fun e => e.2.type == 2 && hIdx e.2.attach == n).map Prod.fst

/-- The contributions of a port's legs move to where they should stand (R203). -/
def refadePort (n : Nat) (s : State) : State := (portLegs s n).foldl (fun s i => refade i s) s

/-- Enabled slots of a set of masks, in ring order: line 0 in slot order, then line 1, and so on. -/
def onSlots (masks : List Nat) : List Nat := (List.range 128).filter (slotOn masks)

/-! ### ASP_CONFIG (Table 10-4, R236) -/

/-- The masks under a format: bits at or above SLOTS and lines at or above LINES are clear. -/
def cutMasks (lines slots : Nat) (m : List Nat) : List Nat :=
  (List.range 4).map fun l => if l < lines then m.getD l 0 % 2 ^ slots else 0

/-- ASP_CONFIG (R233, R236). -/
def aspConfigPlan (c : Cmd) (s : State) : Plan :=
  let p := c.params
  let n := hIdx c.handle
  let a := portAt s n
  let fmt : AspPort := { lines := u8 p 2, slots := u8 p 3 }
  let legsFit := (portLegs s n).all fun i => match Tbl.get? s.legs i with
    | some l => (List.range l.channels).all fun k => chanExists fmt (l.attachChan + k)
    | none => true
  let routesFit := s.audio.buses.all fun e => e.2.outs.all fun o =>
    o.gone || o.port != n || (List.range o.width).all fun k => chanExists fmt (o.channel + k)
  { op := 0x0401, handleOk := handleIn s [4] c.handle, touches := [c.handle]
    state := if a.phase ≠ .disabled ∧ a.phase ≠ .idle then some (wrongState 1)
      else if legsFit && (a.phase == .disabled || routesFit) then none else some (wrongState 2)
    len := some 16
    param := firstBad
      [ (decide (u8 p 0 ≤ 1), badParam 0), (decide (u8 p 1 ≤ 1), badParam 1)
      , (decide (1 ≤ u8 p 2) && decide (u8 p 2 ≤ 4), badParam 2)
      , (decide (1 ≤ u8 p 3) && decide (u8 p 3 ≤ 32) && decide (u32 p 8 * u8 p 3 * u8 p 4 ≤ 49152000), badParam 3)
      , ([16, 24, 32].contains (u8 p 4), badParam 4)
      , ([16, 20, 24, 32].contains (u8 p 5) && decide (u8 p 5 ≤ u8 p 4), badParam 5)
      , (decide (u8 p 6 ≤ 31), badParam 6), (decide (u8 p 7 < 16), badParam 7)
      , (aspRates.contains (u32 p 8), badParam 8)
      , (decide (1 ≤ u8 p 12) && decide (u8 p 12 ≤ 4), badParam 12)
      , (decide (u16 p 14 ≤ 1000), badParam 14) ]
    run := fun s => .ok (modAsp n (fun a =>
      let full := List.replicate 4 (2 ^ u8 p 3 - 1)
      { a with
        phase := .idle, mode := u8 p 0, format := u8 p 1, lines := u8 p 2, slots := u8 p 3, slotBits := u8 p 4
        sampleBits := u8 p 5, offset := u8 p 6, cflags := u8 p 7, rate := u32 p 8, mclkDiv := u8 p 12
        holdMs := if u16 p 14 = 0 then 10 else u16 p 14
        rxMask := cutMasks (u8 p 2) (u8 p 3) (if a.phase = .disabled then full else a.rxMask)
        txMask := cutMasks (u8 p 2) (u8 p 3) (if a.phase = .disabled then full else a.txMask) }) s) }

/-- ASP_CONFIG (R236). -/
def execAspConfig (c : Cmd) (s : State) : Out := .next (hostCmd 0x0401 aspConfigPlan c s)

/-! ### Starting (R237, R238) -/

/-- The first block that starts at or after an instant in ns. -/
def blockFrom (ns : Nat) : Nat := (ns + 999999) / 1000000

/-- ASP_START (R237): answered at the start, or once a slave runs. -/
def aspStartPlan (c : Cmd) (s : State) : Plan :=
  let n := hIdx c.handle
  let a := portAt s n
  { op := 0x0402, handleOk := handleIn s [4] c.handle, touches := [c.handle]
    state := if a.phase = .idle ∧ a.startAt = none then none else some (wrongState (Config.detail 0x0402 0))
    run := fun s =>
      let b := if Cmd.timed c then blockFrom (nearestNs s c.execAt.toNat).toNat else blockFrom (nowNs s + 100000)
      .defer (modAsp n (fun a => { a with startAt := some b, starter := some (c.rs, c.tag), trig := none }) s) }

/-- ASP_START (R237). -/
def execAspStart (c : Cmd) (s : State) : Out := .next (hostCmd 0x0402 aspStartPlan c s)

/-- The ports of a PORTS byte. -/
def portsOf (mask : Nat) : List Nat := (List.range 8).filter (bit mask)

/-- The trigger of the arm comes at an instant: every armed port takes the same start instant (R237). -/
def fireArm (ns : Nat) (s : State) : State :=
  match s.asp.arm with
  | none => s
  | some a =>
    if a.start.isSome then s
    else
      let b := blockFrom (ns + 100000)
      let t := BitVec.ofNat 64 (shortOf ns)
      let s := { s with asp.arm := some { a with start := some b, trig := t } }
      (portsOf a.ports).foldl (fun s n =>
        modAsp n (fun p => { p with startAt := some b, starter := some (a.rs, a.tag), trig := some t }) s) s

/-- An edge on TRIG_IN: stamped; a second edge before the start instant is ignored (R237). -/
def aspTrigIn (input edge : Nat) (s : State) : State :=
  match s.asp.arm with
  | some a =>
    if a.source = input ∧ a.edge = edge ∧ a.start = none then
      fireArm (nowNs s) (setRg R.ASP_TRIG_LAST (nowShort s).toNat s)
    else s
  | none => s

/-- ASP_TRIGGER_ARM (Table 10-5). -/
def aspArmPlan (c : Cmd) (s : State) : Plan :=
  let p := c.params
  let ports := portsOf (u8 p 0)
  let at_ := nearestNs s (u64 p 8)
  { op := 0x0405, handleOk := handleDev c.handle, touches := ports.map aspH
    state := if !ports.all (fun n => (portAt s n).phase == .idle && (portAt s n).startAt.isNone) then some (wrongState 3)
      else if s.asp.arm.isSome then some (wrongState 4) else none
    len := some 16
    param := firstBad
      [ (u8 p 0 != 0, badParam 0), (decide (u8 p 1 ≤ 4), badParam 1), (decide (u8 p 2 ≤ 1), badParam 2)
      , (u8 p 1 != 4 || decide ((nowNs s : Int) ≤ at_), ⟨St.TIME_PASSED, 0⟩) ]
    run := fun s =>
      let s := ports.foldl (fun s n => modAsp n (fun a => { a with phase := .armed }) s) s
      let s := { s with asp.arm := some { ports := u8 p 0, source := u8 p 1, edge := u8 p 2, rs := c.rs, tag := c.tag } }
      .defer (if u8 p 1 = 4 then fireArm at_.toNat s else s) }

/-- ASP_TRIGGER_ARM (R237). -/
def execAspTriggerArm (c : Cmd) (s : State) : Out := .next (hostCmd 0x0405 aspArmPlan c s)

/-- A port has started: the command that started it is answered once none of its other ports still waits (R238). -/
def portStarted (n : Nat) (s : State) : State :=
  let a := portAt s n
  match a.starter with
  | none => s
  | some (rs, tag) =>
    let s := modAsp n (fun a => { a with starter := none }) s
    if s.asp.ports.any (fun e => e.2.starter == some (rs, tag)) then s
    else
      finishRunning rs tag St.OK 0 1 (leN a.startBlock 4 ++ match a.trig with
        | some t => leN t.toNat 8 ++ leN 0 4
        | none => leN 0 4) s

/-- ASP_START_INSTANT (R238): the start instant of a port. -/
def aspStartInstant (n : Nat) (s : State) : State :=
  let a := portAt s n
  match a.startAt with
  | none => s
  | some b =>
    let s := tickToNs (b * 1000000) s
    let s := match a.trig with
      | some t => setRg R.ASP_TRIG_LAST t.toNat s
      | none => s
    let s := modAsp n (fun a => { a with
      phase := if a.mode = 1 then .running else .relock
      startAt := none, startBlock := b % 2 ^ 32, frame := 0, started := false, periods := [], unread := 0, faded := false
      lockRate := a.rate * 1000, lastStart := b * 1000000000, txFade := if a.mode = 1 then { cur := 1, goal := 1 } else {} }) s
    let s := { s with asp.arm := match s.asp.arm with
      | some m => if bit m.ports n then
          (if m.ports = 2 ^ n then none else some { m with ports := setBit m.ports n false }) else some m
      | none => none }
    let s := refadePort n (emit (.signal 0x0D n b) s)
    if a.mode = 1 then portStarted n s else s

/-- ASP_START_INSTANT (R238). -/
def execAspStartInstant (port : Nat) (s : State) : Out := .next (aspStartInstant port s)

/-- ASP_NO_CLOCK (R238): a slave that does not run 1 s after its start instant answers so, and keeps waiting. -/
def aspNoClock (n : Nat) (s : State) : State :=
  let a := portAt s n
  if a.phase ≠ .relock then s
  else
    match a.starter with
    | none => s
    | some (rs, tag) =>
      let s := tickToNs (a.lastStart / 1000000000 * 1000000 + 1000000000) s
      finishRunning rs tag St.ASP_NO_CLOCK n 0 [] (modAsp n (fun a => { a with starter := none }) s)

/-- ASP_NO_CLOCK (R238). -/
def execAspNoClock (port : Nat) (s : State) : Out := .next (aspNoClock port s)

/-! ### Stopping (R239) -/

/-- An armed port is disarmed; an arm without ports ends. -/
def disarm (n : Nat) (s : State) : State :=
  let s := modAsp n (fun a => { a with phase := .idle, startAt := none, starter := none }) s
  match s.asp.arm with
  | none => s
  | some m =>
    if m.ports = 2 ^ n then finishRunning m.rs m.tag St.ABORTED 0 0 [] { s with asp.arm := none }
    else { s with asp.arm := some { m with ports := setBit m.ports n false } }

/-- ASP_STOP (R239): an ARMED port stops at once, any other after its fade. -/
def aspStopPlan (c : Cmd) (s : State) : Plan :=
  let n := hIdx c.handle
  let a := portAt s n
  { op := 0x0403, handleOk := handleIn s [4] c.handle, touches := [c.handle]
    state := if a.phase = .disabled ∨ a.phase = .idle ∨ a.stopping.isSome then some (wrongState (Config.detail 0x0403 0)) else none
    run := fun s =>
      if a.phase = .armed then .okWith (disarm n s) (leN a.frame 4 ++ leN 0 4)
      else
        let s := match a.starter with
          | some (rs, tag) => finishRunning rs tag St.ABORTED 0 0 [] s
          | none => s
        .defer (refadePort n (modAsp n (fun a => { a with
          stopping := some (c.rs, c.tag, s.clock.cycles), starter := none, txFade := a.txFade.moveTo 0 (a.rate / 500) 0 }) s)) }

/-- ASP_STOP (R239). -/
def execAspStop (c : Cmd) (s : State) : Out := .next (hostCmd 0x0403 aspStopPlan c s)

/-- ASP_STOP_COMPLETE (R239): the end of the first frame after the fade. -/
def aspStopComplete (n : Nat) (s : State) : State :=
  let a := portAt s n
  match a.stopping with
  | none => s
  | some (rs, tag, at_) =>
    let s := tickTo (at_ + msCycles 2 + nsCycles (1000000000 / max 1 a.rate)) s
    let s := flushRelease (aspMclkEdge n) (flushRelease (aspTxEdge n) s)
    let s := modAsp n (fun a => { a with
      phase := .idle, stopping := none, faded := false, byPin := false, started := false, periods := [], unread := 0
      rxRing := [], txRing := [], lastRx := [], lastTx := [] }) s
    finishRunning rs tag St.OK 0 1 (leN a.frame 4 ++ leN 0 4) s

/-- ASP_STOP_COMPLETE (R239). -/
def execAspStopComplete (port : Nat) (s : State) : Out := .next (aspStopComplete port s)

/-! ### Slot masks (R242, R243) -/

/-- ASP_MASK_SET (Table 10-6): answered with the frame from which it applies. -/
def aspMaskPlan (c : Cmd) (s : State) : Plan :=
  let p := c.params
  let n := hIdx c.handle
  let a := portAt s n
  let tx := u8 p 0 == 1
  let masks := [u32 p 8, u32 p 12, u32 p 16, u32 p 20]
  { op := 0x0404, handleOk := handleIn s [4] c.handle, touches := [c.handle]
    state := if a.phase = .disabled then some (wrongState (Config.detail 0x0404 0)) else none
    len := some 24
    param := firstBad ((decide (u8 p 0 ≤ 1), badParam 0) :: (List.range 4).map fun l =>
      (if l < a.lines then decide (masks.getD l 0 < 2 ^ a.slots) else masks.getD l 0 == 0, badParam (8 + 4 * l)))
    run := fun s => .defer (modAsp n (fun a => { a with pendMask := a.pendMask ++ [{ tx, masks, rs := c.rs, tag := c.tag }] }) s) }

/-- ASP_MASK_SET (R242). -/
def execAspMaskSet (c : Cmd) (s : State) : Out := .next (hostCmd 0x0404 aspMaskPlan c s)

/-- Of the masks that wait for a direction, the latest takes effect at a frame start, and all are answered (R242). -/
def applyMask (n : Nat) (waiting : List MaskSet) (s : State) (tx : Bool) : State :=
  let mine := waiting.filter fun m => m.tx == tx
  match mine.getLast? with
  | none => s
  | some m =>
    let a := portAt s n
    let s := modAsp n (fun a => if tx then { a with txMask := m.masks } else { a with rxMask := m.masks }) s
    let s := bump (aspKey R.ASP_P_MASKS_APPLIED n) s
    let s := raiseUnless R.ASP_EVENT_MASK 0 Ev.ASP_MASK_APPLIED (aspH n)
      (leN (b2n tx) 1 ++ leN (onSlots m.masks).length 1 ++ leN 0 2 ++ leN a.frame 4) s
    refadePort n (finishAll (mine.map fun m => (m.rs, m.tag)) St.OK 0 1 s)

/-! ### Frames (R230, R231, R240–R244) -/

/-- A received sample in Q1.31 with the bits below SAMPLE_BITS zero (R231). -/
def rxSample (bits_ : Nat) (x : Int) : Int := x - x % (2 ^ (32 - bits_) : Nat)

/-- A transmitted sample rounded half-up to SAMPLE_BITS and saturated, left-justified (R231). -/
def txSample (bits_ : Nat) (x : Rat) : Int :=
  let u : Nat := 2 ^ (32 - bits_)
  clampI (-(2 ^ (bits_ - 1) : Nat)) ((2 ^ (bits_ - 1) : Nat) - 1) ((x / (u : Rat) + 1 / 2).floor) * u

/-- Whether a slot lies within the bits of a frame (Table 10-2). -/
def slotWithin (a : AspPort) (bits_ ch : Nat) : Bool := decide (a.offset + (ch % 32 + 1) * a.slotBits ≤ bits_)

/-- The words of a frame are written into a ring of 16,384 from a pointer on (R240). -/
def ringWrite (r : Tbl Int) (p : Nat) : List Int → Tbl Int
  | [] => r
  | x :: t => ringWrite (Tbl.put r (p % 16384) x) (p + 1) t

/-- The last samples of channels. -/
def putLast (t : Tbl Int) (chs : List Nat) (xs : List Int) : Tbl Int :=
  (chs.zip xs).foldl (fun t e => Tbl.put t e.1 e.2) t

/-- Whether a period lies outside ±12.5 % of the locked period. -/
def isGlitch (a : AspPort) (period : Nat) : Bool :=
  decide (period * a.lockRate * 8 < 7 * 10 ^ 15) || decide (9 * 10 ^ 15 < period * a.lockRate * 8)

/-- A transmit underrun (R241): counted with the edge domain's miss. -/
def aspUnderrun (n : Nat) (s : State) : State :=
  deadlineMiss (aspTxEdge n) 3 0 0 (nowNs s) (bump (aspKey R.ASP_P_UNDERRUN n) s)

/-- The receive half of a frame. -/
def frameIn (n : Nat) (f : AudioFrame) (s : State) : State :=
  let a := portAt s n
  let chs := onSlots a.rxMask
  let short := decide (f.bits < a.slots * a.slotBits + a.offset)
  let full := decide (2 * a.lockRate / 1000 ≤ a.unread)
  let held := a.phase == .relock || full
  let xs := (List.range chs.length).map fun k =>
    let ch := chs.getD k 0
    if held || (short && !slotWithin a f.bits ch) then Tbl.getD a.lastRx ch 0 else rxSample a.sampleBits (f.samples.getD k 0)
  let s := if short then bump (aspKey R.ASP_P_SHORT_FRAMES n) s else s
  let s := if full ∧ a.phase = .running then bump (aspKey R.ASP_P_OVERRUN n) s else s
  if full then s
  else
    bump (aspKey R.ASP_P_FRAMES_RX n) (modAsp n (fun a => { a with
      rxRing := ringWrite a.rxRing a.wptr xs, wptr := (a.wptr + xs.length) % 16384, lastRx := putLast a.lastRx chs xs
      unread := a.unread + 1000 }) s)

/-- The transmit half of a frame: zero in RELOCK, the last samples where the entry is late, else what the mixer placed. -/
def frameOut (n : Nat) (f : AudioFrame) (s : State) : State :=
  let a := portAt s n
  let chs := onSlots a.txMask
  let ys := (List.range chs.length).map fun k =>
    if a.phase = .relock then 0
    else if f.late then Tbl.getD a.lastTx (chs.getD k 0) 0
    else txSample a.sampleBits ((f.mixed.getD k 0 : Rat) * a.txFade.at_ 0)
  let lost := (chs.filter fun ch => Tbl.has a.pins (3 + ch / 32)).length
  let s := if f.late ∧ a.phase = .running then aspUnderrun n s else s
  let s := bumpBy (aspKey R.ASP_P_TX_LOST n) lost s
  bump (aspKey R.ASP_P_FRAMES_TX n) (modAsp n (fun a => { a with
    txRing := ringWrite a.txRing a.rptr ys, rptr := (a.rptr + ys.length) % 16384, lastTx := putLast a.lastTx chs ys
    txFade := a.txFade.pass 1 }) s)

/-- The period of a frame in ps: a master's from its rate, a slave's as measured. -/
def framePeriod (a : AspPort) (f : AudioFrame) : Nat := if a.mode = 1 then 1000000000000 / max 1 a.rate else f.period

/-- ASP_FRAME (R240): a frame starts; a slave's period is measured, a waiting mask applies, the frame is received and
transmitted. -/
def aspFrame (f : AudioFrame) (s : State) : State :=
  let n := f.port
  let a := portAt s n
  let live := a.phase == .running || a.phase == .hold || a.phase == .relock
  if 8 ≤ n ∨ ¬ live then s
  else
    let p := framePeriod a f
    let at_ := if a.started then a.lastStart + p else max a.lastStart (nowNs s * 1000)
    let s := tickToNs ((at_ + 999) / 1000) s
    let s := modAsp n (fun a => { a with
      lastStart := at_, started := true, periods := if a.started then (p :: a.periods).take 16 else a.periods
      startTime := if a.started then a.startTime else nowShort s }) s
    if a.phase = .hold then s
    else if a.mode = 0 ∧ a.started ∧ a.phase = .running ∧ isGlitch a p then
      bump R.ASP_GLITCH (bump (aspKey R.ASP_P_GLITCH n) s)
    else
      let s := [false, true].foldl (applyMask n (portAt s n).pendMask) s
      let s := frameOut n f (frameIn n f (modAsp n (fun a => { a with pendMask := [] }) s))
      modAsp n (fun a => { a with frame := (a.frame + 1) % 2 ^ 32 }) s

/-- ASP_FRAME (R240). -/
def execAspFrame (f : AudioFrame) (s : State) : Out := .next (aspFrame f s)

/-! ### Clock faults (R244, R245) -/

/-- HOLD entry with a cause: 0 clock absent, 1 a pin. -/
def enterHold (n cause : Nat) (s : State) : State :=
  let a := portAt s n
  let s := flushRelease (aspTxEdge n) s
  let s := modAsp n (fun a => { a with phase := .hold, holdAt := s.clock.cycles, byPin := cause == 1, faded := false, periods := [] }) s
  let s := bump R.ASP_CLOCK_LOST (bump (aspKey R.ASP_P_HOLDS n) s)
  raise Ev.ASP_CLOCK_LOST (aspH n)
    (leN cause 1 ++ leN 0 3 ++ leN a.frame 4 ++ leN (shortOf (a.lastStart / 1000)) 8) s

/-- ASP_CLOCK_LOST (R244): no frame start for 2 periods of the locked rate. -/
def aspClockLost (n : Nat) (s : State) : State :=
  let a := portAt s n
  if a.mode = 1 ∨ (a.phase ≠ .running ∧ a.phase ≠ .relock) ∨ ¬ a.started then s
  else enterHold n 0 (tickToNs ((a.lastStart + 2 * (10 ^ 15 / max 1 a.lockRate) + 999) / 1000) s)

/-- ASP_CLOCK_LOST (R244). -/
def execAspClockLost (port : Nat) (s : State) : Out := .next (if 8 ≤ port then s else aspClockLost port s)

/-- ASP_HOLD_FADE (R244): HOLD_MS ends; the received channels fade to zero over 2 ms. -/
def aspHoldFade (n : Nat) (s : State) : State :=
  let a := portAt s n
  if a.phase ≠ .hold ∨ a.faded then s
  else
    let s := tickTo (a.holdAt + msCycles a.holdMs) s
    let s := modAsp n (fun a => { a with faded := true }) s
    (portLegs s n).foldl (fun s i => modMix i (fun m => { m with fade := m.fade.moveTo 0 96 (untilSample s (nowSample s)) }) s) s

/-- ASP_HOLD_FADE (R244). -/
def execAspHoldFade (port : Nat) (s : State) : Out := .next (if 8 ≤ port then s else aspHoldFade port s)

/-- The measured rate in mHz of the last 16 periods. -/
def measRate (a : AspPort) : Nat :=
  let t := a.periods.foldl (· + ·) 0
  if t = 0 then 0 else 10 ^ 15 * a.periods.length / t

/-- Sixteen stable periods: each within ±0.1 % of their mean. -/
def stableClock (a : AspPort) : Bool :=
  let t := a.periods.foldl (· + ·) 0
  a.periods.length == 16 && a.periods.all fun p => decide (999 * t ≤ 16000 * p) && decide (16000 * p ≤ 1001 * t)

/-- The supported rate within ±1 % of a rate in mHz. -/
def nearRate (mhz : Nat) : Option Nat :=
  aspRates.find? fun r => decide (990 * r ≤ mhz) && decide (mhz ≤ 1010 * r)

/-- Whether a rate differs by more than 1 % from the locked one. -/
def rateDiffers (a : AspPort) (mhz : Nat) : Bool := decide (mhz * 100 < 99 * a.lockRate) || decide (101 * a.lockRate < mhz * 100)

/-- ASP_RATE_CHANGE (R244): 16 stable periods in HOLD, or at another rate than the locked one. -/
def aspRateChange (n : Nat) (s : State) : State :=
  let a := portAt s n
  let r := measRate a
  let told := fun (flag : Nat) (s : State) =>
    raise Ev.ASP_RATE_CHANGE (aspH n) (leN flag 1 ++ leN 0 3 ++ leN a.lockRate 4 ++ leN r 4) s
  if a.mode = 1 ∨ ¬ stableClock a then s
  else if a.phase = .hold then
    if (nearRate r).isNone then told 1 (modAsp n (fun a => { a with periods := [] }) s)
    else
      let s := raise Ev.ASP_CLOCK_RESTORED (aspH n) (leN 0 4 ++ leN r 4 ++ leN (cyclesMs (s.clock.cycles - a.holdAt)) 4) s
      let s := if rateDiffers a r then told 0 s else s
      bump (aspKey R.ASP_P_RELOCKS n) (modAsp n (fun a => { a with phase := .relock, lockRate := r }) s)
  else if a.phase = .running ∧ rateDiffers a r then
    if (nearRate r).isNone then told 1 (enterHold n 0 s)
    else bump (aspKey R.ASP_P_RELOCKS n) (modAsp n (fun a => { a with phase := .relock, lockRate := r }) (told 0 s))
  else s

/-- ASP_RATE_CHANGE (R244). -/
def execAspRateChange (port : Nat) (s : State) : Out := .next (if 8 ≤ port then s else aspRateChange port s)

/-- ASP_CONVERGED (R245): the converter has converged; both directions fade in. -/
def aspConverged (n : Nat) (s : State) : State :=
  let a := portAt s n
  if a.phase ≠ .relock ∨ ¬ a.started ∨ a.stopping.isSome then s
  else
    let s := modAsp n (fun a => { a with
      phase := .running, faded := false, unread := 0, lockRate := if a.mode = 0 ∧ a.periods ≠ [] then measRate a else a.lockRate
      txFade := ({} : Ramp).moveTo 1 (a.rate / 500) 0 }) s
    let s := (portLegs s n).foldl (fun s i => modMix i (fun m => { m with fade := { cur := 0, goal := 0 } }) s) s
    portStarted n (refadePort n s)

/-- ASP_CONVERGED (R245). -/
def execAspConverged (port : Nat) (s : State) : Out := .next (if 8 ≤ port then s else aspConverged port s)

/-! ### Pin protection (R246, R247) -/

/-- Whether a pin is an output: BCLK and FS of a master, MCLK where enabled, the TXD lines. -/
def pinDriven (a : AspPort) (pin : Nat) : Bool :=
  a.phase != .disabled && match pin with
    | 0 => a.mode == 1
    | 1 => a.mode == 1
    | 2 => bit a.cflags 3
    | _ => decide (pin < 3 + a.lines)

/-- ASP_CTRL.RETRY_MS in cycles. -/
def retryCycles (s : State) : Nat := msCycles (rgBits s R.ASP_CTRL 15 0)

/-- ASP_PIN_FAULT (R246): the driver is released; a master's clock pin puts a running port in HOLD (R247). -/
def aspPinFault (n pin cause : Nat) (s : State) : State :=
  let a := portAt s n
  if ¬ pinDriven a pin ∨ Tbl.has a.pins pin then s
  else
    let s := modAsp n (fun a => { a with pins := Tbl.put a.pins pin (cause % 2, 0, s.clock.cycles + retryCycles s) }) s
    let s := raiseUnless R.ASP_EVENT_MASK 1 Ev.ASP_PIN_FAULT (aspH n) (leN pin 1 ++ leN (cause % 2) 1)
      (bump (aspKey R.ASP_P_PIN_FAULTS n) s)
    if pin < 2 ∧ a.phase = .running then enterHold n 1 s else s

/-- ASP_PIN_FAULT (R246). -/
def execAspPinFault (port pin cause : Nat) (s : State) : Out := .next (if 8 ≤ port then s else aspPinFault port pin cause s)

/-- ASP_PIN_RETRY (R246): the driver is enabled for 1 µs; it stays so if the fault has gone. -/
def aspPinRetry (n pin : Nat) (clear : Bool) (s : State) : State :=
  let a := portAt s n
  match Tbl.get? a.pins pin with
  | none => s
  | some (cause, fails, at_) =>
    let s := tickTo at_ s
    if clear then
      let s := modAsp n (fun a => { a with pins := Tbl.del a.pins pin }) s
      let s := raiseUnless R.ASP_EVENT_MASK 1 Ev.ASP_PIN_CLEARED (aspH n) (leN pin 1 ++ leN 0 3 ++ leN fails 4) s
      if a.phase = .hold ∧ a.byPin ∧ ¬ Tbl.has (portAt s n).pins 0 ∧ ¬ Tbl.has (portAt s n).pins 1 then
        let s := raise Ev.ASP_CLOCK_RESTORED (aspH n) (leN 0 4 ++ leN a.lockRate 4 ++ leN (cyclesMs (s.clock.cycles - a.holdAt)) 4) s
        bump (aspKey R.ASP_P_RELOCKS n) (modAsp n (fun a => { a with phase := .relock, byPin := false }) s)
      else s
    else
      bump (aspKey R.ASP_P_PIN_FAULTS n)
        (modAsp n (fun a => { a with pins := Tbl.put a.pins pin (cause, fails + 1, at_ + retryCycles s) }) s)

/-- ASP_PIN_RETRY (R246). -/
def execAspPinRetry (port pin : Nat) (clear : Bool) (s : State) : Out := .next (if 8 ≤ port then s else aspPinRetry port pin clear s)

/-! ### Registers and ASP_QUERY (Table 10-9) -/

/-- The released pins as bits. -/
def pinBits (a : AspPort) : Nat := (a.pins.map fun e => 2 ^ e.1).foldl (· + ·) 0

/-- Word `w` of a port's block as its state gives it; a counter is read from where it is stored. -/
def aspWord (s : State) (n w : Nat) : Nat :=
  let a := portAt s n
  match w with
  | 0 => a.mode + 2 * a.format + 4 * a.lines + 2 ^ 8 * a.slots + 2 ^ 16 * a.slotBits + 2 ^ 24 * a.sampleBits
  | 1 => a.offset + 2 ^ 8 * a.cflags + 2 ^ 12 * a.mclkDiv + 2 ^ 16 * a.holdMs
  | 2 => a.rate
  | 3 => a.phase.num + 8 * b2n (a.phase != .disabled && a.mode == 1 && a.rate == 48000) + 2 ^ 8 * pinBits a
  | 4 => a.lockRate
  | 5 => a.frame
  | 6 => a.startBlock
  | 7 => bits a.startTime.toNat 31 0
  | 8 => bits a.startTime.toNat 63 32
  | 9 => a.wptr
  | 10 => a.rptr
  | 11 => (onSlots a.rxMask).length + 2 ^ 8 * (onSlots a.txMask).length
  | 12 | 13 | 14 | 15 => a.rxMask.getD (w - 12) 0
  | 16 | 17 | 18 | 19 => a.txMask.getD (w - 16) 0
  | 20 => pinBits a + 2 ^ 8 * (a.pins.map fun e => e.2.1 * 2 ^ e.1).foldl (· + ·) 0
  | 21 => a.periods.headD 0
  | _ =>
    let v := rgRaw s (aspKey (R.ASP_P_GLITCH + 8 * ((w - 22) / 2)) n)
    if w % 2 = 0 then bits v 31 0 else bits v 63 32

/-- The owners of a port's channels, in channel order, receive before transmit. -/
def aspOwners (s : State) (n : Nat) : List (List Byte) :=
  (List.range 128).flatMap fun ch =>
    let one := fun dir h => [leN ch 2 ++ leN dir 1 ++ leN 0 1 ++ leN h 4]
    match legOwns s none n ch with
    | some i => one 0 (legH i).toNat ++ one 1 (legH i).toNat
    | none => match routeOwns s n ch with
      | some c => one 1 (confH c).toNat
      | none => []

/-- ASP_QUERY (R243). -/
def aspQueryPlan (c : Cmd) (s : State) : Plan :=
  Plan.query 0x0406 false (handleIn s [4] c.handle) 8 none (fun s =>
    let n := hIdx c.handle
    itemsAnswer ((List.range 44).flatMap fun w => leN (aspWord s n w) 4) (aspOwners s n) 0)

/-- ASP_QUERY (R243). -/
def execAspQuery (c : Cmd) (s : State) : Out := .next (hostCmd 0x0406 aspQueryPlan c s)

end Sys2Proof.Machine
end

