-- ==== Sys2Proof/Machine/Forward.lean ====
section
/-! DEFINITION. Machine/Forward.lean: layer forwarding (R282–R294). -/

namespace Sys2Proof.Machine

def fwdOf (s : State) (leg : Nat) : FwdSet := Tbl.getD s.video.fwd leg {}
def modFwd (leg : Nat) (f : FwdSet → FwdSet) (s : State) : State := { s with video.fwd := Tbl.modify s.video.fwd leg f }
def modEntryOf (leg e : Nat) (f : FwdEntry → FwdEntry) (s : State) : State :=
  modFwd leg (fun x => { x with entries := Tbl.modify x.entries e f }) s

/-- The conference of a leg. -/
def legConf (s : State) (leg : Nat) : Option Nat := (Tbl.get? s.legs leg).bind Leg.conf

/-! ### FWD_POLICY_SET (Table 12-11) -/

def policyAt (p : List Byte) : FwdPolicy :=
  let d2 := fun o v => if u16 p o = 0 then v else u16 p o
  let d4 := fun o v => if u32 p o = 0 then v else u32 p o
  { reqMode := u8 p 0, util := u8 p 1, pace := u16 p 2, upHold := d2 4 500, queueMs := d2 6 100, start := d4 8 1000
    maxKbps := d4 12 50000, minKbps := d4 16 100, fbLost := d2 20 1000, overuse := d2 22 1000 }

/-- FWD_POLICY_SET (R287). -/
def fwdPolicyPlan (c : Cmd) (s : State) : Plan :=
  let f := policyAt c.params
  let range := fun lo hi x => decide (lo ≤ x) && decide (x ≤ hi)
  { op := 0x0901, handleOk := handleIn s [3] c.handle, touches := [c.handle], len := some 24
    param := firstBad
      [ (decide (f.reqMode ≤ 2), badParam 0), (range 50 100 f.util, badParam 1), (range 100 400 f.pace, badParam 2)
      , (range 100 10000 f.upHold, badParam 4), (range 40 1000 f.queueMs, badParam 6), (range 100 f.maxKbps f.start, badParam 8)
      , (decide (f.maxKbps ≤ 400000), badParam 12), (range 50 f.start f.minKbps, badParam 16)
      , (range 200 10000 f.fbLost, badParam 20), (range 100 20000 f.overuse, badParam 22) ]
    run := fun s => .ok { s with video.policies := Tbl.put s.video.policies (hIdx c.handle) f } }
def execFwdPolicySet (c : Cmd) (s : State) : Out := .next (hostCmd 0x0901 fwdPolicyPlan c s)

/-! ### FWD_SET_MODIFY (R282, R283) -/

/-- An entry of a block (Table 12-5). -/
structure FwdItem where
  index  : Nat
  kind   : Nat
  prio   : Nat
  limit  : Nat
  source : Nat
  slot   : Nat
  pt     : Nat
  flags  : Nat
  ssrc   : Nat
deriving DecidableEq, Repr

def fwdItemAt (p : List Byte) (o : Nat) : FwdItem :=
  { index := u8 p o, kind := u8 p (o + 1), prio := u8 p (o + 2), limit := u8 p (o + 3), source := u32 p (o + 4), slot := u8 p (o + 8)
    pt := u8 p (o + 9), flags := u8 p (o + 10), ssrc := u32 p (o + 12) }

def fwdInvalid (d : Nat) : Err := ⟨St.FWD_ENTRY_INVALID, d⟩

/-- The first complaint about an entry at offset `o`; `used` the SSRCs of the leg's entries by index. -/
def fwdItemBad (s : State) (leg o : Nat) (used : Tbl Nat) (x : FwdItem) : Option Err :=
  let l : Leg := (Tbl.get? s.legs leg).getD {}
  let k := ((legConf s leg).map fun c => (confOf s c).k).getD 0
  let src := x.source % 2 ^ 24
  firstBad
    [ (if x.index = 16 then bit l.flags 0 else decide (x.index < l.fwdOut), fwdInvalid 1)
    , (decide (x.kind ≤ 3), badParam (o + 1)), (x.index != 16 || x.kind == 3 || x.kind == 0, fwdInvalid 5)
    , (decide (x.prio ≤ 15), badParam (o + 2)), (decide (x.limit < 16), badParam (o + 3))
    , (match x.kind with
       | 1 => paramHandle s [2] x.source
       | 2 => decide (x.source < 256)
       | 3 => paramHandle s [8] x.source
       | _ => true, badParam (o + 4))
    , (x.kind != 1 || src != leg, fwdInvalid 3)
    , (x.kind != 1 || ((legConf s leg).isSome && legConf s src == legConf s leg), fwdInvalid 2)
    , (x.kind != 2 || decide (x.source < k), fwdInvalid 4)
    , (if x.kind = 1 then decide (x.slot ≤ ((Tbl.get? s.legs src).map Leg.videoIn).getD 0) else x.slot == 0, badParam (o + 8))
    , (decide (x.pt ≤ 127), badParam (o + 9)), (decide (x.flags < 2), badParam (o + 10))
    , (x.kind == 0 || !(used.any fun e => e.1 != x.index && e.2 == x.ssrc), fwdInvalid 6) ]

/-- The first entry refused. -/
def fwdItemsBad (s : State) (leg : Nat) : List FwdItem → Nat → Tbl Nat → Option (Nat × Err)
  | [], _, _ => none
  | x :: xs, n, used =>
    match fwdItemBad s leg (8 + 16 * n) used x with
    | some e => some (n, e)
    | none => fwdItemsBad s leg xs (n + 1) (if x.kind = 0 then Tbl.del used x.index else Tbl.put used x.index x.ssrc)

/-- The source that an entry names; a rank entry takes its leg at the evaluations. -/
def itemSrc (x : FwdItem) : Option FwdSrc :=
  match x.kind with
  | 1 => some (.leg (x.source % 2 ^ 24) x.slot)
  | 3 => some (.enc (x.source % 2 ^ 24))
  | _ => none

/-- An entry takes effect: one cleared while it sends ends at its next picture; a new source waits for its
switch point (R283). -/
def applyItem (leg : Nat) (s : State) (x : FwdItem) : State :=
  let old := entryOf s leg x.index
  if x.kind = 0 then
    match old with
    | some e => if e.current.isSome then modEntryOf leg x.index (fun e => { e with kind := 0, want := none, target := none, next := none, waitFrom := none }) s
        else modFwd leg (fun f => { f with entries := Tbl.del f.entries x.index }) s
    | none => s
  else
    let e : FwdEntry := old.getD {}
    let changed := e.kind != x.kind || e.source != x.source || e.slot != x.slot
    let src := itemSrc x
    let e := { e with
      kind := x.kind, priority := x.prio, limit := x.limit, source := x.source, slot := x.slot, pt := x.pt
      paused := bit x.flags 0, ssrc := x.ssrc }
    let e := if changed then
        { e with next := if src = e.src then none else src, leg := if x.kind = 2 then e.leg else none, waitFrom := none, waitSaid := false }
      else e
    modFwd leg (fun f => { f with entries := Tbl.put f.entries x.index e }) s

/-- FWD_SET_MODIFY (R282, R283). -/
def fwdSetPlan (c : Cmd) (s : State) : Plan :=
  let p := c.params
  let leg := hIdx c.handle
  let n := u8 p 0
  let items := (List.range n).map fun k => fwdItemAt p (8 + 16 * k)
  { op := 0x0902, handleOk := handleIn s [9] c.handle, touches := [c.handle]
    state := if ((Tbl.get? s.legs leg).map Leg.state) = some .closing then some (wrongState (Config.detail 0x0902 0)) else none
    len := some (8 + 16 * n)
    param := firstBad [(decide (1 ≤ n) && decide (n ≤ 17), badParam 0)]
    run := fun s =>
      let used := (fwdOf s leg).entries.map fun e => (e.1, e.2.ssrc)
      match fwdItemsBad s leg items 0 used with
      | some e => entryErr s e
      | none => .ok (items.foldl (applyItem leg) s) }
def execFwdSetModify (c : Cmd) (s : State) : Out := .next (hostCmd 0x0902 fwdSetPlan c s)

/-! ### Layers and their rates (R288) -/

/-- The packets of the last 500 ms of a measured stream. -/
def recentPkts (s : State) (v : VStream) : List (Nat × Nat × Nat × Nat) := v.pkts.filter fun p => decide (nowNs s < p.1 + 500000000)

/-- Bytes of 500 ms as kbit/s. -/
def kbitOf (bytes : Nat) : Rat := ((2 * bytes : Nat) : Rat) * 8 / 1000

/-- The measured streams of a source, each with the spatial number it stands for; whether a layer takes the lower ones with it
(SVC). -/
def measured (s : State) (src : FwdSrc) : List (Nat × VStream) × Bool :=
  match src with
  | .leg l 0 => (numbered ((groupSlots s l).map fun k => streamOf s (vkey l k)), false)
  | .leg l k => ([(0, streamOf s (vkey l k))], true)
  | .enc i => ((List.range (encOf s i).spatial).map (fun l => (l, Tbl.getD s.video.encOut (4 * i + l) {})), !(encOf s i).simulcast)

/-- The layers seen in the last 500 ms, in ascending order of (s, t), whether each is tainted, and its rate. A single incoming stream
carries its spatial layers in its packets; the streams of a group and of an encode stream are one each. -/
def layersOf (s : State) (src : FwdSrc) : List (Layer × Bool × Rat) :=
  let (ms, svc) := measured s src
  let single : Bool := match src with
    | .leg _ k => k != 0
    | .enc _ => false
  let pk : List (Nat × Nat × Nat × VStream) := ms.flatMap fun m =>
    (recentPkts s m.2).map fun p => ((if single then p.2.1 else m.1), p.2.2.1, p.2.2.2, m.2)
  let grid := (List.range 4).flatMap fun a => (List.range 8).map fun b => (⟨a, b⟩ : Layer)
  grid.filterMap fun l =>
    match pk.find? fun p => p.1 == l.s && p.2.1 == l.t with
    | none => none
    | some q =>
      let tainted := (List.range (l.t + 1)).any fun t => bit q.2.2.2.taint t
      let got := pk.filter fun p => decide (p.2.1 ≤ l.t) && (if svc then decide (p.1 ≤ l.s) else p.1 == l.s)
      some (l, tainted, kbitOf ((got.map fun p => p.2.2.1).foldl (· + ·) 0))

/-- LIMIT allows a layer. -/
def limitOk (limit : Nat) (l : Layer) : Bool :=
  (limit % 4 == 3 || decide (l.s ≤ limit % 4)) && (limit / 4 % 4 == 3 || decide (l.t ≤ limit / 4 % 4))

/-- The source an entry's layers are chosen of. -/
def FwdEntry.aim (e : FwdEntry) : Option FwdSrc := e.next <|> e.src

/-- The usable layers of an entry with their rates, ascending (R288). -/
def usable (s : State) (e : FwdEntry) : List (Layer × Rat) :=
  match e.aim with
  | none => []
  | some src => ((layersOf s src).filter fun x => !x.2.1 && limitOk e.limit x.1).map fun x => (x.1, x.2.2)

/-- Whether a taint keeps layers from an entry. -/
def taintedSrc (s : State) (e : FwdEntry) : Bool :=
  match e.aim with
  | none => false
  | some src => (layersOf s src).any fun x => x.2.1 && limitOk e.limit x.1

/-- Layer order: spatial first; none is below every layer. -/
def layerLe (a b : Option Layer) : Bool :=
  match a, b with
  | none, _ => true
  | some _, none => false
  | some a, some b => decide (a.s < b.s) || (a.s == b.s && decide (a.t ≤ b.t))

/-- The audio rate sent to a leg, kbit/s. -/
def audioRate (s : State) (f : FwdSet) : Rat :=
  kbitOf (((f.audio.filter fun a => decide (nowNs s < a.1 + 500000000)).map Prod.snd).foldl (· + ·) 0)

/-- The budget of R289. -/
def budgetOf (s : State) (leg : Nat) (f : FwdSet) : Rat := f.est * ((policyFor s leg).util : Rat) / 100 - audioRate s f

/-! ### The estimate (R287) -/

def clampLow (p : FwdPolicy) (x : Rat) : Rat := max (p.minKbps : Rat) x

/-- The rules of R287 after a window; `since` is the ms since the last report. -/
def nextEst (p : FwdPolicy) (est : Rat) (reports : Bool) (since : Nat) (lost grad delivered : Rat) : Rat :=
  if ¬ reports then (if p.fbLost ≤ since then clampLow p (est * 983 / 1000) else est)
  else if 1 / 10 < lost then clampLow p (est * (1 - lost / 2))
  else if (p.overuse : Rat) < grad then clampLow p (min est (85 * delivered / 100))
  else if lost < 2 / 100 ∧ grad ≤ 0 ∧ est / 2 ≤ delivered then min (p.maxKbps : Rat) (est + max 8 (est / 200))
  else est

/-- The window of a leg's feedback is taken, and the estimate follows (R287). -/
def estimate (leg : Nat) (s : State) : State :=
  let f := fwdOf s leg
  let p := policyFor s leg
  if ¬ f.started then
    if (legConf s leg).isSome then modFwd leg (fun f => { f with started := true, est := (p.start : Rat), lastRep := s.clock.cycles }) s else s
  else
    let pkts : Nat := (f.win.map fun w => w.2.1).foldl (· + ·) 0
    let bytes : Nat := (f.win.map Prod.fst).foldl (· + ·) 0
    let lostN : Nat := (f.win.map fun w => w.2.2.1).foldl (· + ·) 0
    let times : List Int := (f.win.filter fun w => w.2.2.1 == 0).map fun w => w.2.2.2
    let mean : Rat := ((times.foldl (fun (a b : Int) => a + b) 0 : Int) : Rat) / (max 1 times.length : Nat)
    let reports := f.win != []
    let delivered : Rat := if reports then ((8 * bytes : Nat) : Rat) / 25 else f.delivered
    let lost : Rat := if reports then (lostN : Rat) / (max 1 pkts : Nat) else f.lost
    let grad : Rat := if times = [] then 0 else mean - f.meanPrev.getD mean
    let since := cyclesMs (s.clock.cycles - f.lastRep)
    let est := if f.rr && !f.rfc8888 then f.est else nextEst p f.est reports since lost grad delivered
    let s := modFwd leg (fun f => { f with
      est, delivered, lost, meanPrev := if times = [] then f.meanPrev else some mean, win := []
      grad := if reports then grad else f.grad }) s
    if p.fbLost ≤ since ∧ ¬ f.noFbSaid ∧ ¬ reports then
      raiseUnless R.LFW_EVENT_MASK 0 Ev.BWE_NO_FEEDBACK (legH leg) (leN 0 4 ++ leN (ratFloor est) 4 ++ leN since 4)
        (modFwd leg (fun f => { f with noFbSaid := true }) s)
    else s

/-! ### Layer choice (R284, R289, R290) -/

/-- Rank entries follow the talker set, the leg's own stream left out (R284). -/
def assignRankEntries (leg : Nat) (s : State) : State :=
  let f := fwdOf s leg
  let ranks := f.entries.filter fun e => e.2.kind == 2
  if ranks = [] then s
  else
    let rank : Nat → Nat := fun k => ((Tbl.get? f.entries k).map FwdEntry.source).getD 0
    let order := sortBy (fun a b => decide (rank a < rank b) || (rank a == rank b && decide (a < b))) (ranks.map Prod.fst)
    let talkers : List Nat := match legConf s leg with
      | none => []
      | some c => (talkersLoud s (confOf s c)).filter fun l => l != leg && decide (0 < ((Tbl.get? s.legs l).map Leg.videoIn).getD 0)
    let legAt := rankLegs order (fun k => (Tbl.get? f.entries k).bind FwdEntry.leg) talkers
    modFwd leg (fun f => { f with entries := Tbl.each f.entries fun k e =>
      if e.kind = 2 then
        let l := legAt k
        let src := l.map fun x => FwdSrc.leg x 0
        if l = e.leg then e
        else { e with leg := l, next := if src = e.src then none else src, waitFrom := none, waitSaid := false }
      else e }) s

/-- Entries in priority order, ties to the lower INDEX. -/
def byPriority (f : FwdSet) : List Nat :=
  let pr : Nat → Nat := fun k => ((Tbl.get? f.entries k).map FwdEntry.priority).getD 0
  sortBy (fun a b => decide (pr a < pr b) || (pr a == pr b && decide (a < b))) (Tbl.keys f.entries)

/-- The first pass of R289: each entry its lowest usable layer. Layers wanted with their rates. -/
def firstPass (s : State) (f : FwdSet) (budget : Rat) : List Nat → Rat → Tbl (Layer × Rat) → Rat × Tbl (Layer × Rat)
  | [], used, w => (used, w)
  | k :: ks, used, w =>
    let low : Option (Layer × Rat) := (Tbl.get? f.entries k).bind fun e => if e.paused ∨ e.kind = 0 then none else (usable s e).head?
    match low with
    | some l => if used + l.2 ≤ budget then firstPass s f budget ks (used + l.2) (Tbl.put w k l) else firstPass s f budget ks used w
    | none => firstPass s f budget ks used w

/-- The second pass: each the highest that the budget allows. -/
def secondPass (s : State) (f : FwdSet) (budget : Rat) : List Nat → Rat → Tbl (Layer × Rat) → Tbl (Layer × Rat)
  | [], _, w => w
  | k :: ks, used, w =>
    match Tbl.get? w k, Tbl.get? f.entries k with
    | some x, some e =>
      match ((usable s e).filter fun l => decide (used - x.2 + l.2 ≤ budget)).getLast? with
      | some l => secondPass s f budget ks (used - x.2 + l.2) (Tbl.put w k l)
      | none => secondPass s f budget ks used w
    | _, _ => secondPass s f budget ks used w

/-- Whether a leg's entries may send: it is ACTIVE (R285). -/
def mayForward (s : State) (leg : Nat) : Bool := ((Tbl.get? s.legs leg).map Leg.state) == some .active

/-- The wanted layers of a forward set. -/
def chooseLayers (s : State) (leg : Nat) (f : FwdSet) : Tbl (Layer × Rat) :=
  if mayForward s leg then
    let budget := budgetOf s leg f
    let order := byPriority f
    let a := firstPass s f budget order 0 []
    secondPass s f budget order a.1 a.2
  else []

/-- The target follows the want (R290). -/
def followWant (now upHoldNs : Nat) (taint : Bool) (want : Option Layer) (e : FwdEntry) : FwdEntry :=
  let wants := e.wants.filter (fun w => decide (now ≤ w.1 + upHoldNs)) ++ [(now, want)]
  let exempt := e.taintHold && !taint
  let held := decide ((e.wants.map Prod.fst).any (fun t => decide (t + upHoldNs ≤ now))) && wants.all fun w => layerLe want w.2
  let target := if layerLe want e.target || exempt || held then want else e.target
  { e with want, target, taintHold := taint
           wants := (e.wants.filter (fun w => decide (w.1 + upHoldNs < now))).getLast?.toList ++ wants }

/-- What a move that waits for a key picture needs: the stream of a group, another source, or a start from nothing. -/
def needsKey (s : State) (e : FwdEntry) : Bool :=
  match e.target with
  | none => false
  | some t =>
    e.next.isSome || e.current.isNone ||
      match e.src with
      | some (.leg l 0) => (groupSlots s l)[t.s]? != some e.stream
      | some (.enc i) => (encOf s i).simulcast && decide ((e.current.map Layer.s) ≠ some t.s)
      | _ => false

/-- LFW asks the source of a waiting move for a key picture, or an encode stream for a switch point (Table 12-7). -/
def askSource (leg k : Nat) (s : State) : State :=
  match entryOf s leg k with
  | none => s
  | some e =>
    match e.target, e.aim with
    | some t, some src =>
      if needsKey s e then
        if e.waitFrom.isSome then s
        else
          let s := modEntryOf leg k (fun e => { e with waitFrom := some (nowNs s), waitSaid := false }) s
          match src with
          | .leg l slot =>
            let slot := if slot = 0 then (groupSlots s l).getD t.s 0 else slot
            if slot = 0 ∨ (policyFor s l).reqMode = 0 then s else requestKey (vkey l slot) 1 (fwdH l) s
          | .enc i => bump R.LFW_KREQ_UP (requestEncKey i [t.s] 1 s)
      else
        let s := modEntryOf leg k (fun e => { e with waitFrom := none, waitSaid := false }) s
        match src, e.current with
        | .enc i, some c =>
          if c.s < t.s ∧ ¬ (encOf s i).simulcast ∧ (encOf s i).swWant.getD t.s false = false then
            bump R.LFW_KREQ_UP (modEnc i (fun x => { x with swWant := x.swWant.set t.s true }) (bump (winKey R.VEN_W_KEY_REQUESTS i) s))
          else s
        | _, _ => s
    | _, _ => modEntryOf leg k (fun e => { e with waitFrom := none, waitSaid := false }) s

/-- One evaluation of a forward set (R289, R290). -/
def evaluateSet (leg : Nat) (s : State) : State :=
  let s := assignRankEntries leg s
  let f := fwdOf s leg
  let wanted := chooseLayers s leg f
  let hold := msNs (policyFor s leg).upHold
  let follow := fun (k : Nat) (e : FwdEntry) => followWant (nowNs s) hold (taintedSrc s e) ((Tbl.get? wanted k).map Prod.fst) e
  let s := modFwd leg (fun f => { f with entries := Tbl.each f.entries follow }) s
  (Tbl.keys f.entries).foldl (fun s k => askSource leg k s) s

/-- BWE_EVALUATION, every 25 ms (R287–R290). -/
def bweEvaluation (s : State) : State :=
  let due := (s.video.evalNs / 25000000 + 1) * 25000000
  let s := tickToNs (max due (nowNs s / 25000000 * 25000000)) s
  let s := { s with video.evalNs := nowNs s / 25000000 * 25000000 }
  (Tbl.keys s.video.fwd).foldl (fun s leg => evaluateSet leg (estimate leg s)) s
def execBweEvaluation (s : State) : Out := .next (bweEvaluation s)

/-! ### LAYER_SWITCH (Table 12-7) -/

/-- A move of an entry is complete: counted by its direction. -/
def countMove (leg k : Nat) (from_ to_ : Option Layer) (s : State) : State :=
  if from_ = to_ then s
  else
    let up := layerLe from_ to_
    bump R.LFW_SWITCHES (bump (winKey (if up then R.LFW_W_SWITCHES_UP else R.LFW_W_SWITCHES_DOWN) leg)
      (modEntryOf leg k (fun e => { e with switches := satAdd 32 e.switches 1 }) s))

/-- The entry moves to another stream or source: its timeline goes on from the last timestamp sent (R285). -/
def cutOver (leg k : Nat) (p : SrcPicture) (t : Layer) (s : State) : State :=
  match entryOf s leg k with
  | none => s
  | some e =>
    let ts := (e.lastTs + (nowNs s - e.lastNs) * 90 / 1000000) % 2 ^ 32
    let fresh := e.lastNs == 0
    let off := if fresh then 0 else (ts + 2 ^ 32 - p.ts % 2 ^ 32) % 2 ^ 32
    let s := modEntryOf leg k (fun e => { e with
      src := e.aim, next := none, stream := p.stream, current := some t, waitFrom := none, waitSaid := false, tsOff := off }) s
    if e.current = some t then
      bump R.LFW_SWITCHES (bump (winKey R.LFW_W_SWITCHES_UP leg) (modEntryOf leg k (fun e => { e with switches := satAdd 32 e.switches 1 }) s))
    else countMove leg k e.current (some t) s

/-- Where the current layer stands after a picture of the present source, spatial and temporal each at its own point. -/
def moveLayer (svc : Bool) (p : SrcPicture) (c t : Layer) : Layer :=
  { s := if ¬ svc then c.s else if t.s < c.s then t.s
         else if c.s < t.s ∧ (p.key ∨ p.switch_.contains t.s ∨ p.endsTaint) then t.s else c.s
    t := if t.t < c.t then t.t else if c.t < t.t ∧ (p.temporal = 0 ∨ p.key ∨ p.endsTaint) then t.t else c.t }

/-- A forward set entry goes: a closing leg goes on with its release (R14). -/
def dropEntry (leg k : Nat) (s : State) : State :=
  legAdvance leg (modFwd leg (fun f => { f with entries := Tbl.del f.entries k }) s)

/-- The stream that the target layer of an entry lies in: the slot of a group, the layer of simulcast, else 0. -/
def targetStream (s : State) (src : FwdSrc) (t : Layer) : Nat :=
  match src with
  | .leg l 0 => (groupSlots s l).getD t.s 0
  | .enc i => if (encOf s i).simulcast then t.s else 0
  | _ => 0

/-- The picture passes: its timestamp is rewritten where the entry sends it. -/
def passPicture (leg k : Nat) (p : SrcPicture) (s : State) : State :=
  modEntryOf leg k (fun e =>
    match e.current with
    | some c => if p.temporal ≤ c.t ∧ p.stream = e.stream ∧ ¬ p.ofNext then
        { e with lastTs := (p.ts + e.tsOff) % 2 ^ 32, lastNs := nowNs s } else e
    | none => e) s

/-- LAYER_SWITCH: a picture of a source reaches an entry, and the current layer moves as it may (R283, R285, R290). -/
def layerSwitch (leg k : Nat) (p : SrcPicture) (s : State) : State :=
  match entryOf s leg k with
  | none => s
  | some e =>
    if ¬ mayForward s leg ∨ e.kind = 0 ∨ e.target.isNone then
      let s := countMove leg k e.current none (modEntryOf leg k (fun e => { e with current := none, target := none }) s)
      if e.kind = 0 ∨ ((Tbl.get? s.legs leg).map Leg.state) = some .closing then dropEntry leg k s else s
    else
      match e.target, e.aim with
      | some t, some src =>
        let there := p.stream == targetStream s src t
        if needsKey s e ∧ p.key ∧ there ∧ (e.next.isNone ∨ p.ofNext) then
          passPicture leg k { p with ofNext := false } (cutOver leg k p t s)
        else if p.ofNext then s
        else
          match e.current with
          | none => s
          | some c =>
            let svc : Bool := match e.src with
              | some (.leg _ n) => n != 0
              | some (.enc i) => !(encOf s i).simulcast
              | none => false
            let t' := if needsKey s e then { t with t := min c.t t.t, s := c.s } else t
            let c' := moveLayer svc p c t'
            let s := countMove leg k (some c) (some c') (modEntryOf leg k (fun e => { e with current := some c' }) s)
            passPicture leg k p s
      | _, _ => s
def execLayerSwitch (leg entry : Nat) (p : SrcPicture) (s : State) : Out := .next (layerSwitch leg entry p s)

/-! ### Pacing (R293, R294) -/

/-- The quarter of a leg. -/
def quarterOf (leg : Nat) : Nat := leg / 4096 % 4

/-- The pacer's rate in kbit/s. -/
def paceRate (s : State) (leg : Nat) (f : FwdSet) : Nat := max 1 (ratFloor (f.est * ((policyFor s leg).pace : Rat) / 100))

/-- One packet leaves a pacing queue. -/
def sendPaced (leg : Nat) (p : PacePkt) (s : State) : State :=
  let wait := (nowNs s - p.eligible) / 1000000
  let s := trackMax (R.LFW_Q_QUEUE_MAX + 0x20 * quarterOf leg) wait (trackMax (winKey R.LFW_W_QUEUE_MAX leg) wait s)
  let a := sendMedia leg p.entry p.bytes false s
  let s := a.2
  if a.1 then
    let s := bump R.LFW_PKTS_OUT (bump (winKey R.LFW_W_PKTS_SENT leg) (bumpBy (winKey R.LFW_W_BYTES_SENT leg) p.bytes
      (bump (R.LFW_Q_PKTS + 0x20 * quarterOf leg) s)))
    modFwd leg (fun f =>
      let seq := ((Tbl.get? f.entries p.entry).map FwdEntry.seq).getD 0
      { f with
        records := ((seq, p.bytes, nowNs s) :: f.records).take 256
        entries := Tbl.modify f.entries p.entry (fun e => { e with
          seq := (e.seq + 1) % 65536
          sentRate := e.sentRate.filter (fun r => decide (nowNs s < r.1 + 500000000)) ++ [(nowNs s, p.bytes)] }) }) s
  else s

/-- A burst of at most 5 ms at the pacing rate: `budget` bytes are left. -/
def burst (leg : Nat) : Nat → Nat → State → Nat → State × Nat
  | 0, _, s, sent => (s, sent)
  | fuel + 1, budget, s, sent =>
    match (fwdOf s leg).queue with
    | [] => (s, sent)
    | p :: rest =>
      if p.eligible ≤ nowNs s ∧ (p.bytes ≤ budget ∨ sent = 0) then
        burst leg fuel (budget - p.bytes) (sendPaced leg p (modFwd leg (fun f => { f with queue := rest }) s)) (sent + p.bytes)
      else (s, sent)

/-- Insert by eligibility, first in first out among equals. -/
def insertPace (p : PacePkt) : List PacePkt → List PacePkt
  | [] => [p]
  | q :: t => if p.eligible < q.eligible then p :: q :: t else q :: insertPace p t

/-- PACING_SEND (R293): the queue sends when its oldest packet is eligible and the pacer free. -/
def pacingSend (leg : Nat) (s : State) : State :=
  let s := modFwd leg (fun f => { f with queue := f.queue.foldl (fun l p => insertPace p l) [] }) s
  let f := fwdOf s leg
  match f.queue with
  | [] => s
  | p :: _ =>
    let s := tickToNs (max f.paceNs p.eligible) s
    let rate := paceRate s leg f
    let (s, sent) := burst leg f.queue.length (rate * 5 / 8) s 0
    modFwd leg (fun f => { f with paceNs := nowNs s + sent * 8 * 1000000 / rate }) s
def execPacingSend (leg : Nat) (s : State) : Out := .next (pacingSend leg s)

/-- FWD_BACKLOG (R294): the target of the lowest-priority entry above its lowest layer falls by one layer. -/
def fwdBacklog (leg : Nat) (s : State) : State :=
  let f := fwdOf s leg
  match (f.queue.map PacePkt.eligible).foldl (fun (a : Option Nat) e => some (min (a.getD e) e)) none with
  | none => s
  | some oldest =>
    let s := tickToNs (oldest + msNs (policyFor s leg).queueMs) s
    let lower : Nat → Option Layer := fun k =>
      match Tbl.get? f.entries k with
      | some e => match e.target with
        | some t => ((usable s e).filter fun l => l.1 != t && layerLe (some l.1) (some t)).getLast?.map Prod.fst
        | none => none
      | none => none
    match (byPriority f).reverse.find? fun k => (lower k).isSome with
    | none => s
    | some k =>
      let s := modEntryOf leg k (fun e => { e with target := lower k, wants := [] }) s
      let s := bump R.LFW_BACKLOGS (bump32 (winKey R.LFW_W_BACKLOGS leg) (askSource leg k s))
      let hushed := match f.backAt with
        | some a => decide (s.clock.cycles < a + msCycles 10000)
        | none => false
      if hushed then s
      else raiseUnless R.LFW_EVENT_MASK 1 Ev.FWD_BACKLOG (legH leg)
        (leN k 1 ++ leN 0 3 ++ leN ((nowNs s - oldest) / 1000000) 4 ++ leN (ratFloor f.est) 4)
        (modFwd leg (fun f => { f with backAt := some s.clock.cycles }) s)
def execFwdBacklog (leg : Nat) (s : State) : Out := .next (fwdBacklog leg s)

/-- The handle of a source: the leg, or the encode stream. -/
def srcHandle (o : Option FwdSrc) : Nat :=
  match o with
  | some (.leg l _) => (legH l).toNat
  | some (.enc i) => (encH i).toNat
  | none => 0

/-- FWD_WAIT_KEY, once per wait, after KEYWAIT_S (R290). -/
def fwdWaitKey (leg k : Nat) (s : State) : State :=
  match entryOf s leg k with
  | none => s
  | some e =>
    match e.waitFrom with
    | none => s
    | some a =>
      if e.waitSaid then s
      else
        let s := tickToNs (a + msNs (1000 * rgBits s R.LFW_CTRL 7 0)) s
        raiseUnless R.LFW_EVENT_MASK 2 Ev.FWD_WAIT_KEY (legH leg)
          (leN k 1 ++ leN 0 3 ++ leN (srcHandle e.aim) 4 ++ leN ((nowNs s - a) / 1000000) 4)
          (modEntryOf leg k (fun e => { e with waitSaid := true }) s)
def execFwdWaitKey (leg entry : Nat) (s : State) : Out := .next (fwdWaitKey leg entry s)

/-- The replay session in template mode that a leg takes part in, and when its last reports left (R376). -/
def templateOf (s : State) (leg : Nat) : Option (Nat × Session × Nat) :=
  s.cap.sessions.findSome? fun e =>
    if e.2.state = .scheduled ∨ e.2.state = .running then (Tbl.get? e.2.reports leg).map fun t => (e.1, e.2, t) else none

/-- SENDER_REPORT: every 1 s, one for every outgoing video stream of a leg (R285), and for every template stream of a leg that a
replay emulates (R376). -/
def senderReport (leg : Nat) (s : State) : State :=
  let send := fun (ks : List Nat) (s : State) => ks.foldl (fun s k =>
    let (v, s) := takeFree s
    (sendMedia leg k (v % 2048) true s).2) s
  match templateOf s leg with
  | some (i, x, t) =>
    let s := tickToNs (t + 1000000000) s
    send ((x.recs.filter fun r => r.kind == 6).map Rec.port).eraseDups
      (modSession i (fun x => { x with reports := Tbl.put x.reports leg (nowNs s) }) s)
  | none =>
    if Tbl.has s.video.fwd leg then
      let f := fwdOf s leg
      let s := tickToNs (f.srNs + 1000000000) s
      send ((f.entries.filter fun e => e.2.current.isSome).map Prod.fst) (modFwd leg (fun f => { f with srNs := nowNs s }) s)
    else s
def execSenderReport (leg : Nat) (s : State) : Out := .next (senderReport leg s)

/-! ### Queries -/

/-- STATE of FWD_QUERY. -/
def entryState (s : State) (e : FwdEntry) : Nat :=
  if e.taintHold then 4
  else if e.target.isSome ∧ (e.next.isSome ∨ e.current ≠ e.target) then 3
  else if e.current.isSome then 1
  else if ¬ e.paused ∧ usable s e ≠ [] then 2 else 0

/-- The rate of an entry over 500 ms, kbit/s. -/
def entryRate (s : State) (e : FwdEntry) : Nat :=
  ratFloor (kbitOf (((e.sentRate.filter fun r => decide (nowNs s < r.1 + 500000000)).map Prod.snd).foldl (· + ·) 0))

/-- An entry of FWD_QUERY. -/
def fwdRecord (s : State) (k : Nat) (e : FwdEntry) : List Byte :=
  leN k 1 ++ leN (entryState s e) 1 ++ leN (layerBits e.current) 1 ++ leN (layerBits e.target) 1 ++ leN (srcHandle e.src) 4
    ++ leN (entryRate s e) 4 ++ leN e.switches 4

/-- FWD_QUERY; its parameter length is not given (notes/assumptions/12.md). -/
def fwdQueryPlan (c : Cmd) (s : State) : Plan :=
  { Plan.query 0x0903 false (handleIn s [9] c.handle) 0 none fun s =>
      recordAnswer ((fwdOf s (hIdx c.handle)).entries.flatMap fun e => fwdRecord s e.1 e.2)
    with len := none }
def execFwdQuery (c : Cmd) (s : State) : Out := .next (hostCmd 0x0903 fwdQueryPlan c s)

/-- A rational number rounded toward minus infinity, in two's complement of `bits` bits. -/
def ratTwos (bits : Nat) (q : Rat) : Nat := toTwos bits (q.num / (q.den : Int))

/-- lost in 1/1,000 and grad in µs (LFW_W_LOSS). -/
def lossWord (f : FwdSet) : Nat := min 65535 (ratFloor (f.lost * 1000)) + 65536 * ratTwos 16 f.grad

/-- BWE_QUERY on a leg or its forward set (Table 12-14); its parameter length is not given (notes/assumptions/12.md). -/
def bweQueryPlan (c : Cmd) (s : State) : Plan :=
  let leg := hIdx c.handle
  { Plan.query 0x0904 false (handleIn s [2, 9] c.handle && Tbl.has s.video.fwd leg) 0 none fun s =>
      let f := fwdOf s leg
      recordAnswer (leN (ratFloor f.est) 4 ++ leN (ratFloor f.delivered) 4 ++ leN (ratTwos 32 (budgetOf s leg f)) 4
        ++ leN (ratFloor (audioRate s f)) 4 ++ leN (lossWord f) 4 ++ leN (rgRaw s (winKey R.LFW_W_REPORTS leg)) 8
        ++ leN (cyclesMs (s.clock.cycles - f.lastRep)) 4)
    with len := none }
def execBweQuery (c : Cmd) (s : State) : Out := .next (hostCmd 0x0904 bweQueryPlan c s)

/-- One bit per entry that satisfies `p`. -/
def entryBits (f : FwdSet) (p : FwdEntry → Bool) : Nat := (f.entries.map fun e => if p e.2 then 2 ^ e.1 else 0).foldl (· + ·) 0

/-- Word `n` of the window of a leg (Table 12-14); LFW_W_VIDEO sums what its entries sent. -/
def lfwWord (s : State) (leg n : Nat) : Nat :=
  match Tbl.get? s.video.fwd leg with
  | none => 0
  | some f =>
    let l : Leg := (Tbl.get? s.legs leg).getD {}
    match n with
    | 0 => b2n f.started + 2 * b2n (bit l.flags 0) + 4 * l.fwdOut + 128 * b2n f.rfc8888 + 256 * l.conf.getD 0
    | 1 => ratFloor f.est
    | 2 => ratFloor f.delivered
    | 3 => lossWord f
    | 4 => ratTwos 32 (budgetOf s leg f)
    | 5 => ratFloor (audioRate s f)
    | 6 => (f.entries.map fun e => entryRate s e.2).foldl (· + ·) 0
    | 7 => entryBits f fun e => e.current.isSome
    | 8 => entryBits f fun e => entryState s e == 2
    | 9 => min (2 ^ 32 - 1) (cyclesMs (s.clock.cycles - f.lastRep))
    | 24 => rgRaw s (winKey R.LFW_W_QUEUE_MAX leg)
    | 25 => rgRaw s (winKey R.LFW_W_BACKLOGS leg)
    | 26 => layerBits ((entryOf s leg 16).bind FwdEntry.target)
        + ((List.range 7).map fun k => 16 ^ (k + 1) * layerBits ((entryOf s leg k).bind FwdEntry.target)).foldl (· + ·) 0
    | n => if n < 24 then ctrHalf s R.LFW_W_REPORTS leg (R.LFW_W_CFG + 4 * n) else 0

end Sys2Proof.Machine
end

