-- ==== Sys2Proof/Machine/Radio.lean ====
section
/-! DEFINITION. Machine/Radio.lean: the radio die (R319–R343). -/

namespace Sys2Proof.Machine

def radioOf (s : State) (r : Nat) : Radio := Tbl.getD s.radio.radios r {}
def modRadio (r : Nat) (f : Radio → Radio) (s : State) : State := { s with radio.radios := Tbl.upd s.radio.radios r {} f }
def chainOf (s : State) (c : Nat) : Chain := Tbl.getD s.radio.chains c {}
def modChain (c : Nat) (f : Chain → Chain) (s : State) : State := { s with radio.chains := Tbl.upd s.radio.chains c {} f }
def radioH (r : Nat) : Word := mkH 0x0D r

/-- The chains of a radio (R319), and those in service. -/
def chainsOfRadio (r : Nat) : List Nat := (List.range 4).map (4 * r + ·)
def serviceChains (s : State) (r : Nat) : List Nat := (chainsOfRadio r).filter fun c => (chainOf s c).state == .inService

/-- A register of the RAD_R and RAD_C blocks. -/
def radR (reg r : Nat) : Nat := reg + 0x100 * r
def radC (reg c : Nat) : Nat := reg + 0x20 * c

def RadioState.num : RadioState → Nat
  | .off => 0
  | .waking => 1
  | .idle => 2
  | .receive => 3
  | .transmit => 4
  | .retuning => 5
  | .calibrating => 6
  | .refHold => 7

/-- The reference is valid (R341, R351). -/
def refValid (s : State) : Bool := !s.time.intOsc

/-- RADIO_STATE of a transition that the reference caused. -/
def radioStateEvent (r : Nat) (old new : RadioState) (cause : Nat) (s : State) : State :=
  raiseUnless R.RAD_EVENT_MASK 2 Ev.RADIO_STATE (radioH r) (leN old.num 1 ++ leN new.num 1 ++ leN cause 1) s

/-! ### Channels (R329, Table 14-8) -/

/-- Whether a channel of a width code around a centre contains a primary 20 MHz channel; channel numbers count 5 MHz. -/
def holdsPrimary (width centre primary : Nat) : Bool :=
  if width = 0 then primary == centre
  else
    let d := if primary < centre then centre - primary else primary - centre
    d % 4 == 2 && decide (d ≤ 2 ^ (width + 1) - 2)

/-- The subchannel of the primary, from the lowest. -/
def primaryIndex (c : RadioChan) : Nat := (c.primary + (2 ^ (c.width + 1) - 2) - c.centre) / 4

/-- The row of the regulatory table for a channel of a radio. -/
def regRow (s : State) (r : Nat) (c : RadioChan) : Option RegLimit :=
  s.radio.rows.find? fun x => x.band == r && x.width == c.width && x.centre == c.centre

/-- The centre that CENTRE 0 stands for: the lowest permitted one of the width that contains the primary. -/
def lowestCentre (s : State) (r width primary : Nat) : Nat :=
  let cs := (s.radio.rows.filter fun x => x.band == r && x.width == width && holdsPrimary width x.centre primary).map RegLimit.centre
  (sortBy (fun a b => decide (a < b)) cs).headD 0

/-- Subchannels `lo … lo + n − 1` as a mask. -/
def span (lo n : Nat) : Nat := (2 ^ n - 1) * 2 ^ lo

/-- The static puncturing patterns of 802.11be for 80, 160 and 320 MHz: one 20 of 80; one 20 or one 40 of 160; one 40, one
80, or an outer 80 with one 40 of 320 (notes/assumptions/41.md). -/
def punctures (width : Nat) : List Nat :=
  match width with
  | 2 => (List.range 4).map (span · 1)
  | 3 => (List.range 8).map (span · 1) ++ (List.range 4).map (fun k => span (2 * k) 2)
  | 4 => (List.range 8).map (fun k => span (2 * k) 2) ++ (List.range 4).map (fun k => span (4 * k) 4)
      ++ (List.range 6).map (fun k => span 0 4 + span (4 + 2 * k) 2) ++ (List.range 6).map (fun k => span 12 4 + span (2 * k) 2)
  | _ => []

/-- A puncture mask is permitted: none, or a static pattern that spares the primary. -/
def punctureOk (c : RadioChan) : Bool :=
  c.puncture == 0 || ((punctures c.width).contains c.puncture && !bit c.puncture (primaryIndex c))

/-- The widest width code of a radio (Table 14-1). -/
def widest : Nat → Nat
  | 0 => 1
  | 1 => 3
  | _ => 4

/-! ### Power (R328–R330); all in 0.25 dB -/

/-- The gains in force: the larger of FEM_CONFIG's and the trims record's minimum (R330, R343). -/
def trimMax (s : State) (r o : Nat) : Int :=
  ((chainsOfRadio r).map fun c => i16 (recPayload s 3) (32 * c + o)).foldl max 0
def gainF (s : State) (r : Nat) : Int := max (radioOf s r).femGain (trimMax s r 28)
def gainA (s : State) (r : Nat) : Int := max (radioOf s r).aerialGain (trimMax s r 30)

/-- 10·log₁₀ n, rounded up to 0.25 dB. -/
def splitLoss : Nat → Int
  | 0 => 0
  | 1 => 0
  | 2 => 13
  | 3 => 20
  | _ => 25

/-- The per-chain cap for `n` chains. -/
def capFor (s : State) (r n : Nat) (limit : Int) : Int := limit - gainA s r - gainF s r - splitLoss n

/-- The limit of the radio's channel. -/
def limitNow (s : State) (r : Nat) : Option Int := (regRow s r (radioOf s r).chan).map RegLimit.limit

/-- The chains a PPDU goes out on, and its power, as R330 computes them from `n` chains in service. -/
def powerFor (s : State) (r n : Nat) (limit target : Int) : Nat × Int :=
  let power := fun n => min target (min (capFor s r n limit) 80)
  if -40 ≤ power n then (n, power n)
  else
    let m := ((List.range n).reverse.find? fun m => decide (1 ≤ m) && decide (-40 ≤ capFor s r m limit)).getD 0
    (m, power m)

/-- The power in force of a radio. -/
def powerNow (s : State) (r : Nat) : Int :=
  match limitNow s r with
  | some l => (powerFor s r (serviceChains s r).length l (radioOf s r).target).2
  | none => 0

/-- POWER_LIMITED, once per channel and target, where the cap lowers the target. -/
def noteLimited (r : Nat) (s : State) : State :=
  let x := radioOf s r
  match limitNow s r with
  | none => s
  | some l =>
    let n := (serviceChains s r).length
    let cap := capFor s r n l
    if cap < x.target ∧ x.limited ≠ some (x.chan, x.target) ∧ 0 < n then
      raiseUnless R.RAD_EVENT_MASK 0 Ev.POWER_LIMITED (radioH r)
        (leN n 1 ++ leN 0 1 ++ leN (toTwos 16 x.target) 2 ++ leN (toTwos 16 cap) 2 ++ leN (toTwos 16 l) 2)
        (modRadio r (fun x => { x with limited := some (x.chan, x.target) }) s)
    else s

/-! ### Transmit requests (R321–R324) -/

/-- The instant from which a first sample could leave; none while it is unknown. -/
def readyNs (s : State) (r : Nat) : Option Nat :=
  let x := radioOf s r
  let turn := fun st => if st = RadioState.receive then 4000 else 10000
  match x.state with
  | .waking => some (x.endNs + 10000)
  | .retuning => some (x.endNs + turn x.back)
  | .calibrating => some (x.endNs + turn x.back)
  | .idle => some (nowNs s + 10000)
  | .receive => some (nowNs s + 4000)
  | .transmit => some (nowNs s + 3000 + 4000)
  | .refHold => none
  | .off => none

/-- RADIO_NOT_READY's DETAIL. -/
def notReadyDetail (s : State) (r : Nat) : Nat :=
  match (radioOf s r).state with
  | .waking => 1
  | .retuning => 2
  | .calibrating => 3
  | .refHold => 4
  | .off => 4
  | _ => if serviceChains s r = [] then 5 else 0

/-- A request is refused and counted. -/
def refuseTx (r : Nat) (s : State) : State := bump R.RAD_TX_NOT_READY (bump (radR R.RAD_R_TX_NOT_READY r) s)

/-- Insert a request by its start. -/
def insertReq (q : TxReq) : List TxReq → List TxReq
  | [] => [q]
  | x :: t => if q.earliest < x.earliest then q :: x :: t else x :: insertReq q t

/-- A transmit request (R323): whether it is taken. -/
def requestTx (r : Nat) (q : TxReq) (s : State) : Bool × State :=
  let take := fun (s : State) => (true, modRadio r (fun x => { x with requests := insertReq q x.requests }) s)
  if serviceChains s r = [] then (false, refuseTx r s)
  else
    match (radioOf s r).state with
    | .idle => take s
    | .receive => take s
    | .transmit => take s
    | _ =>
      match readyNs s r with
      | none => (false, refuseTx r s)
      | some t =>
        if t ≤ q.latest then
          take (bump R.RAD_TX_WAITS (bump (radR R.RAD_R_TX_WAITS r) s))
        else (false, refuseTx r s)

def TxWhat.num : TxWhat → Nat
  | .frame => 0
  | .beacon _ => 1
  | .response => 2
  | .replay _ => 3
  | .wakeUp => 4

/-- TRANSMIT_REQUEST (R323). -/
def txWhat (kind index : Nat) : TxWhat :=
  match kind with
  | 0 => .frame
  | 1 => .beacon index
  | 2 => .response
  | 3 => .replay index
  | _ => .wakeUp
def execTransmitRequest (radio earliest latest kind index : Nat) (s : State) : Out :=
  .next (requestTx radio { earliest, latest, what := txWhat kind index } s).2

/-- The PA enable may rise (R322). -/
def paAllowed (s : State) (r : Nat) : Bool :=
  (radioOf s r).lock && refValid s && serviceChains s r != [] && s.radio.sealed_

/-- The release instant of the next request: it is sent from its first sample on, if the PA may be enabled and its latest
instant has not passed (R320, R322, Table 14-3). -/
def releaseTx (r : Nat) (s : State) : State :=
  let x := radioOf s r
  match x.requests with
  | [] => s
  | q :: rest =>
    let ok : Bool := match x.state with
      | .idle => true
      | .receive => true
      | _ => false
    if ¬ ok then s
    else
      let start := max q.earliest ((readyNs s r).getD 0)
      let s := modRadio r (fun x => { x with requests := rest }) s
      if q.latest < start ∨ ¬ paAllowed s r then refuseTx r s
      else
        let s := tickToNs start s
        let s := modRadio r (fun x => { x with state := .transmit, sending := some q }) s
        let s := bump R.WPH_TX_PPDUS (bump (R.WPH_R_TX_PPDUS + 0x100 * r) (bump (R.WMC_L_TX_PPDU + 0x80 * r) s))
        let s := match q.what with
          | .response => bump R.WMC_RESPONSES s
          | _ => s
        emit (.air r q.what.num []) s

/-! ### Jobs of a radio (R326, R327) -/

/-- Cycles of the bits of Table 14-5 in µs. -/
def calUs : Nat → Nat
  | 0 => 80
  | 1 => 1500
  | 2 => 2000
  | 3 => 2000
  | 4 => 1500
  | 5 => 1000
  | 6 => 1000
  | _ => 500

/-- A tuner is present on a chain. -/
def tunerOn (s : State) (c : Nat) : Bool := (radioOf s (c / 4)).usid.getD (c % 4) 0 != 0

/-- The bits of a mask, the tuner search only where a tuner is present. -/
def calBits (s : State) (r mask : Nat) : List Nat :=
  (List.range 8).filter fun b => bit mask b && (b != 7 || (chainsOfRadio r).any (tunerOn s))

/-- A radio changes channel: RETUNING for 120 µs. -/
def retune (r : Nat) (c : RadioChan) (by_ : Option (Nat × Word)) (s : State) : State :=
  modRadio r (fun x => { x with
    back := match x.state with
      | .receive => .receive
      | .transmit => .receive
      | .idle => .idle
      | _ => x.back
    state := .retuning, tuneTo := c, tuner := by_, endNs := nowNs s + 120000, lock := false }) s

/-- The calibrations of a run start in one interval. -/
def calWhole (r : Nat) (run : CalRun) (s : State) : State :=
  let us := (run.left.map fun b => calUs b.1).foldl (· + ·) 0
  modRadio r (fun x => { x with
    back := x.state, state := .calibrating, cal := some run, calNow := run.left.map Prod.fst, endNs := nowNs s + 1000 * us }) s

/-- Whether a BSS, a station or a replay session uses a radio (R333, Table 14-7). -/
def radioUsed (s : State) (r : Nat) : Bool :=
  s.wlan.bsss.any (fun b => bit (u8 b.2.params 1) r)
    || s.wlan.stas.any (fun a => bit a.2.links r)
    || s.cap.sessions.any (fun e => e.2.replay && (e.2.state == .running || e.2.state == .scheduled)
        && e.2.recs.any (fun x => x.kind == 3 && x.port == r))

/-- A job starts where the radio is IDLE or in RECEIVE, first come first served. A calibration of a radio in use runs in
clearings. -/
def startJobs (r : Nat) (s : State) : State :=
  let x := radioOf s r
  let ready : Bool := match x.state with
    | .idle => true
    | .receive => true
    | _ => false
  match x.jobs with
  | [] => s
  | j :: rest =>
    if ¬ ready then s
    else
      match j with
      | .channel c by_ => retune r c by_ (modRadio r (fun x => { x with jobs := rest }) s)
      | .cal mask chains rs tag =>
        if x.cal.isSome then s
        else
          let whole := !radioUsed s r
          let left := (calBits s r mask).map fun b => (b, (calUs b + 199) / 200)
          let run : CalRun := { by_ := some (rs, tag), chains, left, whole }
          let s := modRadio r (fun x => { x with jobs := rest }) s
          if left = [] then finishRunning rs tag St.OK 0 0 [] s
          else if whole then calWhole r run s
          else modRadio r (fun x => { x with cal := some run, clearAt := min x.clearAt (s.clock.cycles + msCycles 10) }) s

/-! ### RADIO_STATE_SET -/

/-- The radios A–C of a handle. -/
def radioAC (s : State) (h : Word) : Bool := handleIn s [0x0D] h && decide (hIdx h ≤ 2)

/-- The start-up set (Table 14-5) of a radio is valid. -/
def startupValid (s : State) (r : Nat) : Bool :=
  (List.range 8).all fun b => bit (radioOf s r).valid b || !(calBits s r 255).contains b

/-- The regulatory record is present (R329). -/
def regRecord (s : State) : Bool := (inForce s 7).isSome

/-- A radio leaves OFF: its synthesiser calibrates and locks, the start-up set first where it is not valid. -/
def wakeRadio (r : Nat) (by_ : Option (Nat × Word)) (s : State) : State :=
  let run := !startupValid s r
  modRadio r (fun x => { x with
    state := .waking, back := .idle, on := by_, startup := run, endNs := nowNs s + 180000 + (if run then 10000000 else 0) }) s

/-- A radio goes OFF: PA and LNA enables low, bias feeds off; what waits at it ends. -/
def radioOff (r : Nat) (s : State) : State :=
  let x := radioOf s r
  let s := x.requests.foldl (fun s _ => refuseTx r s) s
  let waits := (x.jobs.filterMap fun j => match j with
      | .channel _ b => b
      | .cal _ _ rs tag => some (rs, tag))
    ++ (x.cal.bind CalRun.by_).toList ++ x.tuner.toList
  finishAll waits St.ABORTED 0 0 (modRadio r (fun x => { x with
    state := .off, lock := false, requests := [], jobs := [], cal := none, tuner := none, relock := none, sending := none, calNow := [] }) s)

/-- RADIO_STATE_SET (R320, R329, R342). -/
def radioStatePlan (c : Cmd) (s : State) : Plan :=
  let r := hIdx c.handle
  let x := radioOf s r
  let on := u8 c.params 0 == 1
  let settled : Bool := match x.state with
    | .off => true
    | .idle => true
    | .receive => true
    | .refHold => true
    | _ => false
  let refused := if r = 3 ∨ ¬ on ∨ x.state ≠ .off then none
    else if ¬ regRecord s then some ⟨St.CHANNEL_REFUSED, 3⟩
    else if (regRow s r x.chan).isNone then some ⟨St.CHANNEL_REFUSED, 1⟩ else none
  { op := 0x0D01, handleOk := handleIn s [0x0D] c.handle, touches := [c.handle]
    state := if r = 3 ∨ on then none
      else if radioUsed s r ∧ x.state ≠ .off then some (wrongState 1)
      else if settled then none else some (wrongState (Config.detail 0x0D01 0))
    param := firstBad [(decide (u8 c.params 0 ≤ 1), badParam 0)] <|> refused
    run := fun s =>
      if r = 3 then .ok { s with radio.wake := { s.radio.wake with listen := on } }
      else if on then (if x.state = .off then .defer (wakeRadio r (some (c.rs, c.tag)) s) else .ok s)
      else .ok (radioOff r s) }
def execRadioStateSet (c : Cmd) (s : State) : Out := .next (hostCmd 0x0D01 radioStatePlan c s)

/-! ### RADIO_CHANNEL_SET -/

/-- The channel that a block names. -/
def chanAt (s : State) (r : Nat) (p : List Byte) : RadioChan :=
  let centre := if u8 p 2 = 0 then (if u8 p 1 = 0 then u8 p 0 else lowestCentre s r (u8 p 1) (u8 p 0)) else u8 p 2
  { primary := u8 p 0, width := u8 p 1, centre, puncture := u16 p 4 }

/-- CHANNEL_REFUSED for a channel of radios A–C (Table 14-12). -/
def chanRefused (s : State) (r : Nat) (c : RadioChan) : Option Err :=
  firstBad
    [ (regRecord s, ⟨St.CHANNEL_REFUSED, 3⟩), (decide (c.width ≤ widest r), ⟨St.CHANNEL_REFUSED, 2⟩)
    , ((regRow s r c).isSome && holdsPrimary c.width c.centre c.primary, ⟨St.CHANNEL_REFUSED, 1⟩)
    , (punctureOk c, ⟨St.CHANNEL_REFUSED, 4⟩)
    , (decide (-40 ≤ capFor s r 1 (((regRow s r c).map RegLimit.limit).getD 0)), ⟨St.CHANNEL_REFUSED, 5⟩) ]

/-- A radio carries a BSS in the AP role. -/
def carriesBss (s : State) (r : Nat) : Bool := s.wlan.bsss.any fun b => bit (u8 b.2.params 1) r

/-- The radio's role. -/
def roleOf (s : State) (r : Nat) : WlanRole := Tbl.getD s.wlan.roles r {}

/-- A radio in the UPLINK_STA role that is associated. -/
def uplinked (s : State) (r : Nat) : Bool :=
  (roleOf s r).role == 2 && s.wlan.stas.any fun a => a.2.bss == 0xFF && bit a.2.links r
    && (a.2.state == .authorized || a.2.state == .associated)

/-- A channel change is admitted: it starts when the radio is free; a running clearing ends within 50 µs (R326, R327). -/
def changeChannel (r : Nat) (c : RadioChan) (by_ : Option (Nat × Word)) (s : State) : State :=
  let s := modRadio r (fun x => { x with jobs := x.jobs ++ [.channel c by_] }) s
  let s := if (radioOf s r).state = .calibrating then
      modRadio r (fun x => { x with endNs := min x.endNs (nowNs s + 50000), calNow := [] }) s
    else s
  startJobs r s

/-- RADIO_CHANNEL_SET (R303, R326–R330). -/
def radioChannelPlan (c : Cmd) (s : State) : Plan :=
  let p := c.params
  let r := hIdx c.handle
  let x := radioOf s r
  let ch := chanAt s r p
  { op := 0x0D02, handleOk := handleIn s [0x0D] c.handle, touches := [c.handle]
    state := if r = 3 then none else if x.announce.isSome then some (wrongState 2) else if uplinked s r then some (wrongState 3) else none
    param := if r = 3 then firstBad [(decide (u16 p 4 < 4096), badParam 4), (decide (u8 p 6 ≤ 1), badParam 6)]
      else firstBad [(decide (u8 p 1 ≤ 4), badParam 1)] <|> chanRefused s r ch
    run := fun s =>
      if r = 3 then .ok { s with radio.wake := { s.radio.wake with channel := u8 p 0, id := u16 p 4, feed := u8 p 6 } }
      else if x.state = .off then .ok (modRadio r (fun x => { x with chan := ch }) s)
      else if carriesBss s r then .defer (modRadio r (fun x => { x with announce := some (ch, c.rs, c.tag) }) s)
      else .defer (changeChannel r ch (some (c.rs, c.tag)) s) }
def execRadioChannelSet (c : Cmd) (s : State) : Out := .next (hostCmd 0x0D02 radioChannelPlan c s)

/-- CHANNEL_SWITCH_MOVE: the announced count ends, and the radio moves (R303). The count of 3 is in beacons, which the
environment places. -/
def channelSwitchMove (r : Nat) (s : State) : State :=
  match (radioOf s r).announce with
  | none => s
  | some (c, rs, tag) => changeChannel r c (some (rs, tag)) (modRadio r (fun x => { x with announce := none }) s)
def execChannelSwitchMove (radio : Nat) (s : State) : Out := .next (channelSwitchMove radio s)

/-! ### RADIO_POWER_SET, RADIO_CAL, FEM_CONFIG -/

/-- A chain is enabled or disabled by command; FAULT and RETIRED stay, but a disabled chain leaves FAULT's probes. -/
def enableChain (on : Bool) (c : Chain) : Chain :=
  match c.state with
  | .retired => c
  | .fault => if on then c else { c with state := .disabled }
  | _ => { c with state := if on then (if c.cause = 0 then .inService else .fault) else .disabled }

/-- The caps for 1 to 4 chains; 0 where the channel has no row. -/
def capsBytes (s : State) (r : Nat) : List Byte :=
  (List.range 4).flatMap fun k => leN (toTwos 16 (((limitNow s r).map (capFor s r (k + 1))).getD 0)) 2

/-- RADIO_POWER_SET (R328, R330, R340). -/
def radioPowerPlan (c : Cmd) (s : State) : Plan :=
  let p := c.params
  let r := hIdx c.handle
  { op := 0x0D03, handleOk := radioAC s c.handle, touches := [c.handle]
    param := firstBad [(decide (1 ≤ u8 p 0) && decide (u8 p 0 ≤ 15), badParam 0)]
    run := fun s =>
      let t := max (-40) (min 80 (i16 p 2))
      let s := (List.range 4).foldl (fun s k => modChain (4 * r + k) (enableChain (bit (u8 p 0) k)) s) s
      let s := noteLimited r (modRadio r (fun x => { x with target := t }) s)
      .okWith s (leN (toTwos 16 t) 2 ++ capsBytes s r ++ leN 0 6) }
def execRadioPowerSet (c : Cmd) (s : State) : Out := .next (hostCmd 0x0D03 radioPowerPlan c s)

/-- RADIO_CAL (R327, R333). -/
def radioCalPlan (c : Cmd) (s : State) : Plan :=
  let r := hIdx c.handle
  let m := u8 c.params 0
  { op := 0x0D04, handleOk := radioAC s c.handle, touches := [c.handle]
    state := if (radioOf s r).state = .off then some (wrongState (Config.detail 0x0D04 0)) else none
    param := firstBad [(decide (u8 c.params 1 ≤ 15), badParam 1)]
    run := fun s => .defer (startJobs r (modRadio r (fun x => { x with
      jobs := x.jobs ++ [.cal m (if u8 c.params 1 = 0 then 15 else u8 c.params 1) c.rs c.tag] }) s)) }
def execRadioCal (c : Cmd) (s : State) : Out := .next (hostCmd 0x0D04 radioCalPlan c s)

/-- No USID is used twice. -/
def usidsOk (l : List Nat) : Bool := (l.filter (· != 0)).Nodup

/-- FEM_CONFIG (R330, R335, R336, R339). -/
def femConfigPlan (c : Cmd) (s : State) : Plan :=
  let p := c.params
  let r := hIdx c.handle
  let usid := (List.range 4).map fun k => u8 p (12 + k)
  let inv := fun d => (⟨St.FEM_CONFIG_INVALID, d⟩ : Err)
  { op := 0x0D05, handleOk := radioAC s c.handle, touches := [c.handle], len := some 32
    param := firstBad
      [ (decide (u16 p 0 ≤ 2000) && decide (u16 p 2 ≤ 2000), inv 1), (decide (u8 p 10 ≤ 15), badParam 10)
      , (decide (1 ≤ u8 p 11) && decide (u8 p 11 ≤ 26), inv 3), (usid.all (fun u => decide (u ≤ 15)), badParam 12)
      , (usidsOk usid, inv 2) ]
    run := fun s =>
      let s := modRadio r (fun x => { x with
        paLead := u16 p 0, lnaLead := u16 p 2, femGain := i16 p 4, aerialGain := i16 p 6, polarity := u16 p 8, biasEn := u8 p 10
        rffeMhz := u8 p 11, usid }) s
      let s := (List.range 4).foldl (fun s k => modChain (4 * r + k) (fun x => if bit (u8 p 10) k then x else { x with biasOff := none, biasTries := 0 }) s) s
      .ok (noteLimited r s) }
def execFemConfig (c : Cmd) (s : State) : Out := .next (hostCmd 0x0D05 femConfigPlan c s)

/-! ### Results of calibrations (R331, R334, R336, R338) -/

/-- A chain enters FAULT with a cause. -/
def faultChain (c cause : Nat) (s : State) : State :=
  bump (radC R.RAD_C_FAULTS c) (modChain c (fun x => { x with
    state := .fault, cause, since := s.clock.cycles, probeAt := s.clock.cycles, good := 0, bad := 0, worse := 0 }) s)

/-- A calibration fails on a chain: the previous result stays, or the chain leaves service. -/
def failCal (r b c : Nat) (s : State) : State :=
  let had := bit (radioOf s r).valid b
  let s := bump R.RAD_CAL_FAILS (modRadio r (fun x => { x with failed := setBit x.failed b true }) s)
  let s := raise Ev.CAL_FAILED (radioH r) (leN b 1 ++ leN c 1 ++ leN (b2n (!had)) 1) s
  if had then s else faultChain c 5 s

/-- The band profile of a chain is judged (R338). -/
def judgeProfile (r : Nat) (s : State) (m : Nat × Nat × Nat × Bool) : State :=
  let (c, mean, best, sign) := m
  let s := modChain c (fun x => { x with mean }) s
  if mean < 24 ∧ best ≤ 32 ∧ ¬ sign then
    raise Ev.AERIAL_BAND_MISMATCH (radioH r) (leN c 1 ++ leN mean 1 ++ leN best 1) (faultChain c 4 s)
  else if (chainOf s c).state = .fault ∧ (chainOf s c).cause = 4 then
    modChain c (fun x => { x with state := .inService, cause := 0 }) s
  else s

/-- A tuner search keeps a code, which the spec leaves open. -/
def searchTuner (s : State) (c : Nat) : State :=
  if tunerOn s c then
    let (v, s) := takeFree s
    modChain c (fun x => { x with code := v % 65536, searched := true, worse := 0 }) s
  else s

/-- The bits of a radio's calibrations end, with what they found. -/
def endCal (r : Nat) (bits_ : List Nat) (v : CalFacts) (s : State) : State :=
  bits_.foldl (fun s b =>
    let bad := v.fails.filter fun f => f.1 == b && f.2 / 4 == r
    let s := bad.foldl (fun s f => failCal r b f.2 s) s
    let s := modRadio r (fun x => { x with
      valid := if bad = [] then setBit x.valid b true else x.valid, failed := if bad = [] then setBit x.failed b false else x.failed
      pend := setBit x.pend b false }) s
    let s := if b = 6 then (v.profile.filter fun m => m.1 / 4 == r).foldl (judgeProfile r) s else s
    if b = 7 then (chainsOfRadio r).foldl searchTuner s else s) s

/-- Tuners whose read-back stays wrong are marked failed (R336). -/
def failTuners (r : Nat) (v : CalFacts) (s : State) : State :=
  (v.tuners.filter fun t => t.1 / 4 == r && tunerOn s t.1).foldl (fun s t =>
    raise Ev.RFFE_FAULT (radioH r) (leN t.1 1 ++ leN ((radioOf s r).usid.getD (t.1 % 4) 0) 1 ++ leN t.2 1)
      (bump (radR R.RAD_R_RFFE_ERRORS r) (modChain t.1 (fun x => { x with tunerBad := true }) s))) s

/-! ### SYNTH_LOCK -/

/-- A role set while the radio was OFF takes effect as it reaches IDLE (R297). -/
def applyChainRole (r : Nat) (s : State) : State :=
  { s with wlan.roles := Tbl.upd s.wlan.roles r {} fun x => match x.next with
      | some (role, rflags, vlan, maxUsers) => { role, rflags, vlan, maxUsers }
      | none => x }

/-- The lock is there: WAKING reaches IDLE, RETUNING the state it left (R320, R325). -/
def synthLock (r : Nat) (v : CalFacts) (s : State) : State :=
  let x := radioOf s r
  let active : Bool := match x.state with
    | .waking => true
    | .retuning => true
    | _ => false
  if ¬ active ∨ ¬ refValid s then s
  else
    let s := tickToNs x.endNs s
    let s := failTuners r v (endCal r [0] {} s)
    let s := if x.startup then
        modRadio r (fun x => { x with temp := v.temp, startup := false }) (endCal r (calBits s r 0xFE) v s)
      else s
    let tuned := x.state == .retuning
    let s := modRadio r (fun x => { x with
      state := x.back, lock := true, on := none, tuner := none, relock := none, chan := if tuned then x.tuneTo else x.chan
      clearAt := if tuned then x.clearAt else s.clock.cycles + msCycles (rgBits s R.RAD_CTRL 7 0) }) s
    let s := match x.on with
      | some (rs, tag) => finishRunning rs tag St.OK 0 1 [] (applyChainRole r s)
      | none => s
    let s := match x.tuner with
      | some (rs, tag) => finishRunning rs tag St.OK 0 1 [] s
      | none => s
    let s := if tuned ∧ x.relock.isNone then bump (radR R.RAD_R_RETUNES r) s else s
    let s := match x.relock with
      | some (st, at_) =>
        raise Ev.SYNTH_UNLOCK (radioH r) (leN st.num 1 ++ leN (b2n (decide (40000 < nowNs s - at_))) 1 ++ leN 0 2 ++ leN (nowNs s - at_) 4) s
      | none => s
    startJobs r (noteLimited r s)
def execSynthLock (radio : Nat) (v : CalFacts) (s : State) : Out := .next (synthLock radio v s)

/-- Lock detect falls: a PPDU in flight is cut short, and the radio tries to re-lock for 40 µs (R325). -/
def synthUnlock (r : Nat) (s : State) : State :=
  let x := radioOf s r
  let act : Bool := match x.state with
    | .idle => true
    | .receive => true
    | .transmit => true
    | _ => false
  if ¬ act then s
  else
    let s := if x.state = .transmit then bump (radR R.RAD_R_TRUNCATED r) s else s
    bump R.RAD_SYNTH_UNLOCK (modRadio r (fun x => { x with
      back := if x.state = .idle then .idle else .receive, relock := some (x.state, nowNs s), tuneTo := x.chan, sending := none
      state := .retuning, lock := false, endNs := nowNs s + 40000 }) s)
def execSynthUnlock (radio : Nat) (s : State) : Out := .next (synthUnlock radio s)

/-- The re-lock failed: it recalibrates as for a channel change (R325). -/
def synthRelockTimeout (r : Nat) (s : State) : State :=
  let x := radioOf s r
  if x.state = .retuning ∧ x.relock.isSome then
    let s := tickToNs x.endNs s
    modRadio r (fun x => { x with endNs := nowNs s + 120000 }) s
  else s
def execSynthRelockTimeout (radio : Nat) (s : State) : Out := .next (synthRelockTimeout radio s)

/-! ### TRANSMIT_END, AERIAL_PROBE (R337) -/

def warnRl (s : State) : Nat := rgBits s R.RAD_AERIAL_CFG 7 0
def faultRl (s : State) : Nat := rgBits s R.RAD_AERIAL_CFG 15 8

/-- What a chain measured on a PPDU is judged. -/
def judgeChain (r : Nat) (s : State) (m : ChainMeas) : State :=
  let c := 4 * r + m.chain
  let x := chainOf s c
  if x.state ≠ .inService ∨ 4 ≤ m.chain then s
  else
    let bad := if m.rl < warnRl s then x.bad + 1 else 0
    let worse := if m.rl < faultRl s then x.worse + 1 else 0
    let s := modChain c (fun x => { x with
      meas := m.power, rl := m.rl, bad, worse, searched := x.searched && bad != 0
      rls := x.rls.filter (fun e => decide (s.clock.cycles < e.1 + msCycles 1000)) ++ [(s.clock.cycles, m.rl)] }) s
    let searchDue := tunerOn s c && !x.searched
    if 16 ≤ bad ∧ searchDue then modRadio r (fun x => { x with pend := setBit x.pend 7 true }) s
    else if 16 ≤ worse ∧ ¬ searchDue then
      raise Ev.AERIAL_FAULT (radioH r) (leN c 1 ++ leN m.sign 1 ++ leN m.rl 1) (faultChain c m.sign s)
    else s

/-- TRANSMIT_END: the last sample is sent (R320, R328, R337). -/
def transmitEnd (r : Nat) (m : List ChainMeas) (s : State) : State :=
  if (radioOf s r).state = .transmit then
    let s := tickToNs (nowNs s + 3000) s
    startJobs r (m.foldl (judgeChain r) (modRadio r (fun x => { x with state := .receive, sending := none }) s))
  else s
def execTransmitEnd (radio : Nat) (m : List ChainMeas) (s : State) : Out := .next (transmitEnd radio m s)

/-- AERIAL_PROBE: a chain in FAULT for its aerial sends a probe every PROBE_S (R337). -/
def aerialProbe (c rl : Nat) (s : State) : State :=
  let x := chainOf s c
  if x.state = .fault ∧ 1 ≤ x.cause ∧ x.cause ≤ 3 then
    let s := tickTo (x.probeAt + msCycles (1000 * rgBits s R.RAD_AERIAL_CFG 23 16)) s
    let good := if warnRl s < rl then x.good + 1 else 0
    let s := modChain c (fun x => { x with probeAt := s.clock.cycles, good, rl }) s
    if 3 ≤ good then
      raise Ev.AERIAL_RESTORED (radioH (c / 4)) (leN c 1 ++ leN 0 3 ++ leN (cyclesMs (s.clock.cycles - x.since) / 1000) 4)
        (modChain c (fun x => { x with state := .inService, cause := 0, good := 0, searched := false }) s)
    else s
  else s
def execAerialProbe (chain rl : Nat) (s : State) : Out := .next (aerialProbe chain rl s)

/-! ### Clearings (R331–R333) -/

/-- The background steps of a radio in µs (Table 14-5). -/
def backSteps (r : Nat) : List (Nat × Nat) := if r = 2 then [(3, 100), (4, 60), (5, 40)] else [(5, 40)]

/-- Pending temperature steps and searches become a run of their own. -/
def takePend (r : Nat) (s : State) : State :=
  let x := radioOf s r
  if x.cal.isSome ∨ x.pend = 0 then s
  else modRadio r (fun x => { x with
    cal := some { by_ := none, chains := 15, left := (calBits s r x.pend).map fun b => (b, (calUs b + 199) / 200) } }) s

/-- The next clearing after one that ran: 10 ms on while steps wait, else a period (R332, R333). -/
def nextClearing (r : Nat) (s : State) : State :=
  modRadio r (fun x => { x with
    clearAt := s.clock.cycles + msCycles (if x.cal.isSome then 10 else rgBits s R.RAD_CTRL 7 0), defers := 0 }) s

/-- A clearing starts: CTS-to-self, then the steps it carries. -/
def startClearing (r : Nat) (s : State) : State :=
  let most := 10 * rgBits s R.RAD_CTRL 15 8
  let steps := match (radioOf s r).cal with
    | some run => match run.left with
      | b :: _ => [(b.1, min 200 most)]
      | [] => backSteps r
    | none => backSteps r
  let us := min most ((steps.map Prod.snd).foldl (· + ·) 0)
  let s := bump R.RAD_CLEARINGS (bump (radR R.RAD_R_CLEARINGS r) (emit (.air r 0 []) s))
  modRadio r (fun x => { x with back := x.state, state := .calibrating, calNow := steps.map Prod.fst, endNs := nowNs s + 1000 * us }) s

/-- CLEARING: the scheduled instant of a clearing; `free` if the medium has been idle for PIFS, no TXOP is held and no instant of
R332 falls within it (R332). -/
def clearing (r : Nat) (free : Bool) (temp : Int) (s : State) : State :=
  let x := radioOf s r
  let there : Bool := match x.state with
    | .idle => true
    | .receive => true
    | .transmit => true
    | _ => false
  if ¬ there then s
  else
    let s := tickTo x.clearAt s
    let moved := decide (4 * rgBits s R.RAD_CAL_CFG 7 0 ≤ (temp - x.temp).natAbs)
    let s := if moved then modRadio r (fun x => { x with temp, pend := 0xFF }) s else s
    let s := takePend r s
    let forced := decide (rgBits s R.RAD_CTRL 19 16 ≤ x.defers)
    if (free ∨ forced) ∧ x.state ≠ .transmit then
      startClearing r (if free then s else bump (radR R.RAD_R_CLEAR_FORCED r) s)
    else
      bump (radR R.RAD_R_CLEAR_DEFERS r) (modRadio r (fun x => { x with
        defers := x.defers + 1, clearAt := s.clock.cycles + msCycles (rgBits s R.RAD_CTRL 31 24) }) s)
def execClearing (radio : Nat) (free : Bool) (temp : Int) (s : State) : Out := .next (clearing radio free temp s)

/-- A run of calibrations has taken a step, or, in one interval, all of them. -/
def advanceRun (r : Nat) (v : CalFacts) (s : State) : State :=
  match (radioOf s r).cal with
  | none => s
  | some run =>
    let step : List Nat × CalRun :=
      if run.whole then (run.left.map Prod.fst, { run with left := [], done := run.done + (run.left.map Prod.snd).foldl (· + ·) 0 })
      else match run.left with
        | [] => ([], run)
        | (b, n) :: t => if n ≤ 1 then ([b], { run with left := t, done := run.done + 1 })
            else ([], { run with left := (b, n - 1) :: t, done := run.done + 1 })
    let s := endCal r step.1 v s
    let failed := run.failed <|> (step.1.find? fun b => v.fails.any fun f => f.1 == b && f.2 / 4 == r)
    let run := { step.2 with failed }
    if run.left ≠ [] then modRadio r (fun x => { x with cal := some run }) s
    else
      let s := modRadio r (fun x => { x with cal := none }) s
      match run.by_, failed with
      | some (rs, tag), some b => finishRunning rs tag St.RADIO_CAL_FAILED b run.done [] s
      | some (rs, tag), none => finishRunning rs tag St.OK 0 run.done [] s
      | none, _ => s

/-- CALIBRATION_COMPLETE: the interval ends; one that yielded to a channel change keeps its steps for later (R327, R334). -/
def calibrationComplete (r : Nat) (v : CalFacts) (s : State) : State :=
  let x := radioOf s r
  if x.state ≠ .calibrating then s
  else
    let s := tickToNs x.endNs s
    let s := failTuners r v s
    let s := if x.calNow = [] then s else if x.cal.isSome then advanceRun r v s else endCal r x.calNow v s
    startJobs r (nextClearing r (modRadio r (fun x => { x with state := x.back, calNow := [] }) s))
def execCalibrationComplete (radio : Nat) (v : CalFacts) (s : State) : Out := .next (calibrationComplete radio v s)

/-! ### Bias feeds (R339) -/

/-- BIAS_FAULT: a feed held at its limit for 1 ms is switched off. -/
def biasFault (c : Nat) (s : State) : State :=
  if bit (radioOf s (c / 4)).biasEn (c % 4) ∧ (chainOf s c).biasOff.isNone then
    raiseUnless R.RAD_EVENT_MASK 1 Ev.BIAS_FAULT (radioH (c / 4)) (leN c 1 ++ leN 0 1)
      (modChain c (fun x => { x with biasOff := some s.clock.cycles, biasTries := 0 }) s)
  else s
def execBiasFault (chain : Nat) (s : State) : Out := .next (biasFault chain s)

/-- BIAS_RETRY: every 1 s. -/
def biasRetry (c : Nat) (ok : Bool) (s : State) : State :=
  match (chainOf s c).biasOff with
  | none => s
  | some a =>
    let s := tickTo (a + msCycles 1000) s
    if ok then
      raiseUnless R.RAD_EVENT_MASK 1 Ev.BIAS_FAULT (radioH (c / 4)) (leN c 1 ++ leN 1 1 ++ leN 0 2 ++ leN (chainOf s c).biasTries 4)
        (modChain c (fun x => { x with biasOff := none }) s)
    else modChain c (fun x => { x with biasOff := some s.clock.cycles, biasTries := x.biasTries + 1 }) s
def execBiasRetry (chain : Nat) (ok : Bool) (s : State) : Out := .next (biasRetry chain ok s)

/-! ### The reference (R341) -/

/-- Every radio that is not OFF enters REF_HOLD; a PPDU in flight is cut short, requests are refused. -/
def radiosHold (s : State) : State :=
  [0, 1, 2].foldl (fun s r =>
    let x := radioOf s r
    match x.state with
    | .off => s
    | .refHold => s
    | st =>
      let s := if st = .transmit then bump (radR R.RAD_R_TRUNCATED r) s else s
      let s := x.requests.foldl (fun s _ => refuseTx r s) s
      radioStateEvent r st .refHold 1 (modRadio r (fun x => { x with
        back := match x.state with
          | .receive => .receive
          | .transmit => .receive
          | .retuning => x.back
          | .calibrating => x.back
          | _ => .idle
        tuneTo := if x.state = .retuning then x.tuneTo else x.chan
        state := .refHold, lock := false, requests := [], sending := none, calNow := [], relock := none }) s)) s

/-- The reference is qualified: each radio re-locks on its channel. -/
def radiosRelock (s : State) : State :=
  [0, 1, 2].foldl (fun s r =>
    if (radioOf s r).state = .refHold then
      radioStateEvent r .refHold .retuning 2 (modRadio r (fun x => { x with
        state := .retuning, endNs := nowNs s + (if x.startup then 10180000 else 120000) }) s)
    else s) s

/-! ### RADIO_QUERY (Tables 14-14 to 14-16) -/

/-- A 64-bit counter's half in a block of registers. -/
def halfAt (s : State) (key n : Nat) : Nat := if n % 2 = 0 then rgRaw s key % 2 ^ 32 else rgRaw s key / 2 ^ 32

/-- RAD_R_READY_AT. -/
def readyShort (s : State) (r : Nat) : Nat :=
  match (radioOf s r).state with
  | .off => 2 ^ 64 - 1
  | _ => match readyNs s r with
    | some t => shortOf t
    | none => 2 ^ 64 - 1

/-- Word `n` of the RAD_R block of radio `r`. -/
def radioWord (s : State) (r n : Nat) : Nat :=
  let x := radioOf s r
  let k := (serviceChains s r).length
  match n with
  | 0 => x.state.num + 16 * b2n x.lock + 32 * b2n (startupValid s r) + 256 * k + 4096 * k + 65536 * x.chan.primary + 2 ^ 24 * x.chan.width
  | 1 => x.chan.centre + 65536 * x.chan.puncture
  | 2 => readyShort s r % 2 ^ 32
  | 3 => readyShort s r / 2 ^ 32
  | 4 => toTwos 16 x.target + 65536 * toTwos 16 (((limitNow s r).map (capFor s r k)).getD 0)
  | 5 => toTwos 16 (gainF s r) + 65536 * toTwos 16 (gainA s r)
  | 6 => x.valid + 256 * x.pend + 65536 * x.failed
  | 7 => x.defers + 65536 * min 65535 (cyclesMs (x.clearAt - s.clock.cycles))
  | 8 => x.paLead + 65536 * x.lnaLead
  | 9 => x.polarity + 65536 * x.rffeMhz + 2 ^ 24 * x.biasEn
  | n => if 10 ≤ n ∧ n < 26 then halfAt s (radR (R.RAD_R_TX_NOT_READY + (n - 10) / 2 * 8) r) (n - 10) else 0

def ChainState.num : ChainState → Nat
  | .inService => 0
  | .disabled => 1
  | .fault => 2
  | .retired => 3

/-- Word `n` of the RAD_C block of chain `c`, the bias current (word 3) apart: it is a measurement. -/
def chainWord (s : State) (c n : Nat) : Nat :=
  let x := chainOf s c
  match n with
  | 0 => x.state.num + 4 * x.cause + 64 * b2n (tunerOn s c) + 128 * b2n x.tunerBad + 256 * b2n (bit (radioOf s (c / 4)).biasEn (c % 4))
      + 512 * b2n x.biasOff.isSome
  | 1 => toTwos 16 (if x.state = .inService then powerNow s (c / 4) else 0) + 65536 * toTwos 16 x.meas
  | 2 => x.rl + 256 * ((x.rls.filter (fun e => decide (s.clock.cycles < e.1 + msCycles 1000))).map Prod.snd).foldl min x.rl + 65536 * x.mean
  | 4 => x.code
  | 5 => halfAt s (radC R.RAD_C_FAULTS c) 0
  | 6 => halfAt s (radC R.RAD_C_FAULTS c) 1
  | _ => 0

/-- W is blanked while its host radio transmits on the chain it taps (R342). -/
def wakeBlanked (s : State) : Bool := (radioOf s s.radio.wake.feed).state == .transmit

/-- Word `n` of the RAD_W block; bit 1 of PWR_WAKE_SET's sources arms W. -/
def wakeWord (s : State) (armed : Bool) (n : Nat) : Nat :=
  let w := s.radio.wake
  match n with
  | 0 => w.feed + 256 * w.channel + 65536 * w.id
  | 1 => b2n w.listen + 2 * b2n armed + 4 * b2n (wakeBlanked s)
  | 8 => w.lastAt.toNat % 2 ^ 32
  | 9 => w.lastAt.toNat / 2 ^ 32
  | 10 => toTwos 8 w.rssi
  | n => if 2 ≤ n ∧ n < 8 then halfAt s (R.RAD_W_FRAMES + (n - 2) / 2 * 8) n else 0

end Sys2Proof.Machine
end

