-- ==== Sys2Proof/Machine/TimeStep.lean ====
section
/-! DEFINITION. Machine/TimeStep.lean: what a step of the timebase does to the instants the device holds. A step changes the
numbers and not the run of things (R177, R350, R374): an instant that measures time elapsed moves with the timebase, an
instant that a command gave does not. -/

namespace Sys2Proof.Machine

/-- An instant in ns, moved by `d`. -/
def mv (d : Int) (t : Nat) : Nat := ((t : Int) + d).toNat

/-- An instant that 0 marks as not yet there. -/
def mv0 (d : Int) (t : Nat) : Nat := if t = 0 then 0 else mv d t

/-- Radios: the ends of their transient states and the requests that wait. -/
def Radio.moved (d : Int) (x : Radio) : Radio :=
  let q : TxReq → TxReq := fun q => { q with earliest := mv d q.earliest, latest := mv d q.latest }
  { x with endNs := mv d x.endNs, requests := x.requests.map q, relock := x.relock.map fun r => (r.1, mv d r.2) }

/-- Decode streams. -/
def Dec.moved (d : Int) (x : Dec) : Dec :=
  let a : AsmPic → AsmPic := fun p => { p with lastNs := mv d p.lastNs }
  let q : DecPic → DecPic := fun p => { p with lastNs := mv d p.lastNs }
  let c : Pic → Pic := fun p => { p with at_ := mv d p.at_ }
  { x with asm := x.asm.map a, queue := x.queue.map q, pics := x.pics.map c, clean := x.clean.map c }

/-- Compositions. -/
def Comp.moved (d : Int) (x : Comp) : Comp :=
  let t : Tile → Tile := fun t => { t with since := mv d t.since }
  let l : LayoutChange → LayoutChange := fun l => { l with fromNs := mv d l.fromNs }
  { x with t0 := mv d x.t0, tiles := x.tiles.map t, changes := x.changes.map l }

/-- Encode streams. -/
def Enc.moved (d : Int) (x : Enc) : Enc :=
  let q : SrcPic → SrcPic := fun p => { p with instant := mv d p.instant, deadline := mv d p.deadline }
  { x with queue := x.queue.map q, fullNs := mv d x.fullNs, keyNs := x.keyNs.map (mv d), swNs := x.swNs.map (mv d) }

/-- Forward set entries and sets. -/
def FwdEntry.moved (d : Int) (e : FwdEntry) : FwdEntry :=
  { e with wants := e.wants.map (fun w => (mv d w.1, w.2)), waitFrom := e.waitFrom.map (mv d), lastNs := mv0 d e.lastNs
           sentRate := e.sentRate.map fun r => (mv d r.1, r.2) }
def FwdSet.moved (d : Int) (f : FwdSet) : FwdSet :=
  let q : PacePkt → PacePkt := fun p => { p with eligible := mv d p.eligible }
  { f with entries := Tbl.each f.entries (fun _ => FwdEntry.moved d), audio := f.audio.map (fun a => (mv d a.1, a.2))
           records := f.records.map (fun r => (r.1, r.2.1, mv d r.2.2)), queue := f.queue.map q
           paceNs := mv d f.paceNs, backAt := f.backAt.map (mv d), srNs := mv d f.srNs }
def VStream.moved (d : Int) (v : VStream) : VStream :=
  { v with pkts := v.pkts.map (fun p => (mv d p.1, p.2)), picNs := mv0 d v.picNs }

/-- All of video. -/
def Video.moved (d : Int) (v : Video) : Video :=
  { v with decs := Tbl.each v.decs (fun _ => Dec.moved d), comps := Tbl.each v.comps (fun _ => Comp.moved d)
           encs := Tbl.each v.encs (fun _ => Enc.moved d), fwd := Tbl.each v.fwd (fun _ => FwdSet.moved d)
           streams := Tbl.each v.streams (fun _ => VStream.moved d), encOut := Tbl.each v.encOut (fun _ => VStream.moved d)
           evalNs := mv d v.evalNs }

/-- The mixer, its classes and the jitter buffers by `k` blocks: the run of blocks goes on under other numbers (R177). -/
def Jitter.moved (d k : Int) (j : Jitter) : Jitter :=
  { j with anchor := mv (48 * k) j.anchor, lateness := j.lateness.map fun e => (mv d e.1, e.2 + d) }
def MixLeg.moved (k : Int) (m : MixLeg) : MixLeg :=
  { m with lastActive := m.lastActive.map (mv k), lvlLow := m.lvlLow.map (mv k), since := mv k m.since, starved := m.starved.map (mv k) }
def MixClass.moved (k : Int) (c : MixClass) : MixClass :=
  { c with start := mv (48 * k) c.start, freeAt := c.freeAt.map (mv (48 * k)) }
def Audio.moved (d k : Int) (a : Audio) : Audio :=
  { a with legs := Tbl.each a.legs (fun _ => MixLeg.moved k), jitter := Tbl.each a.jitter (fun _ => Jitter.moved d k)
           lastBlock := a.lastBlock.map (mv k) }

/-- The frame edges of the audio ports go on without a break. -/
def Asp.moved (d : Int) (a : Asp) : Asp :=
  { a with ports := Tbl.each a.ports fun _ p => { p with lastStart := mv (1000 * d) p.lastStart } }

/-- The START of each running replay moves by the step (R374). -/
def Cap.moved (d : Int) (c : Cap) : Cap :=
  { c with sessions := Tbl.each c.sessions fun _ x =>
      if x.replay ∧ x.state = .running then { x with start := mv d x.start, reports := Tbl.each x.reports (fun _ => mv d) } else x }

/-- The stations' service periods and the wake-up beacon. -/
def Sta.moved (d : Int) (a : Sta) : Sta :=
  { a with twts := Tbl.each a.twts (fun _ t => { t with startNs := mv d t.startNs }), awakeTo := mv d a.awakeTo }
def Wlan.moved (d : Int) (w : Wlan) : Wlan :=
  { w with stas := Tbl.each w.stas (fun _ => Sta.moved d), wur.lastNs := mv0 d w.wur.lastNs
           bsss := Tbl.each w.bsss fun _ b => { b with
             bcast := Tbl.each b.bcast (fun _ t => { t with startNs := mv d t.startNs }), beaconNs := b.beaconNs.map (mv0 d) } }

/-- The timebase moves by `u` (2⁻⁴⁰ ns) at one edge-clock cycle (R350); the offsets of the domains move the other way; the
parameter swaps it passes take effect at once, in block order (R177). -/
def stepTimebase (u : Int) (s : State) : State :=
  let old := nowNs s
  let oldBlock := nowBlock s
  let tb := ((s.clock.tb : Int) + u).toNat
  let d := ((tb / nsUnit : Nat) : Int) - old
  let k := ((tb / nsUnit / 1000000 : Nat) : Int) - oldBlock
  let s := { s with
    clock.tb := tb
    radio.radios := Tbl.each s.radio.radios (fun _ => Radio.moved d)
    video := s.video.moved d, audio := s.audio.moved d k, asp := s.asp.moved d, cap := s.cap.moved d, wlan := s.wlan.moved d
    time.ppsNext := 0
    time.doms := Tbl.each s.time.doms fun _ x => { x with offset := x.offset - u / 16777216 } }
  let most := (s.audio.buses.map fun b => b.2.shadows.length).foldl max 0
  if 0 < k then (List.range most).foldl (fun s _ => swapBuses (nowBlock s) s) s else s

end Sys2Proof.Machine
end

