-- ==== Sys2Proof/Machine/Time.lean ====
section
/-! DEFINITION. Machine/Time.lean: the time unit: domains, following and switching, holdover, stepping, reference loss,
time-stamp queues, PPS and SyncE (R344–R357, R419). -/

namespace Sys2Proof.Machine

def domOf (s : State) (d : Nat) : TimeDomain := Tbl.getD s.time.doms d {}
def modDom (d : Nat) (f : TimeDomain → TimeDomain) (s : State) : State := { s with time.doms := Tbl.upd s.time.doms d {} f }
def domH (d : Nat) : Word := mkH 0x0E d

/-- A register of a domain's block, and of a queue's. -/
def domR (reg d : Nat) : Nat := reg + 0x80 * d
def tsqR (reg q : Nat) : Nat := reg + 0x10 * q

def DomState.num : DomState → Nat
  | .disabled => 0
  | .listening => 1
  | .uncalibrated => 2
  | .qualified => 3
  | .lost => 4

/-! ### Parameters of a domain (Table 15-6) -/

def TimeDomain.source (x : TimeDomain) : Nat := u8 x.params 0
def TimeDomain.number (x : TimeDomain) : Nat := u8 x.params 2
def TimeDomain.priority (x : TimeDomain) : Nat := u8 x.params 3
def TimeDomain.iface (x : TimeDomain) : Nat := u8 x.params 4
def TimeDomain.announceTimeout (x : TimeDomain) : Nat := if u8 x.params 9 = 0 then 3 else u8 x.params 9
def TimeDomain.lockNs (x : TimeDomain) : Nat := if u16 x.params 10 = 0 then 100 else u16 x.params 10

/-- An interval of 2^`l` s in cycles. -/
def logCycles (l : Int) : Nat := if l < 0 then 307200000 / 2 ^ (-l).toNat else 307200000 * 2 ^ l.toNat

/-! ### Offsets and rates -/

/-- A domain's offset now, in 2⁻¹⁶ ns: the estimate moves against the timebase by the difference of their rates. -/
def domOffset (s : State) (d : Nat) : Int :=
  let x := domOf s d
  x.offset + (x.rate - s.clock.rate) * (cyclesNs (s.clock.cycles - x.offAt) : Nat) / 1000000

/-- The rate in force changes, within ±200 ppm (R344); the offsets are brought up to date first. -/
def setRate (r : Int) (s : State) : State :=
  let now := s.clock.cycles
  let s := { s with time.doms := Tbl.each s.time.doms fun d x => { x with offset := domOffset s d, offAt := now } }
  { s with clock.rate := clampI (-13107200) 13107200 r }

/-- The rate of a timebase LOCKED on a domain: the domain's, and what the servo adds, which the spec leaves open. -/
def lockRate (d : Nat) (s : State) : State :=
  let (v, s) := takeFree s
  setRate ((domOf s d).rate + signed 32 v) s

/-- The rate while slewing towards a domain (R348). -/
def slewRate (d : Nat) (s : State) : State :=
  let ppm : Int := rgBits s R.TMU_CTRL 15 8 * 65536
  setRate ((domOf s d).rate + (if s.time.slewD < 0 then -ppm else ppm)) s

/-- The offset left to slew, in ns (TMU_SLEW_REMAIN). -/
def slewRemain (s : State) : Int :=
  match s.time.slewEnd with
  | none => 0
  | some e =>
    let span := e - s.time.slewAt
    s.time.slewD * ((e - s.clock.cycles : Nat) : Int) / (max 1 span : Nat)

/-! ### State of the timebase (R347–R349) -/

/-- The time spent in HOLDOVER or REF_LOST is counted when it ends. -/
def leaveHold (s : State) : State :=
  match s.time.holdAt with
  | none => s
  | some a => { bumpBy R.TMU_HOLDOVER_MS (cyclesMs (s.clock.cycles - a)) s with time.holdAt := none }

def enterHold' (s : State) : State :=
  if s.time.holdAt.isSome then s else { s with time.holdAt := some s.clock.cycles }

/-- The mean rate of the last followed domain over HOLD_AVG_S (R349). -/
def holdRate (s : State) : Int :=
  match s.time.last with
  | none => s.clock.rate
  | some d =>
    let x := domOf s d
    let from_ := s.clock.cycles - 307200000 * rgBits s R.TMU_HOLD_CFG 7 0
    let l := (x.rates.filter fun e => decide (from_ ≤ e.1)).map Prod.snd
    if l = [] then x.rate else l.foldl (· + ·) 0 / (l.length : Int)

/-- The timebase enters HOLDOVER (R349). -/
def toHoldover (s : State) : State :=
  let s := setRate (holdRate s) s
  let s := enterHold' { s with time.state := .holdover, time.sel := none, time.slewEnd := none }
  raise Ev.TIME_HOLDOVER 0 (leN (s.time.last.getD 0xFF) 1 ++ leN 0 3
      ++ leN (toTwos 32 (if s.time.last.isSome then s.clock.rate else 0)) 4) (bump R.TMU_HOLDOVERS s)

/-- The timebase moves to domain `d` by slewing (R348). -/
def switchTo (d cause : Nat) (s : State) : State :=
  let from_ := s.time.sel.getD 0xFF
  let D := domOffset s d / 65536
  let ms := D.natAbs / max 1 (rgBits s R.TMU_CTRL 15 8)
  let s := leaveHold s
  let s := { s with time.sel := some d, time.last := some d, time.slewD := D, time.slewAt := s.clock.cycles }
  let s := if D = 0 then lockRate d { s with time.state := .locked, time.slewEnd := none }
    else slewRate d { s with
      time.state := .slewing
      time.slewEnd := some (s.clock.cycles + D.natAbs * 307200 / max 1 (rgBits s R.TMU_CTRL 15 8)) }
  raise Ev.TIME_SWITCH (domH d) (leN from_ 1 ++ leN d 1 ++ leN cause 1 ++ leN 0 1 ++ leN (toTwos 64 D) 8 ++ leN (min ms 0xFFFFFFFF) 4)
    (bump R.TMU_SWITCHES s)

/-- The QUALIFIED domains. -/
def qualified (s : State) (d : Nat) : Bool := (domOf s d).state == .qualified

/-- Domain `d` is the better choice than `o` (R347). -/
def better (s : State) (d o : Nat) : Bool :=
  decide ((domOf s d).priority < (domOf s o).priority) || ((domOf s d).priority == (domOf s o).priority && decide (d < o))

def autoSelect (s : State) : Bool := bit (rgRaw s R.TMU_CTRL) 0

/-- The domain to follow among those QUALIFIED: in auto the better one, else the named one (R347). -/
def choice (s : State) : Option Nat :=
  match qualified s 0, qualified s 1 with
  | false, false => none
  | true, false => some 0
  | false, true => some 1
  | true, true => some (if autoSelect s then (if better s 1 0 then 1 else 0) else s.time.named % 2)

/-- The domain to follow now, given that a better one takes over only once QUALIFIED for 10 s (R347). -/
def choiceNow (s : State) : Option Nat :=
  match choice s, s.time.sel with
  | some c, some f =>
    if autoSelect s ∧ c ≠ f ∧ qualified s f ∧ s.clock.cycles < (domOf s c).qualAt + msCycles 10000 then some f else some c
  | c, _ => c

/-- The domain followed is no longer QUALIFIED: the switch is re-evaluated (R347–R349). -/
def reselect (s : State) : State :=
  match choice s with
  | some d => switchTo d 2 s
  | none => toHoldover s

/-- TIME_STEPPED, counted. -/
def noteStep (cause : Nat) (d : Int) (s : State) : State :=
  raise Ev.TIME_STEPPED 0 (leN cause 1 ++ leN 0 3 ++ leN (toTwos 64 d) 8) (bump R.TMU_STEPS s)

/-- The step of the first lock (R345, R350), which acts as mode 2. -/
def firstLock (d : Nat) (s : State) : State :=
  let o := domOffset s d
  let old := nowNs s
  let s := stepTimebase (o * 16777216) s
  let s := lockRate d { s with time.state := .locked, time.sel := some d, time.last := some d, time.locked := true, time.slewEnd := none }
  noteStep 0 ((nowNs s : Int) - old) s

/-! ### Domains (R346) -/

/-- A domain's change of state raises TIME_DOMAIN_STATE; leaving QUALIFIED is counted. -/
def domState (d : Nat) (new : DomState) (cause : Nat) (s : State) : State :=
  let old := (domOf s d).state
  if old = new then s
  else
    let s := if old = .qualified then bump (domR R.TMU_D_QUALIFY_LOSSES d) s else s
    raiseUnless R.TMU_EVENT_MASK 0 Ev.TIME_DOMAIN_STATE (domH d) (leN old.num 1 ++ leN new.num 1 ++ leN cause 1)
      (modDom d (fun x => { x with state := new, run := 0, large := false }) s)

/-- A domain leaves the states in which it has a master. -/
def loseDomain (d cause : Nat) (s : State) : State :=
  match (domOf s d).state with
  | .disabled | .lost | .listening => s
  | _ =>
    let s := domState d .lost cause s
    if s.time.sel = some d then reselect s else s

/-- A domain has become QUALIFIED. -/
def onQualified (d : Nat) (s : State) : State :=
  if s.time.intOsc then s
  else
    match s.time.state with
    | .unset => firstLock d s
    | _ =>
      match s.time.sel with
      | none => switchTo d 0 s
      | some f => if ¬ autoSelect s ∧ s.time.named = d ∧ f ≠ d then switchTo d 0 s else s

/-- The offset alarm of the selected domain (R345), and the largest magnitude. -/
def checkOffset (d : Nat) (s : State) : State :=
  let o := domOffset s d
  let s := setRg (domR R.TMU_D_OFFSET_MAX d) (min 0xFFFFFFFF (max (rgRaw s (domR R.TMU_D_OFFSET_MAX d)) (o.natAbs / 65536))) s
  if s.time.sel ≠ some d then s
  else
    let large := decide (rgBits s R.TMU_CTRL 31 16 * 1000 < o.natAbs / 65536)
    if large ∧ ¬ (domOf s d).large then
      raise Ev.TIME_OFFSET_LARGE (domH d) (leN 0 4 ++ leN (toTwos 64 (o / 65536)) 8) (modDom d (fun x => { x with large := true }) s)
    else modDom d (fun x => { x with large }) s

/-- A Sync, a timing measurement or an edge of PPS_IN updates the estimate (R346). -/
def domSync (d : Nat) (offset rate : Int) (pathDelay predErr : Nat) (logInt : Int) (s : State) : State :=
  let now := s.clock.cycles
  let s := bump (domR R.TMU_D_SYNC_RX d) s
  let s := if (domOf s d).state = .listening then domState d .uncalibrated 0 s else s
  let s := modDom d (fun x => { x with
    offset, offAt := now, rate, pathDelay, logSync := logInt, syncAt := now
    rates := x.rates.filter (fun e => decide (now < e.1 + 307200000 * 256)) ++ [(now, rate)]
    run := if predErr ≤ x.lockNs then x.run + 1 else 0 }) s
  let s := checkOffset d s
  let x := domOf s d
  if x.state = .uncalibrated ∧ 16 ≤ x.run then
    onQualified d (modDom d (fun x => { x with qualAt := now }) (domState d .qualified 0 s))
  else if x.state = .qualified ∧ s.time.state = .unset ∧ ¬ s.time.intOsc then firstLock d s
  else if s.time.sel = some d ∧ s.time.state = .locked then lockRate d s
  else if s.time.sel = some d ∧ s.time.state = .slewing then slewRate d s
  else s

/-- A PTP, 802.1AS or timing measurement message reaches one domain: a LOST domain returns to LISTENING; a changed
grandmaster makes it LOST. Message types 9 and 3 answer a request the device had sent. -/
def domMessage (v : PtpView) (s : State) (d : Nat) : State :=
  let x := domOf s d
  let filter := u64 x.params 16
  let now := s.clock.cycles
  let isSync := v.kind == 0
  if ¬ (filter = 0 ∨ filter = v.gmId) then s
  else
    match x.state with
    | .disabled => s
    | .lost => modDom d (fun x => { x with gmId := v.gmId, annAt := now }) (domState d .listening 0 s)
    | st =>
      if v.kind = 9 ∨ v.kind = 3 then bump (domR R.TMU_D_DELAY_REQ_TX d) (modDom d (fun x => { x with pathDelay := v.pathDelay }) s)
      else if (st = .uncalibrated ∨ st = .qualified) ∧ x.gmId ≠ v.gmId then
        loseDomain d 6 (modDom d (fun x => { x with gmId := v.gmId }) s)
      else
        let s := modDom d (fun x => { x with gmId := v.gmId, annAt := if st = .listening then now else x.annAt }) s
        if isSync then domSync d v.offset v.rate v.pathDelay v.predErr v.logInt s
        else if v.kind = 11 then
          bump (domR R.TMU_D_ANNOUNCE_RX d)
            (modDom d (fun x => { x with annAt := now, logAnn := v.logInt, quality := v.quality }) s)
        else s

/-- A time message received on interface `iface` reaches the domains that listen there (R346). -/
def ptpReceive (iface : Nat) (v : PtpView) (s : State) : State :=
  [0, 1].foldl (fun s d =>
    let x := domOf s d
    if x.source ≠ 0 ∧ x.source ≠ 5 ∧ x.iface = iface ∧ (x.source = 4 ∨ x.number = v.domain) then domMessage v s d else s) s

/-- A sub-port's link goes down (cause 3), or the parent of the uplink is lost (cause 4). -/
def domainsLose (iface cause : Nat) (s : State) : State :=
  [0, 1].foldl (fun s d =>
    let x := domOf s d
    if x.source ≠ 0 ∧ x.source ≠ 5 ∧ x.iface = iface then loseDomain d cause s else s) s

/-- DOMAIN_TIMEOUT (R346): 3 Sync intervals without a Sync, or ANNOUNCE_TIMEOUT Announce intervals without an Announce. -/
def domainTimeout (d : Nat) (announce : Bool) (s : State) : State :=
  let x := domOf s d
  if (x.state = .uncalibrated ∨ x.state = .qualified) ∧ (¬ announce ∨ (1 ≤ x.source ∧ x.source ≤ 3)) then
    let due := if announce then x.annAt + x.announceTimeout * logCycles x.logAnn else x.syncAt + 3 * logCycles x.logSync
    loseDomain d (if announce then 2 else 1) (tickTo due s)
  else s

/-- DOMAIN_TIMEOUT (R346). -/
def execDomainTimeout (dom : Nat) (announce : Bool) (s : State) : Out := .next (domainTimeout dom announce s)

/-- DOMAIN_TAKEOVER (R347): the better domain has been QUALIFIED for 10 s. -/
def domainTakeover (d : Nat) (s : State) : State :=
  match s.time.sel with
  | some f =>
    if autoSelect s ∧ d ≠ f ∧ qualified s d ∧ better s d f ∧ ¬ s.time.intOsc then
      switchTo d 0 (tickTo ((domOf s d).qualAt + msCycles 10000) s)
    else s
  | none => s

/-- DOMAIN_TAKEOVER (R347). -/
def execDomainTakeover (dom : Nat) (s : State) : Out := .next (domainTakeover dom s)

/-- SLEW_COMPLETE (R348): the offset is removed. -/
def slewComplete (s : State) : State :=
  match s.time.slewEnd, s.time.sel with
  | some e, some d => lockRate d { tickTo e s with time.state := .locked, time.slewEnd := none }
  | _, _ => s

/-- SLEW_COMPLETE (R348). -/
def execSlewComplete (s : State) : Out := .next (slewComplete s)

/-! ### TIME_DOMAIN_SET and TIME_SELECT -/

/-- A radio in the UPLINK_STA role with timing measurement set. -/
def uplinkTiming (s : State) : Bool := s.wlan.roles.any fun e => e.2.role == 2 && bit e.2.rflags 0

/-- TIME_DOMAIN_SET (R346, Table 15-6). -/
def timeDomainPlan (c : Cmd) (s : State) : Plan :=
  let p := c.params
  let d := hIdx c.handle
  let o := domOf s (1 - d)
  { op := 0x0E01, handleOk := handleIn s [0x0E] c.handle, touches := [c.handle], len := some 32
    state := if u8 p 0 = 4 ∧ ¬ uplinkTiming s then some (wrongState 2) else none
    param := firstBad
      [ (decide (u8 p 0 ≤ 5), badParam 0), (decide (u8 p 1 < 4), badParam 1)
      , (!(u8 p 0 != 0 && u8 p 0 == o.source && u8 p 4 == o.iface && u8 p 2 == o.number), badParam 2)
      , (decide (u8 p 3 ≤ 15), badParam 3)
      , (if u8 p 0 = 4 then u8 p 4 == 32 else decide (u8 p 4 < 32), badParam 4)
      , (decide (-7 ≤ i8 p 5 ∧ i8 p 5 ≤ 4), badParam 5), (decide (u16 p 6 < 4096), badParam 6)
      , (u8 p 9 == 0 || decide (2 ≤ u8 p 9 ∧ u8 p 9 ≤ 10), badParam 9)
      , (u16 p 10 == 0 || decide (10 ≤ u16 p 10 ∧ u16 p 10 ≤ 10000), badParam 10) ]
    run := fun s =>
      let s := domState d (if u8 p 0 = 0 then .disabled else .listening) 5 s
      let st := (domOf s d).state
      let s := modDom d (fun _ => { state := st, params := p.take 32, annAt := s.clock.cycles }) s
      .ok (if s.time.sel = some d then reselect s else s) }

/-- TIME_DOMAIN_SET (R346). -/
def execTimeDomainSet (c : Cmd) (s : State) : Out := .next (hostCmd 0x0E01 timeDomainPlan c s)

/-- TIME_SELECT (R347). -/
def timeSelectPlan (c : Cmd) (s : State) : Plan :=
  let p := c.params
  let d := u8 p 1
  { op := 0x0E02, handleOk := handleDev c.handle, touches := [devH]
    state := if u8 p 0 = 1 ∧ d ≤ 1 ∧ ¬ qualified s d then some ⟨St.TIME_DOMAIN_UNQUALIFIED, d⟩ else none
    param := firstBad [(decide (u8 p 0 ≤ 1), badParam 0), (u8 p 0 != 1 || decide (d ≤ 1), badParam 1)]
    run := fun s =>
      let s := setRg R.TMU_CTRL (setBit (rgRaw s R.TMU_CTRL) 0 (u8 p 0 == 0)) s
      let s := if u8 p 0 = 1 then { s with time.named := d } else s
      let none_ : Done := .okWith s (leN 0 16)
      if s.time.intOsc ∨ s.time.state = .unset then none_
      else
        match choiceNow s with
        | none => none_
        | some n =>
          if s.time.sel = some n then none_
          else
            let s := switchTo n 1 s
            .okWith s (leN (toTwos 64 s.time.slewD) 8 ++ leN (s.time.slewD.natAbs / max 1 (rgBits s R.TMU_CTRL 15 8)) 4 ++ leN 0 4) }

/-- TIME_SELECT (R347). -/
def execTimeSelect (c : Cmd) (s : State) : Out := .next (hostCmd 0x0E02 timeSelectPlan c s)

/-! ### TIME_STEP (R350) -/

/-- The step a TIME_STEP asks for, in 2⁻⁴⁰ ns. -/
def stepUnits (p : List Byte) (s : State) : Int :=
  match u8 p 0 with
  | 0 => i64 p 8 * nsUnit
  | 1 => ((uN p 16 6 * 1000000000 + u32 p 24) * nsUnit : Nat) - (s.clock.tb : Int)
  | _ => domOffset s (s.time.sel.getD 0) * 16777216

/-- The timebase after a step lies within its range. -/
def stepFits (p : List Byte) (s : State) : Bool :=
  decide (0 ≤ (s.clock.tb : Int) + stepUnits p s ∧ (s.clock.tb : Int) + stepUnits p s < tbRange)

/-- The commanded step; out of UNSET the timebase enters HOLDOVER, or REF_LOST on the internal oscillator. -/
def timeStep (p : List Byte) (s : State) : State × Int :=
  let old := nowNs s
  let s := stepTimebase (stepUnits p s) s
  let d := (nowNs s : Int) - old
  let s := match u8 p 0, s.time.sel with
    | 2, some f => lockRate f { s with time.state := .locked, time.slewEnd := none }
    | _, _ => s
  let s := noteStep 1 d s
  let s := if s.time.state = .unset then
      (if s.time.intOsc then enterHold' { s with time.state := .refLost } else toHoldover s)
    else s
  (s, d)

/-- TIME_STEP (R350). -/
def timeStepPlan (c : Cmd) (s : State) : Plan :=
  let p := c.params
  let sel := s.time.sel.any (qualified s)
  { op := 0x0E03, handleOk := handleDev c.handle, touches := [devH], len := some 32
    state := if u8 p 0 ≤ 1 ∧ sel then some (wrongState 1)
      else if u8 p 0 = 2 ∧ ¬ sel then some ⟨St.TIME_DOMAIN_UNQUALIFIED, 0xFF⟩ else none
    param := firstBad
      [ (decide (u8 p 0 ≤ 2), badParam 0), (u8 p 0 != 2 || stepFits p s, badParam 0)
      , (u8 p 0 != 0 || stepFits p s, badParam 8), (u8 p 0 != 1 || decide (u32 p 24 ≤ 999999999), badParam 0x18) ]
    run := fun s =>
      let r := timeStep p s
      .okWith r.1 (leN (toTwos 64 r.2) 8) }

/-- TIME_STEP (R350). -/
def execTimeStep (c : Cmd) (s : State) : Out := .next (hostCmd 0x0E03 timeStepPlan c s)

/-! ### The reference (R351, R352) -/

/-- XO_IN is lost: the timebase runs on the internal oscillator, no domain is followed. -/
def refLost (s : State) : State :=
  let s := { bump R.TMU_REF_LOSSES s with time.intOsc := true, time.lostAt := some s.clock.cycles, time.sel := none, time.slewEnd := none }
  if s.time.state = .unset then s else enterHold' { s with time.state := .refLost }

/-- REFCLK_LOST (R351). -/
def refclkLost (cause : Nat) (s : State) : State :=
  if s.time.intOsc then s else radiosHold (raise Ev.REFCLK_LOST 0 (leN cause 1) (refLost s))

/-- REFCLK_LOST (R351). -/
def execRefclkLost (cause : Nat) (s : State) : Out := .next (refclkLost cause s)

/-- REFCLK_RESTORED (R352). -/
def refclkRestored (s : State) : State :=
  match s.time.intOsc, s.time.lostAt with
  | true, at_ =>
    let ms := cyclesMs (s.clock.cycles - at_.getD s.clock.cycles)
    let s := raise Ev.REFCLK_RESTORED 0 (leN 0 4 ++ leN (min ms 0xFFFFFFFF) 4) { s with time.intOsc := false, time.lostAt := none }
    let s := radiosRelock s
    if s.time.state = .unset then s
    else match choice s with
      | some d => switchTo d 0 s
      | none => toHoldover s
  | false, _ => s

/-- REFCLK_RESTORED (R352). -/
def execRefclkRestored (s : State) : Out := .next (refclkRestored s)

/-! ### Transmit time-stamp queues (R354) -/

def queueOf (s : State) (q : Nat) : List TsEntry := Tbl.getD s.time.queues q []

/-- A stamp enters a queue, or is lost where the queue is full. -/
def tsInsert (q id port flags : Nat) (s : State) : State :=
  if 10 < q then s
  else if (queueOf s q).length < 64 then
    { s with time.queues := Tbl.put s.time.queues q (queueOf s q ++ [{ id, port, flags, stamp := s.clock.tb / 16777216 }]) }
  else
    let s := bump (tsqR R.TMU_Q_LOST_TS q) (bump R.TMU_LOST_TS s)
    let key := tsqR R.TMU_Q_FLAGS q
    if bit (rgRaw s key) 0 then s
    else raiseUnless R.TMU_EVENT_MASK 1 Ev.TS_QUEUE_OVERFLOW 0
      (leN q 1 ++ leN 0 3 ++ leN (min 0xFFFFFFFF (rgRaw s (tsqR R.TMU_Q_LOST_TS q))) 4) (setRg key (setBit (rgRaw s key) 0 true) s)

/-- TS_QUEUE_INSERT (R354). -/
def execTsQueueInsert (queue id port flags : Nat) (s : State) : Out := .next (tsInsert queue id port flags s)

/-- The 16 bytes of a queue entry (Table 15-4). -/
def TsEntry.bytes (e : TsEntry) : List Byte :=
  let ns := e.stamp / 65536
  leN e.id 2 ++ leN e.port 1 ++ leN e.flags 1 ++ leN (ns / 1000000000) 6 ++ leN (ns % 1000000000) 4 ++ leN (e.stamp % 65536) 2

/-- TS_QUEUE_READ (R354). -/
def tsQueueReadPlan (c : Cmd) (_ : State) : Plan :=
  let p := c.params
  let q := u8 p 0
  { op := 0x0E04, priv := 0, handleOk := handleDev c.handle
    param := firstBad [(decide (q ≤ 10), badParam 0), (decide (u8 p 1 ≤ 64), badParam 1), (decide (u8 p 2 ≤ 1), badParam 2)]
    run := fun s =>
      let n := if u8 p 1 = 0 then 64 else u8 p 1
      let es := (queueOf s q).take n
      let flags := rgRaw s (tsqR R.TMU_Q_FLAGS q)
      let lost := rgRaw s (tsqR R.TMU_Q_LOST_TS q)
      let s := { s with time.queues := Tbl.put s.time.queues q ((queueOf s q).drop n) }
      let s := if u8 p 2 = 1 then setRg (tsqR R.TMU_Q_FLAGS q) (setBit flags 0 false) s else s
      .reply s St.OK 0 es.length (leN es.length 1 ++ leN (flags % 2) 1 ++ leN 0 2 ++ leN lost 4 ++ es.flatMap TsEntry.bytes) }

/-- TS_QUEUE_READ (R354). -/
def execTsQueueRead (c : Cmd) (s : State) : Out := .next (hostCmd 0x0E04 tsQueueReadPlan c s)

/-! ### PPS and SyncE (R356, R357) -/

/-- SyncE output `o` is enabled and its sub-port's link is down. -/
def synceDown (s : State) (o : Nat) : Bool := bit s.time.pflags (3 + o) && !ifaceUp s (s.time.synceIf.getD o 0)

/-- The SyncE outputs are held low or restored as their sub-ports' links are (R357). -/
def synceFollow (s : State) : State :=
  [0, 1].foldl (fun s o =>
    let said := s.time.squelched.contains o
    let down := synceDown s o
    if down = said then s
    else
      let s := { s with time.squelched := if down then s.time.squelched ++ [o] else s.time.squelched.filter (· != o) }
      if ¬ down ∧ ¬ bit s.time.pflags (3 + o) then s
      else raiseUnless R.TMU_EVENT_MASK 2 Ev.SYNCE_SQUELCH 0 (leN o 1 ++ leN (b2n (!down)) 1 ++ leN (s.time.synceIf.getD o 0) 1) s) s

/-- PPS_CONFIG (R356, R357, Table 15-8). -/
def ppsConfigPlan (c : Cmd) (_ : State) : Plan :=
  let p := c.params
  { op := 0x0E05, handleOk := handleDev c.handle, touches := [devH], len := some 16
    param := firstBad
      [ (decide (u8 p 0 < 32), badParam 0), (decide (u8 p 2 < 32), badParam 2), (decide (u8 p 3 < 32), badParam 3)
      , (decide (1 ≤ u32 p 4 ∧ u32 p 4 ≤ 500000), badParam 4)
      , (decide (-500000000 ≤ i32 p 8 ∧ i32 p 8 ≤ 500000000), badParam 8)
      , (decide (1 ≤ u8 p 12), badParam 12), (decide (1 ≤ u8 p 13), badParam 13) ]
    run := fun s => .ok (synceFollow { s with
      time.pflags := u8 p 0, time.synceIf := [u8 p 2, u8 p 3], time.synceDiv := [u8 p 12, u8 p 13]
      time.widthUs := u32 p 4, time.offsetNs := i32 p 8, time.ppsNext := 0 }) }

/-- PPS_CONFIG (R356). -/
def execPpsConfig (c : Cmd) (s : State) : Out := .next (hostCmd 0x0E05 ppsConfigPlan c s)

/-- PPS_OUT_EDGE (R356): the next rising edge, OFFSET_NS after a second boundary, on edge domain 75; the pulse is WIDTH_US. -/
def ppsOutEdge (s : State) : State :=
  if ¬ bit s.time.pflags 0 then s
  else
    let now := max (nowNs s) s.time.ppsNext
    let k := ((now : Int) - s.time.offsetNs + 999999999) / 1000000000
    let at_ := (k * 1000000000 + s.time.offsetNs).toNat
    let s := tickToNs at_ s
    emit (.signal 75 0 s.time.widthUs) { s with time.ppsNext := at_ + 1 }

/-- PPS_OUT_EDGE (R356). -/
def execPpsOutEdge (s : State) : Out := .next (ppsOutEdge s)

/-- The signed distance of now from the nearest second, in 2⁻¹⁶ ns. -/
def fromSecond (s : State) : Int :=
  let f := s.clock.tb / 16777216 % 65536000000000
  if f ≤ 32768000000000 then f else (f : Int) - 65536000000000

/-- PPS_IN_EDGE (R356): the edge is stamped, and a domain of source 5 takes it as its Sync; the rate its servo estimates is
free. -/
def ppsInEdge (s : State) : State :=
  if ¬ bit s.time.pflags 1 then s
  else
    let o := fromSecond s
    let s := { s with time.ppsIn := o / 65536 }
    [0, 1].foldl (fun s d =>
      let x := domOf s d
      if x.source ≠ 5 then s
      else
        match x.state with
        | .disabled => s
        | .lost => domState d .listening 0 s
        | _ =>
          let (v, s) := takeFree s
          domSync d (-o) (signed 32 v) 0 ((domOffset s d + o).natAbs / 65536) 0 s) s

/-- PPS_IN_EDGE (R356). -/
def execPpsInEdge (s : State) : Out := .next (ppsInEdge s)

/-! ### TIME_QUERY and the registers -/

def TmuState.num : TmuState → Nat
  | .unset => 0
  | .locked => 1
  | .slewing => 2
  | .holdover => 3
  | .refLost => 4

/-- TMU_STATUS (Table 15-9). -/
def tmuStatus (s : State) : Nat :=
  s.time.state.num + 16 * (s.time.sel.getD (s.time.last.getD 0)) + 32 * b2n s.time.locked + 64 * b2n s.time.intOsc
    + 256 * b2n (s.time.squelched.contains 0) + 512 * b2n (s.time.squelched.contains 1)

/-- TMU_HOLDOVER_MS up to now. -/
def holdMs (s : State) : Nat :=
  satAdd 64 (rgRaw s R.TMU_HOLDOVER_MS) ((s.time.holdAt.map fun a => cyclesMs (s.clock.cycles - a)).getD 0)

/-- The four words of the time, at `tb`. -/
def timeWords (tb : Nat) : List Nat :=
  [ tb / nsUnit / 1000000000 / 2 ^ 32, tb / nsUnit / 1000000000 % 2 ^ 32, tb / nsUnit % 1000000000, tb / 16777216 % 65536 ]

/-- Syncs missed in a row. -/
def missedSyncs (s : State) (x : TimeDomain) : Nat :=
  if x.state = .disabled ∨ x.syncAt = 0 then 0 else min 255 ((s.clock.cycles - x.syncAt) / max 1 (logCycles x.logSync))

/-- Word `n` of a domain's block (Table 15-10). -/
def domWord (s : State) (d n : Nat) : Nat :=
  let x := domOf s d
  let off := toTwos 64 (domOffset s d)
  match n with
  | 0 => x.source + 8 * bits (u8 x.params 1) 1 0 + 256 * x.number + 65536 * (x.iface % 64) + 2 ^ 24 * x.priority
  | 1 => x.state.num + 8 * b2n (s.time.sel == some d) + 256 * toTwos 8 x.logSync + 65536 * missedSyncs s x
  | 2 => off % 2 ^ 32
  | 3 => off / 2 ^ 32
  | 4 => toTwos 32 x.rate
  | 5 => x.pathDelay % 2 ^ 32
  | 6 => x.gmId % 2 ^ 32
  | 7 => x.gmId / 2 ^ 32 % 2 ^ 32
  | 8 => x.quality % 2 ^ 32
  | 17 => rgRaw s (domR R.TMU_D_OFFSET_MAX d)
  | 18 => if x.params = [] then 0 else x.lockNs + 65536 * x.announceTimeout
  | n => if 9 ≤ n ∧ n < 17 then halfAt s (domR (R.TMU_D_SYNC_RX + (n - 9) / 2 * 8) d) (n - 9) else 0

/-- TIME_QUERY: on the device TMU_STATUS to TMU_XO_MEAS, the last a measurement and free; on a domain its block. -/
def timeQueryPlan (c : Cmd) (s : State) : Plan :=
  { op := 0x0E06, priv := 0, handleOk := handleDev c.handle || handleIn s [0x0E] c.handle
    run := fun s =>
      if c.handle = devH then
        let (v, s) := takeFree s
        .okWith s (([tmuStatus s, rgRaw s R.TMU_EVENT_MASK] ++ timeWords s.clock.tb
          ++ [toTwos 32 s.clock.rate, toTwos 32 (clampI (-2147483648) 2147483647 (slewRemain s)), v]).flatMap fun w => leN w 4)
      else .okWith s ((List.range 32).flatMap fun n => leN (domWord s (hIdx c.handle) n) 4) }

/-- TIME_QUERY (R344). -/
def execTimeQuery (c : Cmd) (s : State) : Out := .next (hostCmd 0x0E06 timeQueryPlan c s)

end Sys2Proof.Machine
end

