-- ==== Sys2Proof/Machine/Capture.lean ====
section
/-! DEFINITION. Machine/Capture.lean: the capture and replay commands and what replays do at their instants (R358–R377). -/

namespace Sys2Proof.Machine

def sesOf (s : State) (i : Nat) : Session := (Tbl.get? s.cap.sessions i).getD {}
def sesH (i : Nat) : Word := mkH 0x0F i

def SesState.num : SesState → Nat
  | .idle => 1
  | .running => 2
  | .armed => 3
  | .triggered => 4
  | .loaded => 5
  | .scheduled => 6
  | .done => 7

/-- A session that holds its engine: it refuses EMBER entry. -/
def Session.busy (x : Session) : Bool :=
  x.state == .running || x.state == .armed || x.state == .triggered || x.state == .scheduled

/-- WRONG_STATE, detail 0x0004, where a session is of the other type (R359). -/
def typeErr (s : State) (i : Nat) (replay : Bool) : Option Err :=
  if (sesOf s i).replay == replay then none else some (wrongState 4)

/-- The filters of a session. -/
def filtersOf (s : State) (i : Nat) : List (Nat × CapFilter) := s.cap.filters.filter fun f => f.2.session == i

/-- POLICY_FORBIDS, detail 2, where KEY_EXPORT is not set (R362). -/
def exportErr (s : State) (needs : Bool) : Option Err :=
  if needs ∧ ¬ policyBit s 2 then some ⟨St.POLICY_FORBIDS, 2⟩ else none

/-! ### Sessions (R358, Table 16-5) -/

/-- The region of a session: unmirrored, all 32 channels, 4 KiB granules; those retired are lost from the start. -/
def sesRegion (s : State) (i sizeMib : Nat) : Region :=
  { sizeMib, channels := 2 ^ 32 - 1, rflags := 4, lost := allChans.filter (chanRetired s), users := [sesH i] }

/-- CAP_SESSION_CREATE (R358). -/
def capSessionPlan (c : Cmd) (s : State) : Plan :=
  let p := c.params
  let new := newIndex s.cap.sessions c.handle 0 16
  let reg := Tbl.lowestFree s.dram.regions 0 512
  let fits := regionsFit s (sesRegion s 0 (u32 p 4) :: Tbl.vals s.dram.regions)
  { op := 0x0F01, handleOk := handleNew 0x0F c.handle, touches := [c.handle], len := some 16
    state := notFree 0x0F01 s.cap.sessions c.handle
    param := firstBad
      [ (decide (u8 p 0 < 2), badParam 0), (decide (u8 p 1 < if u8 p 0 = 0 then 3 else 1), badParam 1)
      , (decide (64 ≤ u32 p 4) && decide (u32 p 4 ≤ 65536) && u32 p 4 % 64 == 0, badParam 4)
      , (u8 p 0 != 0 || u8 p 1 != 2 || decide (1 ≤ u32 p 12), badParam 12) ]
    res := if ¬ fits ∨ reg.isNone then some (noResource 0x31) else if new.isNone then some (noResource 0x80) else none
    run := fun s =>
      let i := new.getD 0
      let r := reg.getD 0
      let x : Session := { replay := u8 p 0 == 1, mode := u8 p 1, sizeMib := u32 p 4, pre := u32 p 8, post := u32 p 12, region := r
                           badCh := allChans.filter (chanRetired s) }
      .okWith { s with cap.sessions := Tbl.put s.cap.sessions i x, dram.regions := Tbl.put s.dram.regions r (sesRegion s i (u32 p 4)) }
        (leN (sesH i).toNat 4 ++ leN (regionH r).toNat 4) }

def execCapSessionCreate (c : Cmd) (s : State) : Out := .next (hostCmd 0x0F01 capSessionPlan c s)

/-! ### Filters (R361, R362, Table 16-6) -/

def newFilter (i : Nat) (p : List Byte) : CapFilter :=
  { session := i, action := u8 p 2, point := u8 p 3, kinds := u8 p 4, match_ := u8 p 5, sample := u8 p 6, ports := u32 p 8
    object := BitVec.ofNat 32 (u32 p 12), snap := u16 p 16, offset := u16 p 18, value := slice p 24 16, mask := slice p 40 16 }

/-- OBJECT names what MATCH and KINDS need. -/
def filterObjectOk (s : State) (p : List Byte) : Bool :=
  (u8 p 5 != 2 || paramHandle s [2] (u32 p 12)) && (u8 p 5 != 3 || paramHandle s [0x0A] (u32 p 12))
    && (!bit (u8 p 4) 4 || u8 p 5 == 2 || u8 p 5 == 3 || paramHandle s [0x12] (u32 p 12))

/-- CAP_FILTER_SET (R361, R362). -/
def capFilterPlan (c : Cmd) (s : State) : Plan :=
  let p := c.params
  let i := hIdx c.handle
  let n := u8 p 0
  let set := u8 p 1 == 1
  let others := match Tbl.get? s.cap.filters n with
    | some f => f.session != i
    | none => false
  { op := 0x0F02, handleOk := handleIn s [0x0F] c.handle, touches := [c.handle], len := some 64
    state := typeErr s i false <|> (if others then some (wrongState 3) else none)
    param := firstBad
      [ (decide (n < 64), badParam 0), (u8 p 1 == 1 || u8 p 1 == 2, badParam 1)
      , (!set || decide (u8 p 2 < 4), badParam 2), (!set || decide (u8 p 3 < 2), badParam 3)
      , (!set || decide (u8 p 4 < 32), badParam 4), (!set || decide (u8 p 5 < 4), badParam 5)
      , (!set || decide (u8 p 6 ≤ 16), badParam 6), (!set || filterObjectOk s p, badParam 12)
      , (!set || u16 p 16 == 0 || (u16 p 16 % 8 == 0 && decide (u16 p 16 ≤ 9216)), badParam 16)
      , (!set || decide (u16 p 18 ≤ 1024), badParam 18) ]
    res := exportErr s (set && (u8 p 3 == 1 || bit (u8 p 4) 4))
    run := fun s => .ok { s with cap.filters := if set then Tbl.put s.cap.filters n (newFilter i p) else Tbl.del s.cap.filters n } }

def execCapFilterSet (c : Cmd) (s : State) : Out := .next (hostCmd 0x0F02 capFilterPlan c s)

/-! ### Triggers (R369, Table 16-7) -/

/-- CAP_TRIGGER_SET (R369): SOURCE 4 is a trigger taken at the commit. -/
def capTriggerPlan (c : Cmd) (s : State) : Plan :=
  let p := c.params
  let i := hIdx c.handle
  { op := 0x0F03, handleOk := handleIn s [0x0F] c.handle, touches := [c.handle], len := some 24
    state := typeErr s i false
    param := firstBad
      [ (decide (u8 p 0 < 5), badParam 0), (decide (u8 p 1 < 4), badParam 1), (decide (u8 p 2 < 4), badParam 2)
      , (decide (u8 p 3 < 4), badParam 3)
      , (u8 p 0 != 3 || decide ((nowNs s : Int) ≤ nearestNs s (u64 p 8)), ⟨St.TIME_PASSED, 0⟩) ]
    run := fun s =>
      let t : CapTrigger := { source := u8 p 0, input := u8 p 1, tflags := u8 p 2, out := u8 p 3, at_ := BitVec.ofNat 64 (u64 p 8) }
      let s := modSession i (fun x => { x with trigger := t }) s
      .ok (if u8 p 0 = 4 then capTrigger i (nowNs s) 0 s else s) }

def execCapTriggerSet (c : Cmd) (s : State) : Out := .next (hostCmd 0x0F03 capTriggerPlan c s)

/-- CAPTURE_TRIGGER_INSTANT (R369): the timebase reaches AT. -/
def captureTriggerInstant (i : Nat) (s : State) : State :=
  let t := (sesOf s i).trigger
  if t.source ≠ 3 ∨ t.fired ∨ (sesOf s i).replay then s
  else
    let at_ := (nearestNs s t.at_.toNat).toNat
    let s := tickToNs at_ s
    capTrigger i at_ 0 (modSession i (fun x => { x with trigger.fired := true }) s)

def execCaptureTriggerInstant (session : Nat) (s : State) : Out := .next (captureTriggerInstant session s)

/-! ### Starting and stopping (R359, R367) -/

/-- Mbit/s over the running capture sessions. -/
def captureMbps (s : State) : Nat :=
  Tbl.sum s.cap.sessions fun x => if x.recording then x.rate else 0

/-- CAP_START (R367): the ring is emptied and SEQ restarts. -/
def capStartPlan (c : Cmd) (s : State) : Plan :=
  let i := hIdx c.handle
  let rate := u32 c.params 0
  let x := sesOf s i
  let needs := (filtersOf s i).any fun f => f.2.point == 1 || bit f.2.kinds 4
  let media := mediaCharge (decTotal s) (encTotal s) (cmpTotal s) (otherBytes s + rate * 125000)
  { op := 0x0F04, handleOk := handleIn s [0x0F] c.handle, touches := [c.handle]
    state := typeErr s i false <|> (if x.state = .idle ∨ x.state = .done then none else some (wrongState (Config.detail 0x0F04 0)))
    res := mediaErr s media <|> (if 3200000 < captureMbps s + rate then some (noResource 0x82) else none) <|> exportErr s needs
    run := fun s =>
      .okWith (modSession i (fun x => { x with
          state := if x.mode = 2 then .armed else .running, rate, recs := [], used := 0, wptr := 0, head := 0, tail := 0, lossN := 0
          lossNew := 0, stored := 0, lostSum := 0, msBytes := 0, postLeft := 0 }) s)
        (leN (nowShort s).toNat 8) }

def execCapStart (c : Cmd) (s : State) : Out := .next (hostCmd 0x0F04 capStartPlan c s)

/-- A session returns to FREE: its filters are removed and its region deleted. -/
def freeSession (i : Nat) (s : State) : State :=
  let r := (sesOf s i).region
  leaveLeases (sesH i) (freeRegion r { s with
    cap.sessions := Tbl.del s.cap.sessions i
    cap.filters := s.cap.filters.filter fun f => f.2.session != i })

/-- What CAP_STOP returns. -/
def stopResult (x : Session) : List Byte := leN x.cause 1 ++ leN 0 3 ++ leN x.stored 4 ++ leN x.lostSum 4

/-- CAP_STOP (R359): with RELEASE it serves sessions of both types. -/
def capStopPlan (c : Cmd) (s : State) : Plan :=
  let i := hIdx c.handle
  let x := sesOf s i
  let release := bit (u8 c.params 0) 0
  { op := 0x0F05, handleOk := handleIn s [0x0F] c.handle, touches := [c.handle]
    state := if release then (if x.busy then some (wrongState 1) else none)
      else typeErr s i false <|> (if x.recording then none else some (wrongState (Config.detail 0x0F05 0)))
    param := firstBad [(decide (u8 c.params 0 < 2), badParam 0)]
    run := fun s =>
      if release then
        .okWith (freeSession i s)
          (if x.replay then leN x.cause 1 ++ leN 0 3 ++ leN x.sent 4 ++ leN x.late 4 else stopResult x)
      else
        let s := capDone i 0 s
        .okWith s (stopResult (sesOf s i)) }

def execCapStop (c : Cmd) (s : State) : Out := .next (hostCmd 0x0F05 capStopPlan c s)

/-! ### Readout (R366, R368, Table 16-8) -/

/-- The marker that stands for records lost before the copy. -/
def goneMarker (cause seq n : Nat) : Rec := { lossMarker cause n 0 0 with seq }

/-- A ring with each run of lost records as one marker of cause 4; the flag tells a marker that stands for others. -/
def copyRecs (bad : List Nat) : List Rec → List (Bool × Rec)
  | [] => []
  | r :: t =>
    let rest := copyRecs bad t
    if r.chans.any bad.contains then
      match rest with
      | (true, m) :: ms => (true, goneMarker 4 r.seq (m.meta_ + 1)) :: ms
      | _ => (true, goneMarker 4 r.seq 1) :: rest
    else (false, r) :: rest

/-- The records a readout copies from SEQ `start`: those overwritten become one marker of cause 5. -/
def readoutRecs (x : Session) (start : Nat) : List Rec :=
  let kept := (copyRecs x.badCh (x.recs.filter fun r => decide (start ≤ r.seq))).map Prod.snd
  if start < x.head then goneMarker 5 start (x.head - start) :: kept else kept

/-- The records of a list that fit in `room` bytes. -/
def takeRecs : Nat → List Rec → List Rec
  | _, [] => []
  | room, r :: t => if recSize r ≤ room then r :: takeRecs (room - recSize r) t else []

/-- Records leave a STREAM ring (R366). -/
def Session.consume (upto : Nat) : Nat → Session → Session
  | 0, x => x
  | fuel + 1, x => if x.head < upto ∧ x.recs ≠ [] then Session.consume upto fuel x.dropOldest else x

/-- CAP_READOUT (R366). -/
def capReadoutPlan (c : Cmd) (s : State) : Plan :=
  let p := c.params
  let i := hIdx c.handle
  let x := sesOf s i
  let start := if u32 p 4 = 0xFFFFFFFF then x.head else u32 p 4
  let inline_ := u8 p 0 == 1
  let room := if inline_ then min (u32 p 8) (4056 - 16) else u32 p 8
  let all := readoutRecs x start
  let recs := takeRecs room all
  let next := match recs.getLast? with
    | none => start
    | some r => if recs.length = all.length then max x.tail start else ((all.drop recs.length).head?.map Rec.seq).getD (r.seq + 1)
  let body := recs.flatMap unitBytes
  let done := fun (s : State) => if bit (u8 p 1) 0 then modSession i (fun x => x.consume next (x.recs.length + 1)) s else s
  let fixed := leN start 4 ++ leN recs.length 4 ++ leN body.length 4 ++ leN next 4
  { op := 0x0F06, priv := 0, safe := true, handleOk := handleIn s [0x0F] c.handle, len := some 24
    state := typeErr s i false
    param := firstBad
      [ (inline_ || (u8 p 0 == 0 && Cmd.port c != 3), badParam 0)
      , (decide (u8 p 1 < 2) && (!bit (u8 p 1) 0 || x.mode == 1), badParam 1)
      , (decide (start ≤ x.tail), badParam 4), (inline_ || u32 p 8 % 4096 == 0, badParam 8) ]
    run := fun s =>
      let whole := decide (recs.length = all.length)
      if inline_ then
        .reply (done s) (if whole then St.OK else St.OK_PARTIAL) 0 recs.length (fixed ++ body)
      else
        .reply (done (emit (.hostMem (Cmd.port c) (u64 p 16) body) s)) St.OK 0 ((body.length + 4095) / 4096) fixed }

def execCapReadout (c : Cmd) (s : State) : Out := .next (hostCmd 0x0F06 capReadoutPlan c s)

/-! ### Patterns (R371, Table 16-9) -/

/-- A record from its bytes (Table 16-3). -/
def recOf (b : List Byte) : Rec :=
  { kind := u8 b 4, point := u8 b 5, port := u16 b 6, time := (uN b 8 6 * 1000000000 + u32 b 14) * 65536 + u16 b 18, flags := u16 b 20
    rssi := u8 b 22, rate := u8 b 23, seq := u32 b 24, meta_ := u32 b 28, origLen := u16 b 2, payload := slice b 32 (u16 b 0) }

/-- The records of a block; answers them and whether the block ends with a whole record. -/
def parseRecs : Nat → List Byte → List Rec × Bool
  | 0, b => ([], b == [])
  | fuel + 1, b =>
    if b = [] then ([], true)
    else if b.length < 32 ∨ b.length < up8 (32 + u16 b 0) then ([], false)
    else
      let r := parseRecs fuel (b.drop (up8 (32 + u16 b 0)))
      (recOf b :: r.1, r.2)

/-- Sub-port speed in Gbit/s by mode (Table 7-1). -/
def subGbps (s : State) (iface : Nat) : Nat :=
  match (ethOf s (iface / 4)).mode with
  | 1 => 400
  | 2 => 200
  | 3 => 100
  | _ => 0

/-- The wire time of an Ethernet record in 2⁻¹⁶ ns: frame, FCS, preamble and gap. -/
def wireFrac (s : State) (r : Rec) : Nat :=
  if r.kind = 1 then
    let g := subGbps s r.port
    if g = 0 then 0 else ((r.payload.length + 24) * 8 * 65536 + g - 1) / g
  else 0

/-- Kind and length of a pattern record (R371). -/
def recValid (s : State) (r : Rec) : Bool :=
  match r.kind with
  | 1 => decide (r.port < 32) && decide (60 ≤ r.payload.length) && decide (r.payload.length + 4 ≤ (ethOf s (r.port / 4)).mtu)
  | 3 => true
  | 4 => true
  | 5 => decide (r.port < 4)
  | 6 => true
  | _ => false

/-- The checks of R371 record by record: the first that fails, with its DETAIL and record index. `last` is the time of the record
before and `ends` when each sub-port is free. -/
def checkRecs (s : State) : (idx last : Nat) → (ends : Tbl Nat) → List Rec → Option (Nat × Nat)
  | _, _, _, [] => none
  | i, last, ends, r :: t =>
    if ¬ recValid s r then some (1, i)
    else if r.time < last then some (3, i)
    else if r.kind = 1 ∧ r.time < Tbl.getD ends r.port 0 then some (2, i)
    else checkRecs s (i + 1) r.time (if r.kind = 1 then Tbl.put ends r.port (r.time + wireFrac s r) else ends) t

/-- The most bytes of records in any 1 ms (R371). -/
def peakBytes (recs : List Rec) : Nat :=
  (recs.tails.map fun l => match l with
    | [] => 0
    | r :: _ => ((l.filter fun q => decide (q.time < r.time + 65536000000)).map recSize).foldl (· + ·) 0).foldl max 0

/-- A copied ring as a pattern: the first record's time becomes the loop start; lost records are left out. -/
def ringPattern (x : Session) : List Rec :=
  let rs := x.recs.filter fun r => !r.chans.any x.badCh.contains
  let t0 := (rs.head?.map Rec.time).getD 0
  rs.map fun r => { r with time := r.time - t0 }

def invalidPattern (s : State) (detail index : Nat) : Done := .reply s St.REPLAY_PATTERN_INVALID detail 0 (leN index 4)

/-- The pattern goes into the session's region. -/
def storePattern (i : Nat) (recs : List Rec) (s : State) : State :=
  let x := { sesOf s i with recs := [], used := 0, wptr := 0, tail := 0 }
  let y := recs.foldl (fun (x : Session) r =>
    { x with recs := x.recs ++ [{ r with pos := x.wptr, chans := x.chansAt x.wptr (recSize r) }], used := x.used + recSize r
             wptr := x.wptr + recSize r }) x
  let s := modSession i (fun _ => { y with state := .loaded, peak := peakBytes recs, next := 0 }) s
  y.recs.foldl (fun s r => ringBytes y r.pos (unitBytes r) s) s

/-- REPLAY_LOAD (R371). -/
def replayLoadPlan (c : Cmd) (s : State) : Plan :=
  let p := c.params
  let i := hIdx c.handle
  let x := sesOf s i
  let dma := u8 p 0 == 0
  let src := hIdx (BitVec.ofNat 32 (u32 p 4))
  { op := 0x0F07, handleOk := handleIn s [0x0F] c.handle, touches := [c.handle], len := some 24
    state := typeErr s i true
      <|> (if x.state = .scheduled ∨ x.state = .running then some (wrongState 2) else none)
      <|> (if u8 p 0 = 1 ∧ paramHandle s [0x0F] (u32 p 4) then typeErr s src false else none)
    param := firstBad
      [ (u8 p 0 == 1 || (dma && Cmd.port c != 3), badParam 0), (decide (u8 p 1 < 2), badParam 1)
      , (dma || paramHandle s [0x0F] (u32 p 4), badParam 4) ]
    run := fun s =>
      let got := if dma then parseRecs (u32 p 16) (fit c.dma (u32 p 16)) else (ringPattern (sesOf s src), true)
      let recs := (if bit (u8 p 1) 0 then x.recs else []) ++ got.1
      let bytes := (recs.map recSize).foldl (· + ·) 0
      match checkRecs s 0 0 [] recs with
      | some (d, n) => invalidPattern s d n
      | none =>
        if ¬ got.2 then invalidPattern s 1 recs.length
        else if x.space < bytes then .reply s St.NO_RESOURCE 0x31 0 []
        else .reply (storePattern i recs s) St.OK 0 (((got.1.map recSize).foldl (· + ·) 0 + 4095) / 4096)
          (leN recs.length 4 ++ leN bytes 4 ++ leN ((peakBytes recs * 8 + 999) / 1000) 4 ++ leN 0 4) }

def execReplayLoad (c : Cmd) (s : State) : Out := .next (hostCmd 0x0F07 replayLoadPlan c s)

/-! ### Starting a replay (R372, R375, R376, Table 16-10) -/

/-- PREFETCH_US in ns. -/
def prefetchNs (s : State) : Nat := rgBits s R.CAP_CTRL 15 0 * 1000

/-- START 0: the first block boundary at least PREFETCH_US + 1 ms ahead. -/
def startAhead (s : State) : Nat := (nowNs s + prefetchNs s + 1000000 + 999999) / 1000000 * 1000000

/-- The stream slots of a pattern's template media. -/
def templateSlots (recs : List Rec) : List Nat := ((recs.filter fun r => r.kind == 6).map Rec.port).eraseDups

/-- The number under which a session is a flue's producer. -/
def sesProducer (i : Nat) : Nat := (sesH i).toNat

/-- Whether a record's target stands: REPLAY_TARGET_INVALID's DETAIL and index where it does not. -/
def badTarget (s : State) (i : Nat) (r : Rec) : Option (Nat × Nat) :=
  match r.kind with
  | 1 => if ifaceUp s r.port then none else some (1, r.port)
  | 3 => if (roleOf s r.port).role = 3 ∧ r.port < 3 then none else some (1, r.port)
  | 4 => if ((flueOf s r.port).map fun f => f.producerOk r.port (sesProducer i)).getD false then none else some (5, r.port)
  | _ => none

/-- Whether a template leg stands (R376). -/
def badLeg (s : State) (slots : List Nat) (leg : Nat) : Option (Nat × Nat) :=
  match Tbl.get? s.legs leg with
  | none => some (2, leg)
  | some l =>
    if l.state ≠ .active ∨ 1 < l.type then some (2, leg)
    else if l.conf.isSome then some (3, leg)
    else if slots.any (fun k => (egressOf s leg k).isNone) ∨ (bit l.flags 3 ∧ (txKeyOf s leg).isNone) then some (4, leg)
    else none

/-- The pattern suits PERIOD_NS and RMODE (R371, R376). -/
def patternErr (s : State) (recs : List Rec) (rmode periodNs : Nat) : Option (Nat × Nat) :=
  match (if rmode = 1 then none else (List.range recs.length).find? fun k => (recs[k]?.map Rec.kind) == some 6) with
  | some k => some (1, k)
  | none =>
    let ends := match recs.getLast? with
      | some r => (r.time + wireFrac s r) / 65536
      | none => 0
    if (recs ≠ [] ∧ periodNs ≤ ends) ∨ periodNs = 0 ∨ (rmode = 1 ∧ periodNs % 1000000 ≠ 0) then some (4, recs.length - 1) else none

/-- REPLAY_START (R375). -/
def replayStartPlan (c : Cmd) (s : State) : Plan :=
  let p := c.params
  let i := hIdx c.handle
  let x := sesOf s i
  let rmode := u8 p 0
  let tmpl := rmode == 1
  let legs := (List.range (u16 p 26)).map (· + u16 p 24)
  let start := if u64 p 8 = 0 then startAhead s else (nearestNs s (u64 p 8)).toNat
  let rate := x.peak * 1000 * (if tmpl then u16 p 26 else 1)
  let media := mediaCharge (decTotal s) (encTotal s) (cmpTotal s) (otherBytes s + rate)
  { op := 0x0F08, handleOk := handleIn s [0x0F] c.handle, touches := [c.handle], len := some 40
    state := typeErr s i true <|> (if x.state = .loaded ∨ x.state = .done then none else some (wrongState (Config.detail 0x0F08 0)))
    param := firstBad
      [ (decide (rmode < 2), badParam 0), (decide (u8 p 1 < 2), badParam 1)
      , (u64 p 8 == 0 || decide ((nowNs s : Int) ≤ nearestNs s (u64 p 8)), ⟨St.TIME_PASSED, 0⟩)
      , (!tmpl || (decide (1 ≤ u16 p 26) && decide (u16 p 26 ≤ 16384)), badParam 26)
      , (!tmpl || decide (u32 p 28 ≤ 1000000), badParam 28) ]
    run := fun s =>
      match patternErr s x.recs rmode (u64 p 16) with
      | some (d, n) => invalidPattern s d n
      | none =>
        match x.recs.findSome? (badTarget s i) <|> (if tmpl then legs.findSome? (badLeg s (templateSlots x.recs)) else none) with
        | some (d, n) => .reply s St.REPLAY_TARGET_INVALID d 0 (leN n 4)
        | none =>
          match mediaErr s media with
          | some e => .reply s e.status e.detail 0 []
          | none =>
            let reports := if tmpl then legs.map fun l => (l, start) else []
            .okWith (modSession i (fun x => { x with
                state := .scheduled, rmode, sflags := u8 p 1, loops := u16 p 2, start, period := u64 p 16, firstLeg := u16 p 24
                legCount := u16 p 26, stagger := u32 p 28, ssrcBase := u32 p 32, rate, next := 0, loop := 0, fetched := 0
                sent := 0, late := 0, lateNew := 0, reports }) s)
              (leN (shortOf start) 8) }

def execReplayStart (c : Cmd) (s : State) : Out := .next (hostCmd 0x0F08 replayStartPlan c s)

/-- A replay ends (Table 16-14). -/
def replayDone (i cause : Nat) (s : State) : State :=
  let x := sesOf s i
  raise Ev.REPLAY_DONE (sesH i) (leN cause 1 ++ leN 0 3 ++ leN x.sent 4 ++ leN x.late 4)
    { modSession i (fun x => { x with state := .done, cause, fetched := 0, reports := [] }) s with
      cap.staging := s.cap.staging - ((x.recs.drop x.next).take x.fetched |>.map recSize).foldl (· + ·) 0 }

/-- REPLAY_STOP (R375). -/
def replayStopPlan (c : Cmd) (s : State) : Plan :=
  let i := hIdx c.handle
  let x := sesOf s i
  { op := 0x0F09, handleOk := handleIn s [0x0F] c.handle, touches := [c.handle]
    state := typeErr s i true
      <|> (if x.busy ∨ x.state = .done then none else some (wrongState (Config.detail 0x0F09 0)))
    run := fun s =>
      let s := if x.state = .done then s else replayDone i 0 s
      let y := sesOf s i
      .okWith s (leN y.cause 1 ++ leN 0 3 ++ leN y.sent 4 ++ leN y.late 4) }

def execReplayStop (c : Cmd) (s : State) : Out := .next (hostCmd 0x0F09 replayStopPlan c s)

/-- A fault in a session's engine ends the session with cause 2 (R358, R359). -/
def sessionFault (i : Nat) (s : State) : State :=
  match Tbl.get? s.cap.sessions i with
  | none => s
  | some x => if x.replay then replayDone i 2 s else capDone i 2 s

/-! ### The run of a replay (R372–R376) -/

/-- The instant of the record `n` records on from the next, in ns (R372). -/
def recInstant (x : Session) (n : Nat) : Nat :=
  let k := x.next + n
  let len := max 1 x.recs.length
  x.start + (x.loop + k / len) * x.period + ((x.recs[k % len]?).map Rec.time |>.getD 0) / 65536

/-- The next record not yet fetched comes into capture staging, PREFETCH_US before its instant (R372). -/
def replayPrefetch (i : Nat) (s : State) : State :=
  let x := sesOf s i
  if ¬ x.replay ∨ x.recs = [] ∨ ¬ (x.state = .scheduled ∨ x.state = .running) then s
  else
    let s := tickToNs (recInstant x x.fetched - prefetchNs s) s
    let r := (x.recs[(x.next + x.fetched) % x.recs.length]?).map recSize |>.getD 0
    { modSession i (fun x => { x with fetched := x.fetched + 1 }) s with cap.staging := s.cap.staging + r }

def execReplayPrefetch (session : Nat) (s : State) : Out := .next (replayPrefetch session s)

/-- A record was not sent at its instant: counted, and REPLAY_LATE raised at most once per second (R374). -/
def replayLate (i reason idx : Nat) (s : State) : State :=
  let x := sesOf s i
  let s := bump R.CAP_REPLAY_LATE (bump32 (capReg R.CAP_S_LATE i) s)
  let x := { x with late := x.late + 1, lateIdx := if x.lateNew = 0 then idx else x.lateIdx }
  let quiet := match x.lateAt with
    | some t => decide (s.clock.cycles < t + msCycles 1000)
    | none => false
  if quiet then modSession i (fun _ => { x with lateNew := x.lateNew + 1 }) s
  else
    raiseUnless R.CAP_EVENT_MASK 2 Ev.REPLAY_LATE (sesH i) (leN reason 1 ++ leN 0 3 ++ leN (x.lateNew + 1) 4 ++ leN x.lateIdx 4)
      (modSession i (fun _ => { x with lateAt := some s.clock.cycles, lateNew := 0 }) s)

/-- A record has been sent. -/
def replaySent (i : Nat) (s : State) : State :=
  bump R.CAP_REPLAY_SENT (bump (capReg R.CAP_S_RECORDS i) (modSession i (fun x => { x with sent := x.sent + 1 }) s))

/-- `n` bytes, most significant first. -/
def beN (v n : Nat) : List Byte := (leN v n).reverse

/-- A number that stands most significant byte first. -/
def beAt (b : List Byte) (o n : Nat) : Nat := uN (slice b o n).reverse 0 n

/-- The RTP packet as leg `i` of the array sends it in loop `loop` (R376). -/
def rewriteRtp (x : Session) (i : Nat) (r : Rec) : List Byte :=
  let per := (x.recs.filter fun q => q.kind == 6 && q.port == r.port).length
  let hz := if r.port = 0xFF then 48000 else 90000
  let seq := beAt r.payload 2 2 + x.loop * per
  let ts := beAt r.payload 4 4 + x.loop * x.period * hz / 1000000000
  let k := if r.port = 0xFF then 0 else r.port
  r.payload.take 2 ++ beN seq 2 ++ beN ts 4 ++ beN (x.ssrcBase + 8 * i + k) 4 ++ r.payload.drop 12

/-- The transmit taps of a replayed unit: it carries REPLAYED. -/
def tapReplayed (kind : Nat) (r : Rec) (s : State) : State :=
  let one := fun point (s : State) =>
    tap { rec_ := { kind, point, port := r.port, time := nowFrac s, flags := 0x40, rate := if kind = 3 then r.rate else 0
                    meta_ := if kind = 3 then r.meta_ else 0xFFFFFFFF, origLen := r.payload.length, payload := r.payload } } s
  one 0 (one 1 s)

/-- A record goes to its target: whether it is sent, with the reason where it is not (Table 16-4). -/
def sendRecord (i : Nat) (x : Session) (r : Rec) (radioRefused : Bool) (delayUs : Nat) (s : State) : Option Nat × State :=
  let stamp := fun q port (s : State) => if bit r.flags 7 then tsInsert q (r.meta_ % 65536) port 4 s else s
  match r.kind with
  | 1 =>
    if ¬ ifaceUp s r.port then (some 0, s)
    else
      let n := r.payload.length + 4
      (none, stamp (r.port / 4) r.port (tapReplayed 1 r (emit (.ethFrame r.port 4 r.payload)
        (bump (ethCtr R.PKT_P_TX_FRAMES r.port) (bumpBy (ethCtr R.PKT_P_TX_BYTES r.port) n s)))))
  | 3 =>
    if bit x.sflags 0 then (none, wlanEnqueue r.meta_ 0 s)
    else
      let a := if radioRefused then (false, refuseTx r.port s)
        else requestTx r.port { earliest := nowNs s, latest := nowNs s, what := .replay i } s
      if a.1 then (none, stamp (8 + r.port) (0x40 + r.port) (tapReplayed 3 r a.2)) else (some 1, a.2)
  | 4 =>
    match flueOf s r.port with
    | some f =>
      if f.producerOk r.port (sesProducer i) && flueTakes f ((r.payload.length + 23) / 24) then
        (none, flueChanged r.port (tapFlue r.port (pushAll r.port (sesProducer i) (spItems r.meta_ r.payload) s)))
      else (some 0, s)
    | none => (some 0, s)
  | 5 => (none, placeRelease 94 { user := 5, instant := nowNs s, what := 2, arg := r.port, data := leN i 1 } s)
  | _ =>
    if 2 < delayUs then (some 2, s)
    else
      (none, (List.range x.legCount).foldl (fun s k =>
        let leg := x.firstLeg + k
        let b := rewriteRtp x k r
        let a := sendMedia leg r.port b.length false s
        if a.1 then emit (.rtp leg r.port b) a.2 else a.2) s)

/-- The pattern moves on to its next record; after the last of the last loop the replay is done. -/
def replayNext (i : Nat) (s : State) : State :=
  let x := sesOf s i
  let wrap := decide (x.recs.length ≤ x.next + 1)
  let loop := if wrap then x.loop + 1 else x.loop
  let size := ((x.recs[x.next]?).map recSize).getD 0
  let s := { modSession i (fun x => { x with next := if wrap then 0 else x.next + 1, loop, fetched := x.fetched - 1 }) s with
    cap.staging := s.cap.staging - size }
  if wrap ∧ x.loops ≠ 0 ∧ x.loops ≤ loop then replayDone i 1 s else s

/-- REPLAY_RECORD_SEND (R372–R376): the instant of the next record. `missed` a deadline miss, `radioRefused` a refusal (R324),
`delayUs` how late a template send comes to its leg. -/
def replayRecordSend (i : Nat) (missed radioRefused : Bool) (delayUs : Nat) (s : State) : State :=
  let x := sesOf s i
  if ¬ x.replay ∨ ¬ (x.state = .scheduled ∨ x.state = .running) then s
  else
    match x.recs[x.next]? with
    | none => replayDone i 1 s
    | some r =>
      let s := if x.fetched = 0 then replayPrefetch i s else s
      let s := tickToNs (recInstant x 0) s
      let s := modSession i (fun x => { x with state := .running }) s
      let a := if missed then (some 0, s) else sendRecord i x r radioRefused delayUs s
      replayNext i (match a.1 with
        | some reason => replayLate i reason x.next a.2
        | none => replaySent i a.2)

def execReplayRecordSend (session : Nat) (missed radioRefused : Bool) (delayUs : Nat) (s : State) : Out :=
  .next (replayRecordSend session missed radioRefused delayUs s)

/-! ### CAP_QUERY (Tables 16-6, 16-7, 16-13) -/

/-- A filter in the form of Table 16-6. -/
def filterBytes (n : Nat) (f : CapFilter) : List Byte :=
  fit (leN n 1 ++ leN 1 1 ++ leN f.action 1 ++ leN f.point 1 ++ leN f.kinds 1 ++ leN f.match_ 1 ++ leN f.sample 1 ++ leN 0 1
    ++ leN f.ports 4 ++ leN f.object.toNat 4 ++ leN f.snap 2 ++ leN f.offset 2 ++ leN 0 4 ++ fit f.value 16 ++ fit f.mask 16) 64

/-- Trigger parameters in the form of Table 16-7. -/
def triggerBytes (t : CapTrigger) : List Byte :=
  fit (leN t.source 1 ++ leN t.input 1 ++ leN t.tflags 1 ++ leN t.out 1 ++ leN 0 4 ++ leN t.at_.toNat 8) 24

/-- The admitted rate in Gbit/s. -/
def Session.gbps (x : Session) : Nat := if x.replay then (x.rate * 8 + 999999999) / 1000000000 else (x.rate + 999) / 1000

/-- A word of the CAP_S block (Table 16-13); the measured rate is `measured`. -/
def capWord (s : State) (i measured k : Nat) : Nat :=
  let half := fun key => rgRaw s (capReg key i)
  match Tbl.get? s.cap.sessions i, k with
  | none, 0 => 0
  | none, 1 => 0
  | none, 2 => 0
  | none, 3 => 0
  | none, 4 => 0
  | some x, 0 => x.state.num + 8 * b2n x.replay + 16 * x.mode + 256 * (filtersOf s i).length + 65536 * (Config.capJunction i % 256)
  | some x, 1 => x.gbps % 65536 + 65536 * (measured % 65536)
  | some x, 2 => x.space / 1048576 + 2 ^ 17 * x.region
  | some x, 3 => (if x.replay then x.next else x.head) % 2 ^ 32
  | some x, 4 => x.tail % 2 ^ 32
  | _, 5 => half R.CAP_S_RECORDS % 2 ^ 32
  | _, 6 => half R.CAP_S_RECORDS / 2 ^ 32
  | _, 7 => half R.CAP_S_BYTES % 2 ^ 32
  | _, 8 => half R.CAP_S_BYTES / 2 ^ 32
  | _, 9 => half R.CAP_S_LOST % 2 ^ 32
  | _, 10 => half R.CAP_S_LOST / 2 ^ 32
  | _, 11 => half R.CAP_S_LATE % 2 ^ 32
  | _, _ => 0

/-- CAP_QUERY, on the device or a session; its parameter length is not given (notes/assumptions/12.md). -/
def capQueryPlan (c : Cmd) (s : State) : Plan :=
  let i := hIdx c.handle
  { op := 0x0F0A, priv := 0, safe := true, handleOk := handleDev c.handle || handleIn s [0x0F] c.handle, len := none
    run := fun s =>
      if hCls c.handle = 1 then
        let items := s.cap.sessions.map fun e =>
          leN e.1 1 ++ leN (b2n e.2.replay) 1 ++ leN e.2.state.num 1 ++ leN e.2.mode 1 ++ leN e.2.gbps 4
        .reply s St.OK 0 items.length items.flatten
      else
        let (v, s) := takeFree s
        let items := (filtersOf s i).map fun f => filterBytes f.1 f.2
        let a := itemsAnswer ((List.range 12).flatMap fun k => leN (capWord s i v k) 4) (items ++ [triggerBytes (sesOf s i).trigger]) 0
        .reply s a.1 0 a.2.1 a.2.2 }

def execCapQuery (c : Cmd) (s : State) : Out := .next (hostCmd 0x0F0A capQueryPlan c s)

end Sys2Proof.Machine
end

