-- ==== Sys2Proof/Machine/ResetOps.lean ====
section
/-! DEFINITION. Machine/ResetOps.lean: the reset sources of Table 4-2 (R82, R83). -/

namespace Sys2Proof.Machine

/-- A full reset with a cause bit: every object, lease, ring set and command ends; only the fuse
store, the boot flash and OTP_RESET_CAUSE survive (R82). The queue of waiting commands, the output log and
the free-value counter are the model's own and go on. -/
def fullReset (causeBit : Nat) (s : State) : State :=
  { State.reset with
      pending := s.pending, free := s.free, out := s.out, fuses := s.fuses, flash := s.flash
      boot.cause := Nat.lor s.boot.cause (2 ^ causeBit) }

/-- COMMAND_RESET_START (R83): the 10 ms end and the full reset starts. -/
def commandReset (s : State) : State :=
  match s.boot.resetAt with
  | none => s
  | some _ => let s' := fullReset 2 s; { s' with boot.force := s.boot.resetSlot }

/-- COMMAND_RESET_START (R83). -/
def execCommandResetStart (s : State) : Out := .next (commandReset s)

/-- RESET_PIN (R82): below 50 ns filtered; from 1 µs a full reset; between, no effect or a full reset,
which of the two a free value says. -/
def resetPin (lowNs : Nat) (s : State) : State :=
  if lowNs < 50 then s
  else if lowNs < 1000 then
    let (v, s) := takeFree s
    if v % 2 = 0 then s else fullReset 1 s
  else fullReset 1 s

/-- RESET_PIN (R82). -/
def execResetPin (lowNs : Nat) (s : State) : Out := .next (resetPin lowNs s)

/-- POWER_ON (R82): VDD_AON rises through its threshold. -/
def execPowerOn (s : State) : Out := .next (fullReset 0 s)

/-- BROWN_OUT (R82): VDD_AON (rail 0) or VDD_CORE (rail 1) below its threshold for 10 µs. -/
def execBrownOut (rail us : Nat) (s : State) : Out :=
  .next (if rail ≤ 1 ∧ 10 ≤ us then fullReset 4 s else s)

/-- WATCHDOG (R82): the heartbeat has not changed for `stuckMs`; suspended where it holds its value
(EMBER, COLD) and before kindling starts it. -/
def watchdog (stuckMs : Nat) (s : State) : State :=
  let w := rgRaw s R.OTP_WDT
  if bit w 31 ∨ s.boot.beatFrom = none ∨ stuckMs < bits w 15 0 then s else fullReset 3 s

/-- WATCHDOG (R82). -/
def execWatchdog (stuckMs : Nat) (s : State) : Out := .next (watchdog stuckMs s)

end Sys2Proof.Machine
end

