-- ==== Sys2Proof/Machine/Rings.lean ====
section
/-! DEFINITION. Machine/Rings.lean: ring sets, doorbells, fetching, vectors, direct register writes and
port links (R46–R57, R76, R77, R80, R411, R412). -/

namespace Sys2Proof.Machine

/-! ### Errors of a ring set -/

/-- A ring set enters ERROR with a code and slot (R53); in ERROR it keeps the code it has. -/
def ringError (rs err slot : Nat) (s : State) : State :=
  if (ringOf s rs).phase = .error then s
  else
    let s := modRing rs (fun r => { r with phase := .error, err, errSlot := slot }) s
    let s := bump R.HPI_RING_ERRORS s
    raise Ev.RING_ERROR 0 (leN rs 1 ++ leN err 1 ++ leN 0 2 ++ leN slot 4) (raiseCause rs 3 s)

/-! ### Descriptors (R50, R411) -/

/-- A power of two between `lo` and 65,536. -/
def slotsOk (lo n : Nat) : Bool := decide (lo ≤ n) && decide (n ≤ 65536) && decide (2 ^ Nat.log2 n = n)

/-- R47 for an enable descriptor. -/
def descOk (d : RingDesc) : Bool :=
  slotsOk 64 d.sqSlots && slotsOk 128 d.rplSlots && slotsOk 64 d.evtSlots
    && d.sqBase % 4096 == 0 && d.rplBase % 4096 == 0 && d.evtBase % 4096 == 0 && d.shadowBase % 64 == 0

/-- The filter of a ring set after enable (R75): ring set 0 of a port severity 2 and above from all
subsystems, the others nothing. -/
def defaultFilter (rs : Nat) (r : RingSet) : RingSet :=
  if rs % 4 = 0 then { r with minSev := 2, mask := 0xFFFFFFFF } else { r with minSev := 5, mask := 0 }

/-- The EVENT_OVERFLOW that ends a boot log which lost entries (R418). -/
def bootLogTail (s : State) : List Event :=
  if s.host.bootLost = 0 then [] else [overflowEvent s s.host.bootLost s.host.bootLostAt]

/-- At the first enable of ring set 0 of a port after reset the boot log is delivered whole, whatever
the filter (R418). -/
def deliverBootLog (rs : Nat) (s : State) : State :=
  if rs % 4 = 0 ∧ ¬ (ringOf s rs).logged then
    (s.host.bootLog ++ bootLogTail s).foldl (fun s e => putEvent rs e s)
      (modRing rs (fun r => { r with logged := true }) s)
  else s

/-- A ring set moves to ENABLED with heads and tails zero and ERR clear (R50). -/
def enableRing (rs : Nat) (d : RingDesc) (s : State) : State :=
  modRing rs (fun r => defaultFilter rs
    { r with phase := .enabled, err := 0, errSlot := 0, sqBase := d.sqBase, rplBase := d.rplBase
             evtBase := d.evtBase, shadow := d.shadowBase, sqSlots := d.sqSlots
             rplSlots := d.rplSlots, evtSlots := d.evtSlots, sqHead := 0, sqTail := 0, rplHead := 0
             rplTail := 0, evtHead := 0, evtTail := 0, replies := [], events := [] }) s

/-- A descriptor is refused with a code, charged to a ring set (Table 3-3a). -/
def refuseDesc (rs code : Nat) (s : State) : State :=
  let s := modRing rs (fun r => if r.phase = .error then r else { r with err := code }) s
  raiseCause rs 3 (bump R.HPI_RING_ERRORS s)

/-- A write to a doorbell that R54 ignores, counted to the writing port. -/
def ignoredDoorbell (port : Nat) (s : State) : State := bump (R.HPI_PORT_IGNORED_DB + 0x20 * port) s

/-- A set-up descriptor fetched through DEV_DB_SETUP[p], written by port `writer` (R50, R54, R411). -/
def setupDescriptor (writer p addr : Nat) (d : RingDesc) (s : State) : State :=
  if writer ≠ p ∨ 3 ≤ p ∨ ¬ s.boot.ready then ignoredDoorbell writer s
  else
    let s := modPort p (fun q => { q with setup := addr }) s
    if 3 < d.set then refuseDesc (4 * p) 8 s
    else
      let rs := 4 * p + d.set
      if d.op = 1 then
        if ¬ descOk d then refuseDesc rs 8 s
        else if (ringOf s rs).phase ≠ .disabled then refuseDesc rs 9 s
        else deliverBootLog rs (raiseCause rs 3 (enableRing rs d s))
      else if d.op = 2 then
        raiseCause rs 3 (modRing rs (fun r =>
          if r.phase = .enabled ∨ r.phase = .error then { r with phase := .draining } else r) s)
      else refuseDesc rs 8 s

/-- RING_SET_ENABLE (R50). -/
def execRingSetEnable (writer port addr : Nat) (d : RingDesc) (s : State) : Out :=
  .next (setupDescriptor writer port addr d s)

/-- RING_SET_DISABLE (R50). -/
def execRingSetDisable (writer port addr : Nat) (d : RingDesc) (s : State) : Out :=
  .next (setupDescriptor writer port addr d s)

/-- RING_SET_DRAINED (R50): a DRAINING set with nothing outstanding and no reply waiting becomes
DISABLED. -/
def execRingSetDrained (rs : Nat) (s : State) : Out :=
  .next (if (ringOf s rs).phase = .draining ∧ outstanding s rs = 0 ∧ (ringOf s rs).waiting = [] then
    modRing rs (fun r => { r with phase := .disabled }) s else s)

/-! ### Doorbells (R49, R53, R54) -/

/-- A direct register write that is ignored and counted with offset and port (R80). -/
def ignoredWrite (port offset : Nat) (s : State) : State :=
  setRg R.DEV_LAST_IGNORED (offset % 2 ^ 28 + 2 ^ 28 * (port % 4)) (bump R.DEV_IGNORED_WRITES s)

/-- Whether R54 ignores a tail or head doorbell. -/
def doorbellIgnored (port rs : Nat) (s : State) : Bool :=
  portOf rs != port || (ringOf s rs).phase == .disabled || !s.boot.ready

/-- SQ_TAIL_DOORBELL: the submission tail moves, or ERR 4 (R53). -/
def sqTailDoorbell (port rs tail : Nat) (s : State) : State :=
  if 12 < rs then ignoredWrite port (R.DEV_DB_SQ_TAIL + 0x10 * rs) s
  else if doorbellIgnored port rs s then ignoredDoorbell port s
  else if (ringOf s rs).sqSlots ≤ tail % 65536 then ringError rs 4 (tail % 65536) s
  else modRing rs (fun r => { r with sqTail := tail % 65536 }) s

/-- Whether a head doorbell frees only slots that the device has written (R53). -/
def headOk (slots head tail new : Nat) : Bool :=
  decide (new < slots) && decide ((new + slots - head) % slots ≤ (tail + slots - head) % slots)

/-- `n` slots of replies are freed; a packet freed in part keeps the rest of its slots. -/
def freeReplies : Nat → List (Nat × Reply) → List (Nat × Reply)
  | _, [] => []
  | n, (k, p) :: t => if k ≤ n then freeReplies (n - k) t else (k - n, p) :: t

/-- RPL_HEAD_DOORBELL: reply slots are freed and waiting replies follow, or ERR 5 (R53). -/
def rplHeadDoorbell (port rs head : Nat) (s : State) : State :=
  if 12 < rs then ignoredWrite port (R.DEV_DB_RPL_HEAD + 0x10 * rs) s
  else if doorbellIgnored port rs s then ignoredDoorbell port s
  else
    let r := ringOf s rs
    let h := head % 65536
    if ¬ headOk r.rplSlots r.rplHead r.rplTail h then ringError rs 5 h s
    else
      let s := modRing rs (fun r =>
        { r with replies := freeReplies ((h + r.rplSlots - r.rplHead) % max 1 r.rplSlots) r.replies, rplHead := h }) s
      drainWaiting rs (ringOf s rs).waiting.length s

/-- EVT_HEAD_DOORBELL: event slots are freed, and EVENT_OVERFLOW follows a loss (R76), or ERR 5. -/
def evtHeadDoorbell (port rs head : Nat) (s : State) : State :=
  if 12 < rs then ignoredWrite port (R.DEV_DB_EVT_HEAD + 0x10 * rs) s
  else if doorbellIgnored port rs s then ignoredDoorbell port s
  else
    let r := ringOf s rs
    let h := head % 65536
    if ¬ headOk r.evtSlots r.evtHead r.evtTail h then ringError rs 5 h s
    else
      flushLost rs (modRing rs (fun r =>
        { r with events := r.events.drop ((h + r.evtSlots - r.evtHead) % max 1 r.evtSlots), evtHead := h }) s)

/-- SQ_TAIL_DOORBELL (R53). -/
def execSqTailDoorbell (port rs tail : Nat) (s : State) : Out := .next (sqTailDoorbell port rs tail s)
/-- RPL_HEAD_DOORBELL (R53). -/
def execRplHeadDoorbell (port rs head : Nat) (s : State) : Out := .next (rplHeadDoorbell port rs head s)
/-- EVT_HEAD_DOORBELL (R76). -/
def execEvtHeadDoorbell (port rs head : Nat) (s : State) : Out := .next (evtHeadDoorbell port rs head s)

/-! ### Vectors (R412) -/

/-- Raise the unmasked vectors among those listed whose cause is pending. -/
def fireVectors (rs : Nat) : List Nat → State → State
  | [], s => s
  | v :: t, s => fireVectors rs t (fireVector rs v s)

/-- A write of HPI_RS_INT_MASK: a vector unmasked while its cause is pending is raised at once. -/
def intMaskWrite (rs : Nat) (value : Word) (s : State) : State :=
  let key := R.HPI_RS_INT_MASK + 0x30 * rs
  let old := rgRaw s key
  let new := value.toNat % 16
  let pend := rgRaw s (R.HPI_RS_INT_STATUS + 0x30 * rs)
  fireVectors rs ([0, 1, 2, 3].filter (fun v => bit old v && !bit new v && bit pend v)) (setRg key new s)

/-- HPI_RS_INT_MASK_WRITE (R412). -/
def execHpiRsIntMaskWrite (rs : Nat) (value : Word) (s : State) : Out :=
  .next (if 12 < rs then s else intMaskWrite rs value s)

/-- HPI_RS_INT_STATUS_CLEAR (R412): W1C. -/
def execHpiRsIntStatusClear (rs : Nat) (value : Word) (s : State) : Out :=
  .next (if 12 < rs then s
    else setRg (R.HPI_RS_INT_STATUS + 0x30 * rs)
      (w1c (rgRaw s (R.HPI_RS_INT_STATUS + 0x30 * rs)) (value.toNat % 16)) s)

/-- INT_HOLDOFF_EXPIRY (R412): the holdoff ends; a vector owed whose cause is still pending and
unmasked is raised. -/
def intHoldoffExpiry (rs vec : Nat) (s : State) : State :=
  let r := ringOf s rs
  if 2 ≤ vec ∨ ¬ r.owed.getD vec false then s
  else
    let s := tickTo (r.hold.getD vec 0) s
    let s := modRing rs (fun r => { r with owed := r.owed.set vec false }) s
    if bit (rgRaw s (R.HPI_RS_INT_STATUS + 0x30 * rs)) vec && !bit (rgRaw s (R.HPI_RS_INT_MASK + 0x30 * rs)) vec then
      fireVector rs vec (writeShadow rs s)
    else s

/-- INT_HOLDOFF_EXPIRY (R412). -/
def execIntHoldoffExpiry (rs vec : Nat) (s : State) : Out := .next (intHoldoffExpiry rs vec s)

/-! ### Fetching (R48, R52, R53) -/

/-- The ring sets in round-robin order from `n`. -/
def ringsFrom (n : Nat) : List Nat := allRings.drop n ++ allRings.take n

/-- The next ring set to fetch from: enabled, allowed, and not empty (R52). -/
def nextRing (s : State) : Option Nat :=
  (ringsFrom s.host.rrNext).find? fun rs =>
    fetchAllowed s rs && (ringOf s rs).sqHead != (ringOf s rs).sqTail

/-- The submission head moves on by `n` slots; draining the ring to empty is vector 2's cause. -/
def advanceSq (rs n : Nat) (s : State) : State :=
  let s := modRing rs (fun r => { r with sqHead := (r.sqHead + n) % max 1 r.sqSlots }) s
  if (ringOf s rs).sqHead = (ringOf s rs).sqTail then raiseCause rs 2 s else s

/-- Whether Table 3-13 has the opcode. -/
def knownOpcode (op : Nat) : Bool :=
  match op / 256 with
  | 0x01 => decide (1 ≤ op % 256) && decide (op % 256 ≤ 0x0D)
  | 0x02 => decide (1 ≤ op % 256) && decide (op % 256 ≤ 7)
  | 0x03 => (decide (1 ≤ op % 256) && decide (op % 256 ≤ 5)) || (decide (0x10 ≤ op % 256) && decide (op % 256 ≤ 0x14))
  | 0x04 => decide (1 ≤ op % 256) && decide (op % 256 ≤ 6)
  | 0x05 => decide (1 ≤ op % 256) && decide (op % 256 ≤ 6)
  | 0x06 => decide (1 ≤ op % 256) && decide (op % 256 ≤ 4)
  | 0x07 => decide (1 ≤ op % 256) && decide (op % 256 ≤ 6)
  | 0x08 => decide (1 ≤ op % 256) && decide (op % 256 ≤ 5)
  | 0x09 => decide (1 ≤ op % 256) && decide (op % 256 ≤ 4)
  | 0x0A => decide (1 ≤ op % 256) && decide (op % 256 ≤ 9)
  | 0x0B => decide (1 ≤ op % 256) && decide (op % 256 ≤ 5)
  | 0x0C => decide (1 ≤ op % 256) && decide (op % 256 ≤ 9)
  | 0x0D => decide (1 ≤ op % 256) && decide (op % 256 ≤ 6)
  | 0x0E => decide (1 ≤ op % 256) && decide (op % 256 ≤ 6)
  | 0x0F => decide (1 ≤ op % 256) && decide (op % 256 ≤ 0x0A)
  | 0x10 => decide (1 ≤ op % 256) && decide (op % 256 ≤ 6)
  | 0x11 => decide (1 ≤ op % 256) && decide (op % 256 ≤ 6)
  | 0x12 => decide (1 ≤ op % 256) && decide (op % 256 ≤ 9)
  | _ => false

/-- A packet of a sound format enters the outstanding commands. An opcode outside Table 3-13 has no
row to start it, so it is answered here: version first, then opcode (R58, R78). -/
def acceptPacket (op : Nat) (c : Cmd) (s : State) : State :=
  let s := addEntry op c s
  if knownOpcode op then s
  else
    match s.host.cmds.getLast? with
    | none => s
    | some e => finishEntry e St.BAD_OPCODE (if c.version = 3 then 0 else 1) 0 [] (tick 1 s)

/-- Fetch the packet at the head of ring set `rs` (R48, R52, R53). A packet not wholly covered by the
tail stays; a PAD packet is skipped. -/
def fetchFrom (rs : Nat) (p : Packet) (s : State) : State :=
  let r := ringOf s rs
  let c : Cmd := { p.cmd with rs := rs }
  let s := { s with host.rrNext := (rs + 1) % 13 }
  let n := slotsOf (32 + c.paramLen)
  if p.dmaFault then ringError rs 3 r.sqHead s
  else if c.paramLen % 8 ≠ 0 ∨ 4096 < 32 + c.paramLen then ringError rs 1 r.sqHead s
  else if r.sqSlots < r.sqHead + n then ringError rs 2 r.sqHead s
  else if (r.sqTail + r.sqSlots - r.sqHead) % max 1 r.sqSlots < n then s
  else if p.opcode = 0 then advanceSq rs n s
  else advanceSq rs n (acceptPacket p.opcode c s)

/-- COMMAND_FETCH (R52): `p` is what the ring set chosen by the round robin holds at its head. -/
def execCommandFetch (p : Packet) (s : State) : Out :=
  .next (match nextRing s with
    | none => s
    | some rs => fetchFrom rs p s)

/-! ### Direct writes (R80) -/

/-- DEV_ALARM_CLEAR (R77): writing 1 to FATAL clears it. -/
def execDevAlarmClear (value : Word) (s : State) : Out :=
  .next (if bit value.toNat 0 then { s with boot.fatal := false } else s)

/-- OTP_RESET_CAUSE_CLEAR (R82): a W1C write. -/
def execOtpResetCauseClear (value : Word) (s : State) : Out :=
  .next { s with boot.cause := w1c s.boot.cause (value.toNat % 32) }

/-- FAB_MISS_SUM_CLEAR (R27): a W1C write of one of the three words. -/
def execFabMissSumClear (index : Nat) (value : Word) (s : State) : Out :=
  .next (if 3 ≤ index then s
    else setRg (R.FAB_MISS_SUM + 4 * index) (w1c (rgRaw s (R.FAB_MISS_SUM + 4 * index)) value.toNat) s)

/-- The select registers: every register whose name ends in _SEL. -/
def selectRegs : List Nat :=
  [R.FAB_JN_SEL, R.FAB_EDGE_SEL, R.FAB_ROUTE_SEL, R.FLU_SEL, R.DSX_CORE_SEL, R.MEM_BANK_SEL
  , R.PKT_FLOW_SEL, R.PKT_LADDR_SEL, R.PKT_P_SUB_SEL, R.CIP_SLOT_SEL, R.VCA_LEG_SEL, R.MIX_BUS_SEL
  , R.MIX_LEG_SEL, R.MIX_CONF_SEL, R.GRV_CORE_SEL, R.VDE_STREAM_SEL, R.CMP_SEL, R.VEN_STREAM_SEL
  , R.LFW_LEG_SEL, R.WMC_STA_SEL, R.RAD_REG_SEL, R.HLT_CANARY_SEL]

/-- SELECT_REGISTER_WRITE (R80). The table's row is a write to a select register; at another offset
nothing is selected. -/
def selectWrite (offset : Nat) (value : Word) (s : State) : State :=
  match findReg offset with
  | some (r, _, _) =>
    if selectRegs.contains r.base then setRg offset (Nat.land value.toNat r.mask) s else s
  | none => s

/-- SELECT_REGISTER_WRITE (R80). -/
def execSelectRegisterWrite (offset : Nat) (value : Word) (s : State) : Out :=
  .next (selectWrite offset value s)

/-- IGNORED_DIRECT_WRITE (R80). -/
def execIgnoredDirectWrite (port offset : Nat) (value : Word) (s : State) : Out :=
  .next (ignoredWrite port offset (let _ := value; s))

/-! ### Port links (R52, R76) -/

/-- PORT_LINK down: the replies held for room are discarded and counted. -/
def discardWaiting (rs : Nat) (s : State) : State :=
  bumpBy (R.HPI_PORT_RPL_DISCARD + 0x20 * portOf rs) (ringOf s rs).waiting.length
    (modRing rs (fun r => { r with waiting := [] }) s)

/-- The reply of a completed EMBER entry is written once the link of its port is back (R384). -/
def emberReply (port : Nat) (s : State) : State :=
  match s.power.wakeReply with
  | some (rs, tag, b) => if portOf rs = port then finishRunning rs tag St.OK 0 1 b { s with power.wakeReply := none } else s
  | none => s

/-- A PCIe port's link goes down or up; when it returns, each of its ring sets with room first gets
its EVENT_OVERFLOW (R76). -/
def portLink (port : Nat) (up : Bool) (lanes gen : Nat) (s : State) : State :=
  if 3 ≤ port ∨ (portSt s port).linkUp = up then s
  else
    let rings := [4 * port, 4 * port + 1, 4 * port + 2, 4 * port + 3]
    let s := modPort port (fun q => { q with linkUp := up, lanes := if up then lanes else 0, gen := if up then gen else 0 }) s
    let s := if up then rings.foldl (fun s rs => if (ringOf s rs).phase = .disabled then s else flushLost rs s) s
      else rings.foldl (fun s rs => discardWaiting rs s) s
    let s := raise Ev.PORT_LINK 0 (leN port 1 ++ leN (b2n up) 1 ++ leN (if up then lanes else 0) 1 ++ leN (if up then gen else 0) 1) s
    if up then emberReply port s else s

/-- PORT_LINK (R52). -/
def execPortLink (port : Nat) (up : Bool) (lanes gen : Nat) (s : State) : Out := .next (portLink port up lanes gen s)

end Sys2Proof.Machine
end

