-- ==== Sys2Proof/Machine/Power.lean ====
section
/-! DEFINITION. Machine/Power.lean: power states, entry and wake, retention (R378–R386). -/

namespace Sys2Proof.Machine

/-! ### COLD (R379, R400) -/

/-- A register of PWR or HLT, which sit in the always-on island. -/
def alwaysOn (key : Nat) : Bool :=
  decide (0x05C00000 ≤ key % 2 ^ 28) && decide (key % 2 ^ 28 < 0x06400000)

/-- SLEEP_N (R400). -/
def sleepPin (level : Nat) (s : State) : State := emit (.signal 0x17 0 level) s

/-- The plan in force, in mV. -/
def planMv (s : State) : Nat := (s.health.plans.head?.map MarginPlan.mv).getD 0

/-- What the always-on island keeps of a channel: its training values (R379). -/
def keepTraining (x : Channel) : Channel :=
  { state := if x.state = .retired then .retired else .off, sp := x.sp, spLimit := x.spLimit, gib := x.gib, ranks := x.ranks
    temp := x.temp, trainTemp := x.trainTemp, readEye := x.readEye, writeEye := x.writeEye, byteSwap := x.byteSwap
    caRev := x.caRev, differs := x.differs, outcome := x.outcome }

/-- COLD is entered: objects, leases, ring sets and commands end; the always-on island keeps its values, the DRAM training
values among them (R379). DEV_HEARTBEAT holds its value and DEV_ALARM.FATAL stands (Table 3-16, R77). A command's entry armed its
sources; another uses those configured. -/
def enterCold (cause step : Nat) (s : State) : State :=
  let p := s.power
  sleepPin 0 { State.reset with
    pending := s.pending, free := s.free, out := s.out, fuses := s.fuses, flash := s.flash, boot.cause := s.boot.cause, boot.fatal := s.boot.fatal
    boot.beat := s.boot.beat + (s.boot.beatFrom.map fun t => cyclesMs (s.clock.cycles - t)).getD 0
    dram.channels := s.dram.channels.map fun e => (e.1, keepTraining e.2)
    clock.cycles := s.clock.cycles, health := s.health, regs := s.regs.filter fun e => alwaysOn e.1
    power := { p with
      state := .cold, entry := none, step := 0, abort := false, pendingWake := [], ready := 0, lastLow := 2, coldCause := cause, failedStep := step
      wakeStep := 0, retried := false, reinstall := [], wakeReply := none
      armed := if cause = 0 then p.armed else p.sources, armEdges := if cause = 0 then p.armEdges else p.edges
      armGpio := if cause = 0 then p.armGpio else p.gpioMask, armAt := if cause = 0 then p.armAt else p.wakeAt } }

/-- COLD is left: kindling starts at boot step 2 (R379). -/
def leaveCold (s : State) : State :=
  sleepPin 1 { s with power.state := .active, power.ready := 0xF, power.fromCold := true }

/-- Whether a wake event is refused in COLD (R387, R399). -/
def coldBlocked (s : State) : Bool :=
  match s.power.coldCause with
  | 2 => s.health.temps.any fun t => decide (((rgBits s R.HLT_CTRL 23 16 : Int) - 15) * 4 ≤ t.2)
  | 3 => s.power.supplyOut
  | _ => false

/-! ### Entry (R381–R384) -/

/-- The subsystem charged with a wake source (Table 17-6). -/
def wakeSub : Nat → Nat
  | 0 => 0x02
  | 1 => 0x14
  | 7 => 0x00
  | _ => 0x15

/-- Why an entry ends: reason, refuser, blocking object. -/
structure Refuser where
  reason : Nat
  sub    : Nat
  obj    : Word := 0

/-- The preconditions of Table 17-4, in its order. -/
def entryRefuser (s : State) : Option Refuser :=
  let busy := fun sub (l : List Word) => l.head?.map fun h => ({ reason := 2, sub, obj := h } : Refuser)
  let aspBusy := fun (p : AspPort) => p.phase == .armed || p.phase == .running || p.phase == .hold || p.phase == .relock
  let dmc := s.dram.trains != [] || allChans.any (fun c => (chanOf s c).retrain) || s.dram.regions.any (fun r => rebuilding s r.2)
  busy 0x01 ((s.legs.filter fun l => l.2.state == .active).map fun l => legH l.1)
    <|> busy 0x0D ((s.asp.ports.filter fun p => aspBusy p.2).map fun p => aspH p.1)
    <|> busy 0x14 ((s.radio.radios.filter fun r => decide (r.1 < 3) && r.2.state != .off).map fun r => mkH 0x0D r.1)
    <|> busy 0x16 ((s.cap.sessions.filter fun x => x.2.busy).map fun x => sesH x.1)
    <|> (if dmc then some { reason := 2, sub := 0x07 } else none)
    <|> (if s.boot.programming then some { reason := 2, sub := 0x19 } else none)
    <|> (if s.health.migrating then some { reason := 2, sub := 0x18 } else none)

/-- A wake event pending (R383). -/
def wakeRefuser (s : State) : Option Refuser := s.power.pendingWake.head?.map fun b => { reason := 1, sub := wakeSub b }

/-- No wake source is enabled. -/
def noWake (s : State) : Option Refuser := if s.power.armed = 0 then some { reason := 7, sub := 0x17 } else none

/-- A DEV_ABORT that waits for the abort point (R384). -/
def abortRefuser (s : State) : Option Refuser := if ¬ s.power.abort then none else some { reason := 6, sub := 0x17 }

/-- Fetched commands completed and flues drained: TIMED commands wait through EMBER (R384). -/
def entryDrained (s : State) : Bool :=
  s.host.cmds.all (fun e => e.phase == .waitingTime || s.power.entry == some (e.cmd.rs, e.cmd.tag))
    && s.flues.all fun f => f.2.items == []

/-- An entry ends at its abort point: the steps are undone, the end logged, and the command answered (R382). -/
def endEntry (r : Refuser) (s : State) : State :=
  let p := s.power
  let point := p.step
  let s := { s with power := { p with
    state := .active, step := 0, entry := none, abort := false, pendingWake := [], vcore := planMv s, logged := p.logged + 1
    log := ({ refuser := r.sub, reason := r.reason, point, target := p.target, time := nowShort s, object := r.obj } :: p.log).take 16 } }
  let finish := fun (status detail : Nat) (res : List Byte) (s : State) =>
    match p.entry with
    | some (rs, tag) => finishRunning rs tag status detail 0 res s
    | none => s
  if r.reason = 6 then finish St.ABORTED 0 [] s
  else
    let s := bump32 (R.PWR_REFUSALS + 4 * r.sub) s
    let s := raise Ev.PWR_ENTRY_REFUSED devH (leN r.sub 1 ++ leN r.reason 1 ++ leN point 1 ++ leN 0 1 ++ leN r.obj.toNat 4) s
    finish (if point = 1 then St.PWR_REFUSED else St.PWR_ABORTED) r.sub
      (leN r.reason 1 ++ leN point 1 ++ leN r.sub 1 ++ leN 0 1 ++ leN r.obj.toNat 4) s

/-- Point 4 is passed on the way to EMBER: the links of the PCIe ports fall, the heartbeat holds its value. -/
def enterEmber (s : State) : State :=
  let s := raiseUnless R.PWR_EVENT_MASK 1 Ev.PWR_STATE devH (leN 0 1 ++ leN 2 1) s
  let s := [0, 1, 2].foldl (fun s p => portLink p false 0 0 s) s
  let beat := s.boot.beat + ((s.boot.beatFrom.map fun t => cyclesMs (s.clock.cycles - t)).getD 0)
  let s := allChans.foldl (fun s c => if (chanOf s c).state = .active then bump32 (chReg R.DMC_CH_SR_ENTRIES c) s else s) s
  bump R.PWR_EMBER_ENTRIES { s with
    boot.beat := beat, boot.beatFrom := none
    power := { s.power with state := .ember, step := 0, ready := 0, lastLow := 1, sleptAt := s.clock.cycles, vcore := 600 } }

/-- The entry passes its point: the next step starts; COLD skips step 3; past point 4 the entry is complete. -/
def passPoint (s : State) : State :=
  let p := s.power
  if p.step < 4 then
    { s with power.step := if p.step = 2 ∧ p.target = 3 then 4 else p.step + 1, power.stepAt := s.clock.cycles }
  else
    let s := trackMax R.PWR_ENTRY_TIME_MAX (cyclesUs (s.clock.cycles - p.entryAt)) s
    if p.target = 3 then enterCold 0 0 s else enterEmber s

/-- ENTRY_STEP_COMPLETE (R381): the step that runs ends and its abort point is tested; `fault` that a bank fails to enter retention
(step 3) or the regulator does not answer (step 4). -/
def entryStep (fault : Bool) (s : State) : State :=
  if s.power.state ≠ .entering then s
  else
    let s := if fault ∧ s.power.step = 4 then bump R.PWR_PMBUS_ERRORS s else s
    let own : Option Refuser := match s.power.step with
      | 1 => entryRefuser s <|> wakeRefuser s <|> noWake s
      | 3 => if fault then some { reason := 4, sub := 0x06 } else none
      | 4 => if fault then some { reason := 5, sub := 0x17 } else none
      | _ => none
    if s.power.step = 2 ∧ ¬ entryDrained s then s
    else
      match own <|> wakeRefuser s <|> abortRefuser s with
      | some r => endEntry r s
      | none => passPoint s

def execEntryStepComplete (fault : Bool) (s : State) : Out := .next (entryStep fault s)

/-- DRAIN_TIMEOUT (R381): DRAIN_MS end with the drain unfinished. -/
def drainTimeout (s : State) : State :=
  if s.power.state ≠ .entering ∨ s.power.step ≠ 2 ∨ entryDrained s then s
  else endEntry { reason := 3, sub := 0x01 } (tickTo (s.power.stepAt + msCycles (rgBits s R.PWR_CTRL 15 8)) s)

def execDrainTimeout (s : State) : Out := .next (drainTimeout s)

/-- PWR_STATE_SET (R378, R380, R384): on the device an entry starts; on a domain DOZE is permitted or forbidden. -/
def pwrStatePlan (c : Cmd) (s : State) : Plan :=
  let t := u8 c.params 0
  let dom := hCls c.handle == 0x10
  { op := 0x1001, priv := 2, handleOk := handleDev c.handle || handleIn s [0x10] c.handle, touches := [c.handle]
    state := if ¬ dom ∧ s.power.state ≠ .active then some (wrongState 1) else none
    param := firstBad [(if dom then decide (t < 2) else t == 2 || t == 3, badParam 0)]
    run := fun s =>
      if dom then
        .ok { s with power.domains := Tbl.upd s.power.domains (hIdx c.handle) {} fun x => { x with permitted := t == 1 } }
      else
        .defer { s with power := { s.power with
          state := .entering, target := t, entry := some (c.rs, c.tag), step := 1, entryAt := s.clock.cycles, stepAt := s.clock.cycles
          abort := false, pendingWake := [], armed := s.power.sources, armEdges := s.power.edges, armGpio := s.power.gpioMask
          armAt := s.power.wakeAt } } }

def execPwrStateSet (c : Cmd) (s : State) : Out := .next (hostCmd 0x1001 pwrStatePlan c s)

/-- PWR_WAKE_SET (R383, Table 17-12). -/
def pwrWakePlan (c : Cmd) (s : State) : Plan :=
  let p := c.params
  { op := 0x1002, priv := 2, handleOk := handleDev c.handle, touches := [devH], len := some 24
    param := firstBad
      [ (decide (u32 p 0 < 256), badParam 0), (decide (u8 p 4 < 32), badParam 4)
      , (!bit (u32 p 0) 6 || decide ((nowNs s : Int) ≤ nearestNs s (u64 p 16)), ⟨St.TIME_PASSED, 0⟩) ]
    run := fun s => .ok { s with power := { s.power with
      sources := u32 p 0, edges := u8 p 4, gpioMask := u32 p 8, wakeAt := BitVec.ofNat 64 (u64 p 16) } } }

def execPwrWakeSet (c : Cmd) (s : State) : Out := .next (hostCmd 0x1002 pwrWakePlan c s)

/-! ### Wake (R383, R386) -/

/-- PWR_WAKE_EVENT as raised. -/
def wakeEvent (bit_ during : Nat) (s : State) : State :=
  raiseUnless R.PWR_EVENT_MASK 0 Ev.PWR_WAKE_EVENT devH (leN bit_ 1 ++ leN (wakeSub bit_) 1 ++ leN during 1) s

/-- An event of a wake source (R383, R386): during an entry it is pending; in EMBER the wake starts; in COLD, unless it is refused,
kindling starts; further events change nothing. -/
def wakeSource (b : Nat) (s : State) : State :=
  if 8 ≤ b ∨ ¬ bit s.power.armed b then s
  else
    let s := if b = 6 then tickToNs (nearestNs s s.power.armAt.toNat).toNat s else s
    match s.power.state with
    | .entering => wakeEvent b 1 { s with power.pendingWake := s.power.pendingWake ++ [b] }
    | .ember =>
      let ms := cyclesMs (s.clock.cycles - s.power.sleptAt)
      bumpBy R.PWR_EMBER_MS ms { s with
        boot.emberExit := true
        power := { s.power with state := .waking, wakeStep := 1, retried := false, wakeFrom := s.clock.cycles, stepAt := s.clock.cycles
                                ready := 0, lastWake := some b, slept := ms, banksLost := 0 } }
    | .cold => if coldBlocked s then s else wakeEvent b 0 (leaveCold { s with power.lastWake := some b })
    | _ => s

/-- PWR_WAKE_EVENT (R383). -/
def execPwrWakeEvent (source : Nat) (s : State) : Out := .next (wakeSource source s)

/-! ### LOST banks (R385, Table 17-5) -/

/-- A lost object waits for its reinstall, and with it its owner's leg. -/
def lose (h : Word) (bank part : Nat) (owner : Word) (s : State) : State :=
  let r := Tbl.put s.power.reinstall h.toNat (bank, part, owner)
  { s with power.reinstall := if hCls owner = 2 then Tbl.put r owner.toNat (bank, part, owner) else r }

/-- The legs among owners raise LEG_STATE with reason RETENTION_LOST; an ACTIVE one is HELD (Table 1-3). -/
def retentionLegs (owners : List Word) (s : State) : State :=
  owners.eraseDups.foldl (fun s o =>
    if hCls o ≠ 2 then s
    else match (Tbl.get? s.legs (hIdx o)).map Leg.state with
      | some .active => holdLeg (hIdx o) 3 s
      | some st => legEvent (hIdx o) st.num st.num 3 s
      | none => s) s

/-- STATE of the tasks of a core comes back from the newer checkpoint copy. -/
def restoreCore (k : Nat) (s : State) : State :=
  (tasksAt s k).foldl (fun s e =>
    let t := e.2
    let c0 := t.ckpts.getD 0 {}
    let c1 := t.ckpts.getD 1 {}
    dmemWrite k (t.areas.getD 3 0) (fit (if c1.seq ≤ c0.seq then c0.state else c1.state) t.stateLen) s) s

/-- Flow entries whose place lies in a bank. -/
def flowsInBank (s : State) (b : Nat) : List (Nat × Flow) :=
  s.pkt.flows.filter fun e => !e.2.inCam && !e.2.removed && Config.flowBank e.2.way e.2.bucket e.2.slot % 256 == b

/-- Written key slots whose place lies in bank `k` of their partition. -/
def keysInBank (s : State) (k : Nat) : List (Nat × Key) :=
  s.keys.filter fun e => e.2.written && Config.keyBank e.1 % 32 == k

/-- What a LOST bank costs (Table 17-5): the objects to reinstall. -/
def loseBank (b : Nat) (s : State) : List Word × State :=
  match partOf s b with
  | 0 =>
    let l := flowsInBank s b
    let s := l.foldl (fun s e => lose (mkH 0x0A e.1) b 0 e.2.owner (modFlow e.1 (fun f => { f with removed := true }) s)) s
    (l.map fun e => mkH 0x0A e.1, retentionLegs (l.map fun e => e.2.owner) s)
  | 1 =>
    let l := keysInBank s (b - 256)
    let s := l.foldl (fun s e => lose (keyH e.1) b 1 e.2.owner (modKey e.1 (fun k => { k with written := false, material := [], left := [] }) s)) s
    (l.map fun e => keyH e.1, retentionLegs (l.map fun e => e.2.owner) s)
  | 3 => ([], restoreCore (b - 544) s)
  | 5 =>
    ([], { s with flues := Tbl.each s.flues fun i f =>
      if Config.flueIn b i then
        { f with items := [], head := 0, consumed := 0, opener := none, skipping := false, inPacket := false, headIn := false, lost := true }
      else f })
  | 8 => ([], { s with radio.radios := Tbl.each s.radio.radios fun _ x => { x with valid := 0 } })
  | _ => ([], s)

/-- A bank whose signature does not match is LOST and zeroed; RETENTION_LOST is raised (R385). -/
def retentionLost (s : State) (b : Nat) : State :=
  if 1536 ≤ b ∨ partOf s b = 2 ∨ partOf s b = 9 then s
  else
    let part := partOf s b
    let (hs, s) := loseBank b { s with
      sram.lostBanks := if s.sram.lostBanks.contains b then s.sram.lostBanks else s.sram.lostBanks ++ [b]
      sram.cells := Memory.clear s.sram.cells (131072 * b) 131072, power.banksLost := s.power.banksLost + 1 }
    raise Ev.RETENTION_LOST devH (leN b 2 ++ leN part 1 ++ leN 0 1 ++ leN hs.length 4 ++ leN (hs.headD 0).toNat 4)
      (bump R.PWR_RETAIN_LOST s)

/-- DRAM leaves self-refresh: a channel retrains only where the temperature has moved by TEMP_DELTA (R135). -/
def selfRefreshExit (memTemp : Int) (s : State) : State :=
  allChans.foldl (fun s c =>
    if (chanOf s c).state = .active then
      let s := modChan c (fun x => { x with temp := memTemp }) s
      if (rgBits s R.DMC_RETRAIN_CFG 15 8 : Int) ≤ |memTemp - (chanOf s c).trainTemp| then startRetrain c s else s
    else s) s

/-- LOGIC_READY: fetching goes on; the wake event is raised; the entry is answered on MP, or once its port's link is back. -/
def logicReady (s : State) : State :=
  let p := s.power
  let b := p.lastWake.getD 0
  let s := trackMax R.PWR_WAKE_TIME_MAX (cyclesUs (s.clock.cycles - p.wakeFrom)) s
  let s := { s with power := { p with state := .active, wakeStep := 0, entry := none }
                    boot.emberExit := false, boot.beatFrom := some s.clock.cycles }
  let s := wakeEvent b 0 s
  let s := raiseUnless R.PWR_EVENT_MASK 1 Ev.PWR_STATE devH (leN 2 1 ++ leN 0 1) s
  match p.entry with
  | some (rs, tag) =>
    let s := { s with power.wakeReply := some (rs, tag, leN b 1 ++ leN 0 1 ++ leN p.banksLost 2 ++ leN p.slept 4) }
    if portUp s (portOf rs) then emberReply (portOf rs) s else s
  | none => s

/-- WAKE_STEP_READY (R386): the wake step that runs sets its ready bit and the next one starts. -/
def wakeReady (lostBanks : List Nat) (memTemp : Int) (s : State) : State :=
  if s.power.state ≠ .waking then s
  else
    let k := s.power.wakeStep
    let s := { s with power := { s.power with ready := setBit s.power.ready (k - 1) true, wakeStep := k + 1, retried := false
                                              stepAt := s.clock.cycles } }
    match k with
    | 1 => { s with power.vcore := planMv s }
    | 3 => selfRefreshExit memTemp (lostBanks.foldl retentionLost s)
    | 4 => logicReady s
    | _ => s

def execWakeStepReady (lostBanks : List Nat) (memTemp : Int) (s : State) : Out := .next (wakeReady lostBanks memTemp s)

/-- The timeouts of Table 17-7, in ms. -/
def wakeTimeout : Nat → Nat
  | 2 => 100
  | 3 => 150
  | _ => 10

/-- WAKE_STEP_TIMEOUT (R386): a step is retried once; then COLD, cause WAKE_FAIL, and a restart from there. -/
def wakeStepTimeout (s : State) : State :=
  if s.power.state ≠ .waking then s
  else
    let s := tickTo (s.power.stepAt + msCycles (wakeTimeout s.power.wakeStep)) s
    let s := if s.power.wakeStep = 1 then bump R.PWR_PMBUS_ERRORS s else s
    if s.power.retried then leaveCold (enterCold 1 s.power.wakeStep s)
    else { s with power.retried := true, power.stepAt := s.clock.cycles }

def execWakeStepTimeout (s : State) : Out := .next (wakeStepTimeout s)

/-! ### Registers and PWR_QUERY (Table 17-14) -/

/-- A word of the PWR block by its offset, where it is derived. -/
def pwrWord (s : State) (off : Nat) : Nat :=
  let p := s.power
  let stored := rgRaw s (0x05C00000 + off)
  if 0x100 ≤ off then
    let i := (off - 0x100) / 16
    match p.log[(p.logged + 15 - i) % 16]? with
    | none => 0
    | some l =>
      match off % 16 with
      | 0 => l.refuser + 256 * l.reason + 65536 * l.point + 2 ^ 20 * l.target + 2 ^ 31
      | 4 => l.time.toNat % 2 ^ 32
      | 8 => l.time.toNat / 2 ^ 32
      | _ => l.object.toNat
  else if 0xE8 ≤ off then
    let d := domainOf s ((off - 0xE8) / 4)
    b2n d.dozing + 4 * b2n d.permitted + 256 * d.entries
  else match off with
  | 0x04 => (match p.state with
      | .active => 0
      | .entering => 1
      | .waking => 3
      | _ => 2) + 16 * p.step + 256 * p.ready
  | 0x08 => p.sources + 256 * p.edges
  | 0x0C => p.gpioMask
  | 0x10 => p.wakeAt.toNat % 2 ^ 32
  | 0x14 => p.wakeAt.toNat / 2 ^ 32
  | 0x18 => (p.lastWake.map fun b => b + 256 * wakeSub b).getD 0
  | 0x1C => p.lastLow + 16 * p.failedStep + 256 * p.coldCause
  | 0x24 => p.vcore % 65536 + 65536 * (Tbl.getD s.health.vmon 0 p.vcore % 65536)
  | 0x30 => (rgRaw s R.PWR_EMBER_MS + if p.state = .ember then cyclesMs (s.clock.cycles - p.sleptAt) else 0) % 2 ^ 32
  | 0x34 => (rgRaw s R.PWR_EMBER_MS + if p.state = .ember then cyclesMs (s.clock.cycles - p.sleptAt) else 0) / 2 ^ 32
  | 0x40 => p.logged % 16 + 256 * min 16 p.logged
  | 0x28 => rgRaw s R.PWR_EMBER_ENTRIES % 2 ^ 32
  | 0x2C => rgRaw s R.PWR_EMBER_ENTRIES / 2 ^ 32
  | 0x44 => rgRaw s R.PWR_PMBUS_ERRORS % 2 ^ 32
  | 0x48 => rgRaw s R.PWR_PMBUS_ERRORS / 2 ^ 32
  | 0x4C => rgRaw s R.PWR_RETAIN_LOST % 2 ^ 32
  | 0x50 => rgRaw s R.PWR_RETAIN_LOST / 2 ^ 32
  | _ => stored

/-- PWR_QUERY (R385): the registers PWR_STATUS to PWR_RETAIN_LOST, then the objects that wait for their reinstall. -/
def pwrQueryPlan (c : Cmd) (_ : State) : Plan :=
  Plan.query 0x1003 false (handleDev c.handle) 8 none fun s =>
    let items := (s.power.reinstall.filter fun e => e.1 / 16777216 != 2).map fun e =>
      leN e.1 4 ++ leN e.2.1 2 ++ leN e.2.2.1 1 ++ leN 0 1
    itemsAnswer ((List.range 20).flatMap fun k => leN (pwrWord s (4 + 4 * k)) 4) items (u32 c.params 0)

def execPwrQuery (c : Cmd) (s : State) : Out := .next (hostCmd 0x1003 pwrQueryPlan c s)

end Sys2Proof.Machine
end

