-- ==== Sys2Proof/Machine/Wlan.lean ====
section
/-! DEFINITION. Machine/Wlan.lean: roles, BSSs, stations and their lives, TWT, the wake-up radio service and scans
(R297–R318). -/

namespace Sys2Proof.Machine

/-! ### Frames of the device's own -/

/-- A management frame of a station goes to the first of its links. -/
def sendMgmt (i : Nat) (s : State) : State :=
  match radiosIn (staOf s i).links with
  | [] => s
  | r :: _ => (requestTx r { earliest := nowNs s, latest := nowNs s + 100000000, what := .frame } s).2

/-- A radio that holds a role and is IDLE listens (R320). -/
def listen (r : Nat) (s : State) : State :=
  if (radioOf s r).state = .idle then modRadio r (fun x => { x with state := .receive }) s else s

/-! ### Roles (R297, Table 13-5) -/

/-- The role a radio has or will have. -/
def roleAhead (s : State) (r : Nat) : Nat :=
  match (roleOf s r).next with
  | some n => n.1
  | none => (roleOf s r).role

/-- The radio with which a role conflicts (R297). -/
def roleConflict (s : State) (r role : Nat) : Option Nat :=
  ([0, 1, 2].filter (· != r)).find? fun o =>
    (role == 3 && (roleAhead s o == 1 || roleAhead s o == 2)) || ((role == 1 || role == 2) && roleAhead s o == 3)

/-- The radio carries a BSS or a station. -/
def roleBusy (s : State) (r : Nat) : Bool := carriesBss s r || s.wlan.stas.any fun a => bit a.2.links r

/-- WLAN_ROLE_SET (R297). -/
def wlanRolePlan (c : Cmd) (s : State) : Plan :=
  let p := c.params
  let r := hIdx c.handle
  let role := u8 p 0
  { op := 0x0C01, handleOk := handleIn s [0x0D] c.handle && decide (r ≤ 2), touches := [c.handle]
    state := if role ≠ (roleOf s r).role ∧ roleBusy s r then some (wrongState 1)
      else (roleConflict s r role).map fun o => ⟨St.WLAN_ROLE_CONFLICT, o⟩
    param := firstBad
      [ (decide (role ≤ 3), badParam 0), (decide (u8 p 1 ≤ 1), badParam 1), (decide (u16 p 2 < 4096), badParam 2)
      , (decide (u8 p 4 ≤ 64), badParam 4) ]
    run := fun s =>
      let users := if u8 p 4 = 0 then 64 else u8 p 4
      let put := fun (f : WlanRole → WlanRole) => { s with wlan.roles := Tbl.upd s.wlan.roles r {} f }
      if (radioOf s r).state = .off then .ok (put fun x => { x with next := some (role, u8 p 1, u16 p 2, users) })
      else
        let s := put fun _ => { role, rflags := u8 p 1, vlan := u16 p 2, maxUsers := users }
        .ok (if role = 0 then s else listen r s) }

/-- WLAN_ROLE_SET (R297). -/
def execWlanRoleSet (c : Cmd) (s : State) : Out := .next (hostCmd 0x0C01 wlanRolePlan c s)

/-! ### Key slots of wireless access (R314) -/

/-- The lowest free key slot is reserved for an owner. -/
def reserveKey (owner : Word) (suite : Nat) (s : State) : Option (Nat × State) :=
  if 65536 ≤ keysDrawn s then none
  else (Tbl.lowestFree s.keys 0 65536).map fun k => (k, { s with keys := Tbl.put s.keys k { suite, owner, written := false } })

/-- `n` slots for group keys. -/
def reserveKeys (suite : Nat) : Nat → State → List Nat × State
  | 0, s => ([], s)
  | n + 1, s =>
    match reserveKey devH suite s with
    | none => ([], s)
    | some (k, s) => let (l, s) := reserveKeys suite n s; (k :: l, s)

/-- A key of the Hearth's is put into a slot: the next generation; the frames in flight finish on the old one (R169). -/
def renewKey (k : Nat) (s : State) : State :=
  modKey k (fun x => { x with
    gen := if x.written then (x.gen + 1) % 256 else x.gen, written := true, counter := 0, win := 0, fresh := true, warned := false, spent := false
    left := if x.written ∧ Tbl.has x.inflight x.gen then x.left ++ [x.gen] else x.left }) s

/-! ### BSSs (R299, R303, Table 13-6) -/

/-- The first radio of a mask that is not in a role. -/
def roleMissing (s : State) (mask role : Nat) : Option Nat := (radiosIn mask).find? fun r => (roleOf s r).role != role

/-- Parameters of BSS_CREATE. -/
def bssBad (p : List Byte) : Option Err :=
  firstBad
    [ (decide (u8 p 0 ≤ 15), badParam 0), (decide (1 ≤ u8 p 1 ∧ u8 p 1 ≤ 7), badParam 1)
    , (decide (u8 p 2 ≤ 3) && !(u8 p 2 == 0 && bit (u8 p 1) 2), badParam 2), (decide (u8 p 3 < 16), badParam 3)
    , (decide (1 ≤ u8 p 4 ∧ u8 p 4 ≤ 32), badParam 4), (decide (1 ≤ u8 p 5), badParam 5)
    , (u16 p 6 == 0 || decide (20 ≤ u16 p 6 ∧ u16 p 6 ≤ 1000), badParam 6), (decide (u16 p 8 < 4096), badParam 8)
    , (decide (u16 p 16 ≤ 4096), badParam 16), (u16 p 18 == 0 || decide (10 ≤ u16 p 18 ∧ u16 p 18 ≤ 10080), badParam 18)
    , (decide (u8 p 38 ≤ 1), badParam 38), (!bit (u8 p 2) 0 || (slice p 72 8).all (· != 0), badParam 72)
    , (!bit (u8 p 2) 1 || u8 p 104 != 0, badParam 104) ]

/-- Three group key slots per affiliated AP; a BSS with several radios is an AP MLD, of suite 7. -/
def groupSlotsOf (p : List Byte) : Nat := 3 * (radiosIn (u8 p 1)).length
def groupSuite (p : List Byte) : Nat := if 2 ≤ (radiosIn (u8 p 1)).length then 7 else 6

/-- A BSS colour of 1–63, which the spec leaves open. -/
def freeColour (s : State) : Nat × State := let (v, s) := takeFree s; (1 + v % 63, s)

/-- BSS_CREATE (R299, R314). -/
def bssCreatePlan (c : Cmd) (s : State) : Plan :=
  let p := c.params
  let b := u8 p 0
  { op := 0x0C02, handleOk := handleDev c.handle, touches := [devH], len := some 128
    state := if Tbl.has s.wlan.bsss b then some (wrongState 2)
      else (roleMissing s (u8 p 1) 1).map fun r => ⟨St.WLAN_ROLE_CONFLICT, r⟩
    param := bssBad p
    res := if 65536 < keysDrawn s + groupSlotsOf p then some (noResource 6) else none
    run := fun s =>
      let (c0, s) := freeColour s
      let (c1, s) := freeColour s
      let (c2, s) := freeColour s
      let has := fun r n => if bit (u8 p 1) r then n else 0
      let (keys, s) := reserveKeys (groupSuite p) (groupSlotsOf p) s
      let s := keys.foldl (fun s k => renewKey k s) s
      .ok { s with wlan.bsss := Tbl.put s.wlan.bsss b <|
              { params := p.take 128, colours := [has 0 c0, has 1 c1, has 2 c2], gtkAt := s.clock.cycles, keys
                beaconNs := [nowNs s, nowNs s, nowNs s] } } }

/-- BSS_CREATE (R299). -/
def execBssCreate (c : Cmd) (s : State) : Out := .next (hostCmd 0x0C02 bssCreatePlan c s)

/-- Stations of a BSS. -/
def bssStas (s : State) (b : Nat) : List Nat := (s.wlan.stas.filter fun a => a.2.bss == b).map Prod.fst

/-- A BSS whose deletion runs and that has no station left goes (R303). -/
def bssAdvance (b : Nat) (s : State) : State :=
  match Tbl.get? s.wlan.bsss b with
  | none => s
  | some x =>
    match x.stopping with
    | none => s
    | some (rs, tag, _, n) =>
      if bssStas s b ≠ [] then s
      else
        let s := x.keys.foldl (fun s k => zeroiseSlot k s) s
        finishRunning rs tag St.OK 0 n [] { s with wlan.bsss := Tbl.del s.wlan.bsss b }

/-! ### Lives of a station (R304–R306, Table 13-3) -/

/-- AIDs in use, and the lowest free one: 1–15 are kept while MBSSID is 1. -/
def freeAid (s : State) : Option Nat :=
  let used := (s.wlan.stas.map fun a => a.2.aid)
  let lo := if bit (rgRaw s R.WMC_CTRL) 0 then 16 else 1
  ((List.range (2008 - lo)).map (· + lo)).find? fun a => !used.contains a

/-- Pools of Table 13-3: stations, then AIDs. -/
def staPools (s : State) : Option Err :=
  if 1024 ≤ s.wlan.stas.length then some (noResource 0x70) else if (freeAid s).isNone then some (noResource 0x73) else none

/-- WUR stations, and the free place for one. -/
def wurStas (s : State) : Nat := (s.wlan.stas.filter fun a => a.2.wur).length

/-- A new station's counters start at zero. -/
def clearStaCounters (i : Nat) (s : State) : State :=
  [R.WMC_W_RX_MPDUS, R.WMC_W_TX_MPDUS, R.WMC_W_DUP_RX, R.WMC_W_RETRIES, R.WMC_W_DISCARDS].foldl (fun s r => setRg (staCtr r i) 0 s) s

/-- A station enters AUTHENTICATING: index and AID are reserved. -/
def addSta (i : Nat) (a : Sta) (s : State) : State :=
  clearStaCounters i { s with wlan.stas := Tbl.put s.wlan.stas i <|
    { a with state := .authenticating, since := s.clock.cycles, aid := (freeAid s).getD 0, lastRx := s.clock.cycles, deficitAt := s.clock.cycles } }

/-- The result of STA_ADMIT. -/
def admitResult (s : State) (i : Nat) : List Byte := leN (staH i).toNat 4 ++ leN (staOf s i).aid 2 ++ leN 0 2

/-- AUTHORIZED (R305): data flows, STA_ASSOC, and the STA_ADMIT that waits is answered. -/
def toAuthorized (i reason : Nat) (s : State) : State :=
  let s := modSta i (fun a => { a with state := .authorized, since := s.clock.cycles, misses := 0, capMisses := 0, unreachAt := none, probes := 0 }) s
  let a := staOf s i
  let s := raiseUnless R.WMC_EVENT_MASK 0 Ev.STA_ASSOC (staH i)
    (leN a.bss 1 ++ leN a.links 1 ++ leN reason 1 ++ leN 0 1 ++ leN a.aid 2) (bump R.WMC_ASSOCS s)
  match a.admission with
  | some (rs, tag) => finishRunning rs tag St.OK 0 1 (admitResult s i) (modSta i (fun a => { a with admission := none }) s)
  | none => s

/-- REMOVING (Table 13-3): STA_LEAVE is raised; a STA_ADMIT that waits fails with the reason. -/
def removing (i reason : Nat) (byDevice : Bool) (s : State) : State :=
  let a := staOf s i
  if a.state = .removing ∨ ¬ Tbl.has s.wlan.stas i then s
  else
    let s := modSta i (fun a => { a with state := .removing, reason, byStation := !byDevice, admission := none, request := none }) s
    let s := raiseUnless R.WMC_EVENT_MASK 0 Ev.STA_LEAVE (staH i) (leN a.bss 1 ++ leN 0 1 ++ leN reason 2 ++ leN (b2n byDevice) 1) s
    match a.admission with
    | some (rs, tag) => finishRunning rs tag St.AUTH_FAILED reason 0 [] s
    | none => s

/-- The CONN pairs of a station, by their outbound entries; its flow entries that have not drained. -/
def staConns (s : State) (i : Nat) : List Nat :=
  (s.pkt.flows.filter fun e => e.2.kind == 7 && e.2.byte 1 == 0 && !e.2.removed && u16 e.2.bytes 2 == i && !e.2.v6).map Prod.fst
def staDraining (s : State) (i : Nat) : Bool := s.pkt.flows.any fun e => e.2.kind == 7 && u16 e.2.bytes 2 == i && e.2.removed && !e.2.v6

/-- The station is FREE: its handle leaves the leases, its BSS_DELETE goes on, each STA_REMOVE is answered. -/
def freeSta (i : Nat) (s : State) : State :=
  let a := staOf s i
  let s := leaveLeases (staH i) { s with wlan.stas := Tbl.del s.wlan.stas i }
  let s := finishAll a.removers St.OK 0 1 s
  bssAdvance a.bss (modBss a.bss (fun b => { b with stopping := b.stopping.map fun x => (x.1, x.2.1, x.2.2.1, x.2.2.2 + 1) }) s)

/-- A station in REMOVING releases what it holds, in order (R306). -/
def releaseSta (i : Nat) (s : State) : State :=
  let a := staOf s i
  let s := bumpBy (staCtr R.WMC_W_DISCARDS i) a.queued (modSta i (fun a => { a with queues := [0, 0, 0, 0], committed := [0, 0, 0, 0] }) s)
  let s := match a.keySlot with
    | some k => zeroiseSlot k s
    | none => s
  let s := (s.keys.filter fun e => e.2.owner == staH i).foldl (fun s e => zeroiseSlot e.1 s) s
  let s := (staConns s i).foldl (fun s f => removeConn f s) s
  let s := { s with pkt.neighbours := s.pkt.neighbours.filter fun e => !(e.2.iface == 32 && !e.2.static_ && e.2.mac == a.mac) }
  attachLost i (modSta i (fun a => { a with boards := [], keySlot := none }) s)

/-- STA_LEAVE (R306): the resources are released in order; the station is FREE once its entries have drained. -/
def staLeave (i : Nat) (s : State) : State :=
  if (Tbl.get? s.wlan.stas i).map Sta.state ≠ some .removing then s
  else
    let s := releaseSta i s
    if staDraining s i then s else freeSta i s

/-- STA_LEAVE (R306). -/
def execStaLeave (sta : Nat) (s : State) : Out := .next (staLeave sta s)

/-- BSS_DELETE (R303): the stations are deauthenticated and removed. -/
def bssDeletePlan (c : Cmd) (s : State) : Plan :=
  let p := c.params
  let b := u8 p 0
  { op := 0x0C03, handleOk := handleDev c.handle, touches := devH :: (bssStas s b).map staH
    state := if (bssOf s b).stopping.isSome then some (wrongState (Config.detail 0x0C03 0)) else none
    param := firstBad [(Tbl.has s.wlan.bsss b, badParam 0)]
    run := fun s =>
      let reason := if u16 p 2 = 0 then 3 else u16 p 2
      let s := modBss b (fun x => { x with stopping := some (c.rs, c.tag, reason, 0) }) s
      let s := (bssStas s b).foldl (fun s i => removing i reason true (sendMgmt i s)) s
      .defer (bssAdvance b s) }

/-- BSS_DELETE (R303). -/
def execBssDelete (c : Cmd) (s : State) : Out := .next (hostCmd 0x0C03 bssDeletePlan c s)

/-- An authentication fails (R315): counted, raised; the fifth failure of an address in 60 s shuts it out for 60 s. -/
def authFail (bss stage : Nat) (mac : List Byte) (s : State) : State :=
  let now := s.clock.cycles
  let fails := (s.wlan.fails.filter fun e => decide (now < e.2 + msCycles 60000)) ++ [(mac, now)]
  let five := decide (5 ≤ (fails.filter fun e => e.1 == mac).length)
  raiseUnless R.WMC_EVENT_MASK 1 Ev.AUTH_FAIL 0 (leN bss 1 ++ leN stage 1 ++ mac.take 6) (bump R.WMC_AUTH_FAIL { s with
    wlan.fails := if five then fails.filter (fun e => e.1 != mac) else fails
    wlan.ignored := if five then s.wlan.ignored ++ [(mac, now + msCycles 60000)] else s.wlan.ignored })

def ignoredMac (s : State) (mac : List Byte) : Bool := s.wlan.ignored.any fun e => e.1 == mac && decide (s.clock.cycles < e.2)

/-- Whether a station needs no handshake: an open BSS, or host keys (R305, R315). -/
def noHandshake (s : State) (a : Sta) : Bool := if a.bss = 0xFF then a.akm == 0 || a.akm == 2 else (bssOf s a.bss).security == 0

/-- The association is accepted (Table 13-3): ASSOCIATED with its pairwise slot reserved, at once AUTHORIZED where no
handshake is needed. Without a key slot it is not accepted. -/
def associate (i : Nat) (s : State) : State :=
  let a := staOf s i
  let s := if a.state = .authorized then attachLost i s else s
  let again := a.state == .authorized
  let s := modSta i (fun a => { a with state := .associated, since := s.clock.cycles, request := none, reassoc := again, step := 0, stepAt := s.clock.cycles }) s
  if noHandshake s a then toAuthorized i (if again then 2 else 0) s
  else
    match a.keySlot with
    | some _ => sendMgmt i s
    | none =>
      match reserveKey (staH i) (if a.eht || a.mld then 7 else 6) s with
      | some (k, s) => sendMgmt i (modSta i (fun a => { a with keySlot := some k }) s)
      | none => modSta i (fun x => { x with state := .authenticating, request := none }) s

/-- The 4-way handshake is complete. -/
def handshakeDone (i : Nat) (s : State) : State :=
  let a := staOf s i
  let s := match a.keySlot with
    | some k => renewKey k s
    | none => s
  toAuthorized i (if a.reassoc then 2 else 0) s

/-- A handshake fails (R314): counted, and the station goes with its reason. -/
def handshakeFailed (i reason : Nat) (s : State) : State :=
  let a := staOf s i
  removing i reason true (authFail a.bss 2 a.mac s)

/-! ### STA_ADMIT and STA_REMOVE (Table 13-7) -/

/-- The role a mode needs. -/
def admitRole (mode : Nat) : Nat := if mode = 1 then 3 else 2

/-- Parameters of STA_ADMIT. -/
def admitBad (p : List Byte) : Option Err :=
  let m := u8 p 0
  let own := m != 0
  firstBad
    [ (decide (m ≤ 2), badParam 0), (own || decide (u8 p 1 ≤ 1), badParam 1), (!own || decide (1 ≤ u8 p 4 ∧ u8 p 4 ≤ 7), badParam 4)
    , (!own || (decide (u8 p 5 ≤ 2) && (u8 p 5 != 2 || m == 1) && !(u8 p 5 == 0 && bit (u8 p 4) 2)), badParam 5)
    , (!own || decide (u8 p 6 < 8), badParam 6), (!own || decide (1 ≤ u8 p 7 ∧ u8 p 7 ≤ 32), badParam 7)
    , (m != 1 || !groupMac (slice p 8 6), badParam 8), (u8 p 5 != 1 || !own || (slice p 48 8).all (· != 0), badParam 48)
    , (!own || !bit (u8 p 6) 2 || decide (1000 ≤ u32 p 80 ∧ u32 p 80 ≤ 60000000), badParam 80)
    , (!own || !bit (u8 p 6) 2 || decide (256 ≤ u16 p 84 ∧ u16 p 84 ≤ u32 p 80 / 2), badParam 84) ]

/-- The station of modes 1 and 2. -/
def ownSta (s : State) (c : Cmd) : Sta :=
  let p := c.params
  let mac := slice p 8 6
  let multi := decide (2 ≤ (radiosIn (u8 p 4)).length)
  { bss := 0xFF, radio := (radiosIn (u8 p 4)).headD 0, links := u8 p 4, mld := multi, eht := multi, akm := u8 p 5
    mac := if u8 p 0 = 2 ∧ mac.all (· == 0) then macAt s (if multi then 100 else 96 + (radiosIn (u8 p 4)).headD 0) else mac
    ps := bit (u8 p 6) 0 || bit (u8 p 6) 1, wur := bit (u8 p 6) 1, twtCap := bit (u8 p 6) 2, listen := u16 p 14
    ssid := slice p 16 (u8 p 7), password := slice p 48 32, parent := slice p 88 6, admission := some (c.rs, c.tag)
    twts := if bit (u8 p 6) 2 then [(0, { wakeUs := u32 p 80, spUs := u16 p 84, startNs := nowNs s + u32 p 80 * 1000 })] else [] }

/-- STA_ADMIT (R305, R306). -/
def staAdmitPlan (c : Cmd) (s : State) : Plan :=
  let p := c.params
  let m := u8 p 0
  { op := 0x0C04, handleOk := if m = 0 then handleIn s [0x0C] c.handle else handleNew 0x0C c.handle
    touches := if hIdx c.handle = idxChoose then [] else [c.handle], len := some 96
    state :=
      if m = 0 then (if (staOf s (hIdx c.handle)).request.isNone then some (wrongState 3) else none)
      else notFree 0x0C04 s.wlan.stas c.handle
        <|> (if m ≤ 2 then (roleMissing s (u8 p 4) (admitRole m)).map (fun r => ⟨St.WLAN_ROLE_CONFLICT, r⟩) else none)
        <|> (if m = 2 ∧ s.wlan.stas.any (fun a => a.2.bss == 0xFF) then some (wrongState (Config.detail 0x0C04 1)) else none)
    param := admitBad p
    res := if m = 0 then
        (if u8 p 1 = 1 ∧ ¬ noHandshake s (staOf s (hIdx c.handle)) ∧ (staOf s (hIdx c.handle)).keySlot.isNone ∧ 65536 ≤ keysDrawn s
          then some (noResource 6) else none)
      else staPools s <|> (if bit (u8 p 6) 1 ∧ 512 ≤ wurStas s then some (noResource 0x71) else none)
    run := fun s =>
      if m = 0 then
        let i := hIdx c.handle
        let s := if u8 p 1 = 1 then associate i s else sendMgmt i (modSta i (fun a => { a with request := none }) s)
        .okWith s (admitResult s i)
      else
        match newIndex s.wlan.stas c.handle 0 1024 with
        | some i => .defer (sendMgmt i (addSta i (ownSta s c) s))
        | none => .ok s }

/-- STA_ADMIT (R305). -/
def execStaAdmit (c : Cmd) (s : State) : Out := .next (hostCmd 0x0C04 staAdmitPlan c s)

/-- STA_REMOVE (R306): it completes when the station is FREE. -/
def staRemovePlan (c : Cmd) (s : State) : Plan :=
  let p := c.params
  { op := 0x0C05, handleOk := handleIn s [0x0C] c.handle, touches := [c.handle]
    run := fun s =>
      let i := hIdx c.handle
      let s := modSta i (fun a => { a with removers := a.removers ++ [(c.rs, c.tag)] }) s
      if (staOf s i).state = .removing then .defer s
      else .defer (removing i (if u16 p 0 = 0 then 1 else u16 p 0) true (sendMgmt i s)) }

/-- STA_REMOVE (R306). -/
def execStaRemove (c : Cmd) (s : State) : Out := .next (hostCmd 0x0C05 staRemovePlan c s)

/-! ### STA_QUERY (Table 13-12) -/

/-- A byte-long MAC as two words. -/
def macLo (a : List Byte) : Nat := u32 a 0
def macHi (a : List Byte) : Nat := u16 a 4

/-- Bits [7:3] of WMC_W_STATE. -/
def staFlags (a : Sta) : Nat := b2n a.ps + 2 * b2n a.wur + 4 * b2n a.mld + 8 * b2n a.emlsr

/-- A member of a restricted broadcast schedule, or with a restricted agreement. -/
def restrictedMember (s : State) (a : Sta) : Bool :=
  a.members.any (fun m => bit ((Tbl.get? (bssOf s a.bss).bcast m).map Twt.tflags |>.getD 0) 0)

/-- Word `n` of the station window at station `i`. -/
def staWord (s : State) (i n : Nat) : Nat :=
  match Tbl.get? s.wlan.stas i with
  | none => 0
  | some a =>
    match n with
    | 0 => a.state.num + 8 * staFlags a + 256 * a.links + 4096 * a.akm + 65536 * (a.bss % 16)
    | 1 => a.aid
    | 2 => macLo a.mac
    | 3 => macHi a.mac
    | 4 => min 65535 a.rate + 65536 * toTwos 8 a.rssi
    | 5 => min 65535 (a.queues.getD 0 0) + 65536 * min 65535 (a.queues.getD 1 0)
    | 6 => min 65535 (a.queues.getD 2 0) + 65536 * min 65535 (a.queues.getD 3 0)
    | 7 => min 4095 a.window + 65536 * (if 8 ≤ a.obsN then min 254 (max 2000 (a.obs.foldl max 0 * 5 / 4) / 1000) else 255) + 2 ^ 24 * min 255 a.misses
    | 8 => min 3 a.twts.length + 4 * b2n (a.members != []) + 8 * b2n (restrictedMember s a)
    | 19 => min 0xFFFFFFFF (cyclesMs (s.clock.cycles - a.lastRx))
    | 20 => if a.wur then a.aid + 65536 * min 15 a.wakeTries else 0
    | n => if 9 ≤ n ∧ n < 19 then halfAt s (staCtr (R.WMC_W_RX_MPDUS + (n - 9) / 2 * 8) i) (n - 9) else 0

/-- An entry of STA_QUERY on the device. -/
def staEntry (e : Nat × Sta) : List Byte :=
  leN e.1 2 ++ leN e.2.aid 2 ++ leN e.2.state.num 1 ++ leN (staFlags e.2) 1 ++ leN e.2.bss 1 ++ leN 0 1

/-- STA_QUERY (R304). -/
def staQueryPlan (c : Cmd) (s : State) : Plan :=
  Plan.query 0x0C06 false (handleDev c.handle || handleIn s [0x0C] c.handle) 8 none fun s =>
    if c.handle = devH then itemsAnswer [] (s.wlan.stas.map staEntry) (u32 c.params 0)
    else recordAnswer ((List.range 21).flatMap fun n => leN (staWord s (hIdx c.handle) n) 4)

/-- STA_QUERY (R304). -/
def execStaQuery (c : Cmd) (s : State) : Out := .next (hostCmd 0x0C06 staQueryPlan c s)

/-! ### Timeouts of a station -/

/-- STA_PROGRESS_TIMEOUT (R305): no progress for 5 s. -/
def staProgressTimeout (i : Nat) (s : State) : State :=
  match Tbl.get? s.wlan.stas i with
  | none => s
  | some a =>
    if a.state = .authenticating ∨ a.state = .associated then
      let s := bump R.WMC_AUTH_FAIL (tickTo (a.since + msCycles 5000) s)
      let s := match a.admission with
        | some (rs, tag) => finishRunning rs tag St.AUTH_FAILED (Config.detail 0x0C04 2) 0 [] s
        | none => s
      freeSta i (releaseSta i s)
    else s

/-- STA_PROGRESS_TIMEOUT (R305). -/
def execStaProgressTimeout (sta : Nat) (s : State) : Out := .next (staProgressTimeout sta s)

/-- STA_REQUEST_TIMEOUT (R306): refused with 802.11 status 1. -/
def staRequestTimeout (i : Nat) (s : State) : State :=
  match (staOf s i).request with
  | none => s
  | some a => sendMgmt i (bump R.WMC_AUTH_FAIL (modSta i (fun x => { x with request := none }) (tickTo (a + msCycles 1000) s)))

/-- STA_REQUEST_TIMEOUT (R306). -/
def execStaRequestTimeout (sta : Nat) (s : State) : Out := .next (staRequestTimeout sta s)

/-- STA_IDLE_PROBE (R306): a QoS Null frame; the third without an acknowledgement removes the station. -/
def staIdleProbe (i : Nat) (acked : Bool) (s : State) : State :=
  let a := staOf s i
  if a.state ≠ .authorized ∨ a.ps then s
  else
    let s := if a.probes = 0 then tickTo (a.lastRx + msCycles (1000 * rgBits s R.WMC_CTRL 23 8)) s else s
    let s := sendMgmt i s
    if acked then modSta i (fun a => { a with probes := 0, lastRx := s.clock.cycles }) s
    else if 3 ≤ a.probes + 1 then removing i 4 true (modSta i (fun a => { a with probes := a.probes + 1 }) s)
    else modSta i (fun a => { a with probes := a.probes + 1 }) s

/-- STA_IDLE_PROBE (R306). -/
def execStaIdleProbe (sta : Nat) (acked : Bool) (s : State) : Out := .next (staIdleProbe sta acked s)

/-- HANDSHAKE_RETRY (R314): a message is retried 3 times at 1 s intervals; then the station is removed with reason 15. -/
def handshakeRetry (i : Nat) (s : State) : State :=
  let a := staOf s i
  if a.state ≠ .associated then s
  else
    let s := tickTo (a.stepAt + msCycles 1000) s
    if a.step < 3 then sendMgmt i (modSta i (fun a => { a with step := a.step + 1, stepAt := s.clock.cycles }) s)
    else handshakeFailed i 15 s

/-- HANDSHAKE_RETRY (R314). -/
def execHandshakeRetry (sta : Nat) (s : State) : Out := .next (handshakeRetry sta s)

/-- GTK_REKEY (R315): the group keys of a BSS are renewed through the generations of R169. -/
def gtkRekey (b : Nat) (s : State) : State :=
  match Tbl.get? s.wlan.bsss b with
  | none => s
  | some x =>
    let s := tickTo (x.gtkAt + msCycles (1000 * rgBits s (R.WMC_B_GTK + 0x10 * b) 23 0)) s
    x.keys.foldl (fun s k => renewKey k s) (modBss b (fun x => { x with gtkAt := s.clock.cycles }) s)

/-- GTK_REKEY (R315). -/
def execGtkRekey (bss : Nat) (s : State) : Out := .next (gtkRekey bss s)

/-- BSS_COLOUR_CHANGE (R303): the announced colour takes effect. -/
def bssColourChange (b r colour : Nat) (s : State) : State :=
  match Tbl.get? s.wlan.bsss b with
  | none => s
  | some x =>
    let old := x.colours.getD r 0
    if ¬ bit x.radios r ∨ colour = 0 ∨ 63 < colour ∨ colour = old then s
    else raiseUnless R.WMC_EVENT_MASK 2 Ev.BSS_COLOUR_CHANGE 0 (leN b 1 ++ leN r 1 ++ leN old 1 ++ leN colour 1)
      (modBss b (fun x => { x with colours := x.colours.set r colour }) s)

/-- BSS_COLOUR_CHANGE (R303). -/
def execBssColourChange (bss radio colour : Nat) (s : State) : Out := .next (bssColourChange bss radio colour s)

/-- BEACON_TRANSMIT (R324): at its TBTT; refused, it is not sent for that TBTT. In a multiple-BSSID set the lowest BSS of the
radio sends the one beacon. -/
def beaconTransmit (b r : Nat) (s : State) : State :=
  match Tbl.get? s.wlan.bsss b with
  | none => s
  | some x =>
    let first := (s.wlan.bsss.find? fun e => bit e.2.radios r).map Prod.fst
    if ¬ bit x.radios r ∨ x.stopping.isSome ∨ r > 2 then s
    else
      let at_ := x.beaconNs.getD r 0 + tuNs x.beaconTu
      let s := tickToNs at_ s
      let s := modBss b (fun x => { x with beaconNs := x.beaconNs.set r at_ }) s
      if bit (rgRaw s R.WMC_CTRL) 0 ∧ first ≠ some b then s
      else (requestTx r { earliest := max at_ (nowNs s), latest := max at_ (nowNs s) + tuNs x.beaconTu, what := .beacon b } s).2

/-- BEACON_TRANSMIT (R324). -/
def execBeaconTransmit (bss radio : Nat) (s : State) : Out := .next (beaconTransmit bss radio s)

/-! ### Lost links and unreachable stations (R302, R309, R310) -/

/-- A link of a station is lost: its frames move to the links left; with none left the station is removed. -/
def linkLost (i r : Nat) (s : State) : State :=
  let a := staOf s i
  if ¬ bit a.links r then s
  else
    let links := a.links - 2 ^ r
    let s := modSta i (fun a => { a with links, unacked := a.unacked.set r 0, missed := a.missed.set r 0, radio := (radiosIn links).headD a.radio }) s
    let s := raise Ev.MLO_LINK_CHANGE (staH i) (leN r 1 ++ leN links 1 ++ leN 0 2 ++ leN (if links = 0 then 0 else a.queued) 4) s
    if links = 0 then removing i 4 true s else s

/-- UNREACHABLE: its frames are held, its legs go HELD. -/
def unreachable (i cause : Nat) (s : State) : State :=
  let a := staOf s i
  let s := modSta i (fun a => { a with state := .unreachable, unreachAt := some s.clock.cycles }) s
  attachLost i (raise Ev.STA_UNREACHABLE (staH i) (leN cause 1 ++ leN 0 3 ++ leN a.queued 4
    ++ leN (min 0xFFFFFFFF (cyclesMs (s.clock.cycles - a.lastRx))) 4) s)

/-- UNREACH_HOLD_EXPIRY (R310): the listen interval ends; the frames held are discarded. -/
def unreachHoldExpiry (i : Nat) (s : State) : State :=
  let a := staOf s i
  match a.state, a.unreachAt with
  | .unreachable, some t =>
    let tu := if a.bss = 0xFF then 100 else (bssOf s a.bss).beaconTu
    let s := tickTo (t + a.listen * tuCycles tu) s
    bumpBy R.WMC_UNREACH_DISCARD a.queued
      (modSta i (fun a => { a with unreachAt := none, queues := [0, 0, 0, 0], committed := [0, 0, 0, 0] }) s)
  | _, _ => s

/-- UNREACH_HOLD_EXPIRY (R310). -/
def execUnreachHoldExpiry (sta : Nat) (s : State) : Out := .next (unreachHoldExpiry sta s)

/-- A frame of a station has come (R305, R309): it is there. -/
def heardSta (i : Nat) (s : State) : State :=
  let s := modSta i (fun a => { a with lastRx := s.clock.cycles, probes := 0 }) s
  if (staOf s i).state = .unreachable then toAuthorized i 1 s else s

/-! ### TWT (R308, R309, Table 13-8) -/

/-- The greatest common divisor decides whether two periodic service periods ever overlap. -/
def spOverlap (s1 w1 l1 s2 w2 l2 : Nat) : Bool :=
  let g := max 1 (Nat.gcd w1 w2)
  let d := (s2 % g + g - s1 % g) % g
  decide (d < l1) || decide (g < d + l2)

/-- The restricted service periods on the links of a mask, except one: station (or 1,024 + BSS) and ID. -/
def restrictedSps (s : State) (mask : Nat) (skip : Nat × Nat) : List Twt :=
  (s.wlan.stas.filter fun a => a.2.bss != 0xFF && Nat.land a.2.links mask != 0).flatMap (fun a =>
      (a.2.twts.filter fun t => bit t.2.tflags 0 && (a.1, t.1) != skip).map Prod.snd)
    ++ s.wlan.bsss.flatMap fun b => if Nat.land b.2.radios mask = 0 then [] else
      (b.2.bcast.filter fun t => bit t.2.tflags 0 && (1024 + b.1, t.1) != skip).map Prod.snd

/-- A new service period overlaps a restricted one that has no room left; whether it has room the spec leaves open. -/
def spFull (s : State) (mask : Nat) (skip : Nat × Nat) (startNs wakeUs spUs : Nat) : Bool :=
  (restrictedSps s mask skip).any (fun t => spOverlap (t.startNs / 1000) t.wakeUs t.spUs (startNs / 1000) wakeUs spUs)
    && !Config.roomLeft s.clock.cycles

/-- Individual agreements of the device. -/
def twtCount (s : State) : Nat := Tbl.sum s.wlan.stas fun a => a.twts.length

/-- Why an agreement of station `i` is refused (R308). -/
def twtRefused (s : State) (i id startNs wakeUs spUs : Nat) : Option Nat :=
  let a := staOf s i
  if ¬ a.twtCap then some 2
  else if ¬ Tbl.has a.twts id ∧ (2 ≤ a.twts.length ∨ 2048 ≤ twtCount s) then some 3
  else if spFull s a.links (i, id) startNs wakeUs spUs then some 1 else none

/-- Put an agreement, or let a change take effect at the next service period. -/
def putTwt (t : Tbl Twt) (id tflags wakeUs spUs startNs tids : Nat) : Tbl Twt :=
  if Tbl.has t id then Tbl.modify t id fun x => { x with new := some (tflags, wakeUs, spUs, startNs, tids) }
  else Tbl.put t id { tflags, wakeUs, spUs, startNs, tids }

/-- The start of the first service period: as given, or the next free one, which the spec leaves open. -/
def firstSp (s : State) (short wakeUs : Nat) : Nat × State :=
  if short = 0 then let (v, s) := takeFree s; (nowNs s + v % (wakeUs * 1000), s)
  else
    let t := nearestNs s short
    let w : Int := (wakeUs * 1000 : Nat)
    ((if t < nowNs s then t + ((nowNs s : Int) - t + w - 1) / w * w else t).toNat, s)

/-- TWT_SET (R308). -/
def twtSetPlan (c : Cmd) (s : State) : Plan :=
  let p := c.params
  let op := u8 p 0
  let id := u8 p 1
  let i := hIdx c.handle
  let b := u8 p 3
  let start := (firstSp s (u64 p 12) (max 1 (u32 p 4))).1
  let sets := op == 1 || op == 3
  let refused : Option Nat :=
    if op = 1 then twtRefused s i id start (u32 p 4) (u32 p 8)
    else if op = 3 then
      (if ¬ Tbl.has (bssOf s b).bcast id ∧ 8 ≤ (bssOf s b).bcast.length then some 3
        else if spFull s (bssOf s b).radios (1024 + b, id) start (u32 p 4) (u32 p 8) then some 1 else none)
    else none
  { op := 0x0C07, handleOk := if op = 1 ∨ op = 2 then handleIn s [0x0C] c.handle
      else if op = 3 ∨ op = 4 then handleDev c.handle else handleDev c.handle || handleIn s [0x0C] c.handle
    touches := [c.handle], len := some 24
    state := if op = 1 ∧ (staOf s i).state ≠ .authorized then some (wrongState (Config.detail 0x0C07 0)) else none
    param := firstBad
      [ (decide (1 ≤ op ∧ op ≤ 4), badParam 0)
      , (if op ≤ 2 then decide (id ≤ 7) && (op == 1 || Tbl.has (staOf s i).twts id)
          else decide (1 ≤ id ∧ id ≤ 31) && (op == 3 || Tbl.has (bssOf s b).bcast id), badParam 1)
      , (decide (u8 p 2 < 8), badParam 2), (decide (op ≤ 2) || Tbl.has s.wlan.bsss b, badParam 3)
      , (!sets || decide (1000 ≤ u32 p 4 ∧ u32 p 4 ≤ 60000000), badParam 4)
      , (!sets || decide (256 ≤ u32 p 8 ∧ u32 p 8 ≤ u32 p 4 / 2), badParam 8) ]
    res := refused.map fun n => ⟨St.TWT_REJECTED, n⟩
    run := fun s =>
      let (start, s) := firstSp s (u64 p 12) (max 1 (u32 p 4))
      match op with
      | 1 => .ok (modSta i (fun a => { a with twts := putTwt a.twts id (u8 p 2) (u32 p 4) (u32 p 8) start (u8 p 20) }) s)
      | 2 => .ok (modSta i (fun a => { a with twts := Tbl.del a.twts id }) s)
      | 3 => .ok (modBss b (fun x => { x with bcast := putTwt x.bcast id (u8 p 2) (u32 p 4) (u32 p 8) start (u8 p 20) }) s)
      | _ =>
        let s := modBss b (fun x => { x with bcast := Tbl.del x.bcast id }) s
        .ok { s with wlan.stas := Tbl.each s.wlan.stas fun _ a => if a.bss = b then { a with members := a.members.filter (· != id) } else a } }

/-- TWT_SET (R308). -/
def execTwtSet (c : Cmd) (s : State) : Out := .next (hostCmd 0x0C07 twtSetPlan c s)

/-- The agreement of a station that an ID names: 0–7 its own, from 32 on its BSS's broadcast schedule. -/
def twtOf (s : State) (i id : Nat) : Option Twt :=
  let a := staOf s i
  if id < 32 then Tbl.get? a.twts id else if a.members.contains (id - 32) then Tbl.get? (bssOf s a.bss).bcast (id - 32) else none

/-- The next service period: a change waiting takes effect now (R308). -/
def Twt.advance (t : Twt) : Twt :=
  match t.new with
  | some (tflags, wakeUs, spUs, startNs, tids) => { tflags, wakeUs, spUs, startNs := max startNs (t.startNs + 1), tids }
  | none => { t with startNs := t.startNs + 1000 * t.wakeUs }

def advanceTwt (i id : Nat) (s : State) : State :=
  if id < 32 then modSta i (fun a => { a with twts := Tbl.modify a.twts id Twt.advance }) s
  else modBss (staOf s i).bss (fun b => { b with bcast := Tbl.modify b.bcast (id - 32) Twt.advance }) s

/-- An observation of a station in 1/1,000 ppm: the offset of its first frame over the elapsed time (R309). -/
def observe (offset : Int) (elapsedNs : Nat) (a : Sta) : Sta :=
  if elapsedNs = 0 then a
  else { a with obs := (offset.natAbs * 1000000000 / elapsedNs :: a.obs).take 8, obsN := a.obsN + 1 }

/-- TWT_SERVICE_PERIOD (R309): a frame from TWT − window to the end plus window, `frame` ns after the start, shows the station
awake; none is a miss. -/
def twtServicePeriod (i id : Nat) (frame : Option Int) (s : State) : State :=
  let a := staOf s i
  match twtOf s i id with
  | none => s
  | some t =>
    if a.state ≠ .authorized then s
    else
      let elapsed := sinceRx (tickToNs t.startNs s) a
      let w := guardWindow s (peerMilli s a) elapsed
      let endNs := t.startNs + 1000 * (t.spUs + w)
      let s := modSta i (fun a => { a with window := w }) s
      let there : Option Int := frame.bind fun f => if -(1000 * w : Nat) ≤ f ∧ f ≤ (1000 * (t.spUs + w) : Nat) then some f else none
      match there with
      | some f =>
        let s := tickToNs ((t.startNs : Int) + f).toNat s
        let s := heardSta i (modSta i (fun a => { observe f elapsed a with misses := 0, capMisses := 0, awakeTo := endNs }) s)
        advanceTwt i id s
      | none =>
        let s := advanceTwt i id (bump R.WMC_TWT_MISSES (tickToNs endNs s))
        let caps := if w = guardCap s then a.capMisses + 1 else 0
        let s := modSta i (fun a => { a with misses := a.misses + 1, capMisses := caps }) s
        if 3 ≤ caps then unreachable i 0 s else s

/-- TWT_SERVICE_PERIOD (R309). -/
def execTwtServicePeriod (sta id : Nat) (frame : Option Int) (s : State) : Out := .next (twtServicePeriod sta id frame s)

/-! ### The wake-up radio service (R316, R317, Table 13-9) -/

/-- The radio of the service. -/
def wurRadio (s : State) : Option Nat := if s.wlan.wur.radio = 0 then none else some (s.wlan.wur.radio - 1)

/-- WUR_SET (R316). -/
def wurSetPlan (c : Cmd) (_ : State) : Plan :=
  let p := c.params
  { op := 0x0C08, handleOk := handleDev c.handle, touches := [devH], len := some 16
    param := firstBad
      [ (decide (u8 p 0 ≤ 2), badParam 0), (u16 p 2 == 0 || decide (10 ≤ u16 p 2 ∧ u16 p 2 ≤ 1000), badParam 2)
      , (u32 p 8 == 0 || decide (10 ≤ u32 p 8 ∧ u32 p 8 ≤ 60000), badParam 8), (decide (u8 p 12 ≤ 15), badParam 12)
      , (u8 p 13 == 0 || decide (5 ≤ u8 p 13), badParam 13) ]
    run := fun s =>
      let d := fun (x v : Nat) => if x = 0 then v else x
      let leaves := decide (s.wlan.wur.radio ≠ 0 ∧ u8 p 0 ≠ s.wlan.wur.radio)
      let s := if leaves then
          { s with wlan.stas := Tbl.each s.wlan.stas fun _ a => if a.wur then { a with wur := false, ps := true, wakeTries := 0, wakeAt := none } else a }
        else s
      .ok { s with wlan.wur := { radio := u8 p 0, beaconTu := d (u16 p 2) 100, minOn := d (u32 p 4) 256, maxPeriod := d (u32 p 8) 1000
                                 tries := d (u8 p 12) 3, respMs := d (u8 p 13) 20, lastNs := nowNs s } } }

/-- WUR_SET (R316). -/
def execWurSet (c : Cmd) (s : State) : Out := .next (hostCmd 0x0C08 wurSetPlan c s)

/-- A request of the wake-up radio service. -/
def wurSend (r ctr : Nat) (s : State) : State :=
  let x := requestTx r { earliest := nowNs s, latest := nowNs s + 1000000, what := .wakeUp } s
  if x.1 then bump ctr x.2 else x.2

/-- WUR_BEACON (R316): every BEACON_TU. -/
def wurBeacon (s : State) : State :=
  match wurRadio s with
  | none => s
  | some r =>
    let at_ := s.wlan.wur.lastNs + tuNs s.wlan.wur.beaconTu
    wurSend r R.WMC_WUR_BEACONS { tickToNs at_ s with wlan.wur.lastNs := at_ }

/-- WUR_BEACON (R316). -/
def execWurBeacon (s : State) : Out := .next (wurBeacon s)

/-- WUR_WAKE_SEND (R317): a wake-up frame at the on-duration start plus the window since the last WUR beacon; answered, the
main radio is awake. -/
def wurWakeSend (i : Nat) (answered : Bool) (s : State) : State :=
  let a := staOf s i
  match wurRadio s with
  | none => s
  | some r =>
    if ¬ a.wur ∨ a.queued = 0 ∨ a.state ≠ .authorized ∨ s.wlan.wur.tries ≤ a.wakeTries then s
    else
      let w := guardWindow s (peerMilli s a) (nowNs s - s.wlan.wur.lastNs)
      let s := wurSend r R.WMC_WUR_WAKES (tickToNs (nowNs s + 1000 * w) s)
      let s := modSta i (fun a => { a with wakeTries := a.wakeTries + 1, wakeAt := some s.clock.cycles, window := w }) s
      if answered then heardSta i (modSta i (fun a => { a with wakeTries := 0, wakeAt := none, ps := false }) s) else s

/-- WUR_WAKE_SEND (R317). -/
def execWurWakeSend (sta : Nat) (answered : Bool) (s : State) : Out := .next (wurWakeSend sta answered s)

/-- WUR_WAKE_FAIL (R317): no answer within WAKE_RESP_MS of the last try. -/
def wurWakeFail (i : Nat) (s : State) : State :=
  let a := staOf s i
  match a.wakeAt with
  | none => s
  | some t =>
    if a.wakeTries < s.wlan.wur.tries ∨ a.state ≠ .authorized then s
    else
      let s := tickTo (t + msCycles s.wlan.wur.respMs) s
      let s := unreachable i 1 (modSta i (fun a => { a with wakeTries := 0, wakeAt := none }) s)
      raise Ev.WUR_WAKE_FAIL (staH i) (leN a.wakeTries 1 ++ leN 0 3 ++ leN a.queued 4) (bump R.WMC_WUR_WAKE_FAIL s)

/-- WUR_WAKE_FAIL (R317). -/
def execWurWakeFail (sta : Nat) (s : State) : Out := .next (wurWakeFail sta s)

/-! ### Scans and beacon loss (R318, Table 13-10) -/

/-- SCAN_START (R318): it is answered when the scan is done. -/
def scanStartPlan (c : Cmd) (s : State) : Plan :=
  let p := c.params
  let r := hIdx c.handle
  let role := (roleOf s r).role
  { op := 0x0C09, handleOk := handleIn s [0x0D] c.handle && decide (r ≤ 2), touches := [c.handle], len := some 24
    state := if role = 1 then some (wrongState 5) else if Tbl.has s.wlan.scans r then some (wrongState 6)
      else if role = 0 then some (wrongState (Config.detail 0x0C09 0)) else none
    param := firstBad
      [ (decide (u8 p 0 ≤ 1), badParam 0), (decide (u8 p 1 ≤ 16), badParam 1)
      , (u16 p 2 == 0 || decide (10 ≤ u16 p 2 ∧ u16 p 2 ≤ 1000), badParam 2) ]
    run := fun s => .defer { s with wlan.scans := Tbl.put s.wlan.scans r (some (c.rs, c.tag)) } }

/-- SCAN_START (R318). -/
def execScanStart (c : Cmd) (s : State) : Out := .next (hostCmd 0x0C09 scanStartPlan c s)

/-- Strongest first. -/
def insertScan (e : ScanEntry) : List ScanEntry → List ScanEntry
  | [] => [e]
  | x :: t => if x.rssi < e.rssi then e :: x :: t else x :: insertScan e t

/-- The 64 bytes of a scan entry. -/
def ScanEntry.bytes (e : ScanEntry) : List Byte :=
  fit e.bssid 6 ++ leN e.channel 1 ++ leN e.band 1 ++ fit e.mld 6 ++ leN (toTwos 8 e.rssi) 1 ++ leN e.security 1 ++ leN e.width 1
    ++ leN e.ssid.length 1 ++ List.replicate 14 0 ++ fit e.ssid 32

/-- SCAN_DONE: the found BSSs answer the SCAN_START; after a background scan the uplink reassociates where its parent or another
BSS of its SSID and security was found. -/
def scanDone (r : Nat) (found : List ScanEntry) (s : State) : State :=
  match Tbl.get? s.wlan.scans r with
  | none => s
  | some by_ =>
    let l := (found.foldl (fun l e => insertScan e l) []).take 63
    let s := raise Ev.SCAN_DONE (radioH r) (leN l.length 1 ++ leN (b2n by_.isNone) 1) { s with wlan.scans := Tbl.del s.wlan.scans r }
    match by_ with
    | some (rs, tag) => finishRunning rs tag St.OK 0 l.length (l.flatMap ScanEntry.bytes) s
    | none =>
      match Tbl.get? s.wlan.rescan r with
      | none => s
      | some a =>
        let s := { s with wlan.rescan := Tbl.del s.wlan.rescan r }
        let hit := (l.find? fun e => e.bssid == a.parent) <|> (l.find? fun e => e.ssid == a.ssid && bit e.security a.akm)
        match hit, Tbl.lowestFree s.wlan.stas 0 1024 with
        | some e, some i =>
          if (staPools s).isSome ∨ (roleOf s r).role ≠ 2 then s
          else sendMgmt i (addSta i { a with parent := e.bssid, links := 2 ^ r, radio := r, admission := none, removers := [], queues := [0, 0, 0, 0] } s)
        | _, _ => s

/-- SCAN_DONE (R318). -/
def execScanDone (radio : Nat) (found : List ScanEntry) (s : State) : Out := .next (scanDone radio found s)

/-- The parent is lost on link `r`, `since` cycles after its last beacon (R318): the radio scans, and the last
link takes the association with it. `a` is the station before the loss. -/
def loseLink (i r : Nat) (a : Sta) (since : Nat) (s : State) : State :=
  let links := a.links - 2 ^ r
  let s := modSta i (fun a => { a with links, missed := a.missed.set r 0, radio := (radiosIn links).headD a.radio }) s
  let s := if (roleOf s r).role = 2 ∧ bit (roleOf s r).rflags 0 then domainsLose 32 4 s else s
  let s := if Tbl.has s.wlan.scans r then s else { s with wlan.scans := Tbl.put s.wlan.scans r none }
  let s := if links = 0 ∧ (roleOf s r).role = 2 then { s with wlan.rescan := Tbl.put s.wlan.rescan r { a with unacked := [0, 0, 0] } } else s
  let s := bump (R.WMC_L_BEACON_LOSS + 0x80 * r) s
  let s := raise Ev.BEACON_LOSS (staH i) (leN r 1 ++ leN links 1 ++ leN (b2n (links == 0)) 1 ++ leN 0 1 ++ leN (min 0xFFFFFFFF (cyclesMs since)) 4) s
  if links = 0 then removing i 4 true s else s

/-- BEACON_LOSS (R318): a beacon was not received by TBTT + window; the third in a row loses the parent on that link. -/
def beaconLoss (i r : Nat) (s : State) : State :=
  let a := staOf s i
  if a.bss ≠ 0xFF ∨ ¬ bit a.links r ∨ a.state = .removing ∨ a.state = .authenticating then s
  else
    let since := s.clock.cycles - a.beaconAt.getD r 0
    let n := a.missed.getD r 0 + 1
    let s := modSta i (fun a => { a with missed := a.missed.set r n, window := guardWindow s (peerMilli s a) (cyclesNs since) }) s
    if n < 3 then s else loseLink i r a since s

/-- BEACON_LOSS (R318). -/
def execBeaconLoss (sta radio : Nat) (s : State) : Out := .next (beaconLoss sta radio s)

end Sys2Proof.Machine
end

