-- ==== Sys2Proof/Machine/Abort.lean ====
section
/-! DEFINITION. Machine/Abort.lean: DEV_ABORT (R70–R73, R204, R333, R384). -/

namespace Sys2Proof.Machine

/-! A command that runs is discarded where its unit has not committed; one function per command that waits. -/

/-- A port whose start waits returns to IDLE. -/
def unstart (n : Nat) (s : State) : State :=
  modAsp n (fun a => { a with phase := .idle, startAt := none, starter := none, trig := none }) s

/-- ASP_START: the port has not started. -/
def discardStart (e : OutCmd) (s : State) : Option (State × Nat) :=
  let a := portAt s (hIdx e.cmd.handle)
  if a.starter = some (e.cmd.rs, e.cmd.tag) ∧ a.startAt.isSome ∧ ¬ a.started then some (unstart (hIdx e.cmd.handle) s, 0) else none

/-- ASP_TRIGGER_ARM: no port has started. -/
def discardArm (e : OutCmd) (s : State) : Option (State × Nat) :=
  match s.asp.arm with
  | some m =>
    if m.rs = e.cmd.rs ∧ m.tag = e.cmd.tag ∧ (portsOf m.ports).all (fun n => !(portAt s n).started) then
      some ((portsOf m.ports).foldl (fun s n => unstart n s) { s with asp.arm := none }, 0)
    else none
  | none => none

/-- ASP_MASK_SET: the mask waits for a frame start. -/
def discardMask (e : OutCmd) (s : State) : Option (State × Nat) :=
  some (modAsp (hIdx e.cmd.handle) (fun a =>
    { a with pendMask := a.pendMask.filter fun m => !(m.rs == e.cmd.rs && m.tag == e.cmd.tag) }) s, 0)

/-- A layout change waits for its output picture; where it was the first layout, the composition is idle again. -/
def discardLayout (e : OutCmd) (s : State) : Option (State × Nat) :=
  some (modComp (hIdx e.cmd.handle) (fun c =>
    let left := c.changes.filter fun x => !(x.rs == e.cmd.rs && x.tag == e.cmd.tag)
    { c with changes := left, state := if left = [] ∧ c.tiles = [] ∧ c.state = .running then .idle else c.state }) s, 0)

/-- DRAM_TRAIN: the channel in progress is discarded, those before it stay (R70). -/
def discardTrain (e : OutCmd) (s : State) : Option (State × Nat) :=
  match s.dram.trains.find? fun t => t.rs == e.cmd.rs && t.tag == e.cmd.tag with
  | none => none
  | some t =>
    let s := { s with dram.trains := s.dram.trains.filter fun t => !(t.rs == e.cmd.rs && t.tag == e.cmd.tag) }
    let s := match t.started, t.op, t.left with
      | true, 0, c :: _ => modChan c (fun x => { x with retrain := false, slices := 0, tries := 0 }) s
      | _, _, _ => s
    some (kickTrains (trainFuel s) s, t.done)

/-- DSP_TASK_PARAM: the shadow copy is discarded; the next waiting command takes it (R229). -/
def discardParam (e : OutCmd) (s : State) : Option (State × Nat) :=
  let i := hIdx e.cmd.handle
  let s := modTask i (fun t => { t with params := t.params.filter fun x => !(x.1 == e.cmd.rs && x.2.1 == e.cmd.tag) }) s
  some (writeShadowParam i s, 0)

/-- ENC_KEY_PICTURE: the picture it asked for is not forced unless something else asks for it. -/
def discardKey (e : OutCmd) (s : State) : Option (State × Nat) :=
  let i := hIdx e.cmd.handle
  let mode := u8 e.cmd.params 0
  let s := modEnc i (fun x => { x with waiters := x.waiters.filter fun w => !(w.1 == e.cmd.rs && w.2.1 == e.cmd.tag) }) s
  let others := (encOf s i).waiters.any fun w => w.2.2.1 == mode
  some (match mode, others with
    | 0, false => modEnc i (fun x => { x with force := x.force && x.keyCause != 0 }) s
    | 1, false => modEnc i (fun x => { x with waveWant := x.waveWant && x.waveCause != 0 }) s
    | _, _ => s, 0)

/-- A command that waits for the CAM to drain: the entries before it stay (R70). -/
def discardInstall (e : OutCmd) (s : State) : Option (State × Nat) :=
  match s.pkt.installWait.find? fun w => w.rs == e.cmd.rs && w.tag == e.cmd.tag with
  | none => none
  | some w => some ({ s with pkt.installWait := s.pkt.installWait.filter fun w => !(w.rs == e.cmd.rs && w.tag == e.cmd.tag) }
      , w.handles.length)

/-- MIX_PARAM_LOAD: an abort before the swap discards the shadow (R204). -/
def discardShadow (e : OutCmd) (s : State) : Option (State × Nat) :=
  some (modBus (busOf s (hIdx e.cmd.handle) (u8 e.cmd.params 0)) (fun b =>
    { b with shadows := b.shadows.filter fun x => !(x.rs == e.cmd.rs && x.tag == e.cmd.tag) }) s, 0)

/-- RADIO_CHANNEL_SET: the change is announced or waits for the radio; RETUNING is its commit. -/
def discardChannel (e : OutCmd) (s : State) : Option (State × Nat) :=
  let r := hIdx e.cmd.handle
  let mine : RadioJob → Bool
    | .channel _ (some (rs, tag)) => rs == e.cmd.rs && tag == e.cmd.tag
    | _ => false
  let x := radioOf s r
  if (x.announce.map fun a => (a.2.1, a.2.2)) = some (e.cmd.rs, e.cmd.tag) then
    some (modRadio r (fun x => { x with announce := none }) s, 0)
  else if x.jobs.any mine then some (modRadio r (fun x => { x with jobs := x.jobs.filter fun j => !mine j }) s, 0)
  else none

/-- RADIO_CAL ends at a step boundary; the calibrations not yet run keep their results (R333). -/
def discardCal (e : OutCmd) (s : State) : Option (State × Nat) :=
  let r := hIdx e.cmd.handle
  let mine : RadioJob → Bool
    | .cal _ _ rs tag => rs == e.cmd.rs && tag == e.cmd.tag
    | _ => false
  let x := radioOf s r
  match x.cal with
  | some run =>
    if run.by_ = some (e.cmd.rs, e.cmd.tag) then
      some (startJobs r (modRadio r (fun x => { x with cal := none, calNow := [] }) s), run.done)
    else if x.jobs.any mine then some (modRadio r (fun x => { x with jobs := x.jobs.filter fun j => !mine j }) s, 0)
    else none
  | none => if x.jobs.any mine then some (modRadio r (fun x => { x with jobs := x.jobs.filter fun j => !mine j }) s, 0) else none

/-- SCAN_START: the scan ends without a result. -/
def discardScan (e : OutCmd) (s : State) : Option (State × Nat) :=
  some ({ s with wlan.scans := Tbl.del s.wlan.scans (hIdx e.cmd.handle) }, 0)

/-- STA_ADMIT in modes 1 and 2: the station is FREE again. -/
def discardAdmit (e : OutCmd) (s : State) : Option (State × Nat) :=
  match s.wlan.stas.find? fun a => a.2.admission == some (e.cmd.rs, e.cmd.tag) with
  | some (i, a) => if a.state = .authorized then none
      else some (freeSta i (releaseSta i (modSta i (fun a => { a with admission := none }) s)), 0)
  | none => none

/-- FW_ACTIVATE START and FW_ACCEPT_UNTESTED before boot step 11. -/
def discardBoot (e : OutCmd) (s : State) : Option (State × Nat) :=
  match s.boot.resume with
  | some (rs, tag, _) => if rs = e.cmd.rs ∧ tag = e.cmd.tag then some ({ s with boot.resume := none }, 0) else none
  | none => none

/-- The unit in progress of a running command is discarded: the state without it and the units committed. None where the last
unit has committed: the object already stands in its closing state, and only the answer waits. -/
def discard (e : OutCmd) (s : State) : Option (State × Nat) :=
  match e.opcode with
  | 0x0313 => discardShadow e s
  | 0x0402 => discardStart e s
  | 0x0404 => discardMask e s
  | 0x0405 => discardArm e s
  | 0x0504 => discardParam e s
  | 0x0702 => discardLayout e s
  | 0x0703 => discardLayout e s
  | 0x0704 => discardLayout e s
  | 0x0803 => discardKey e s
  | 0x0A03 => discardInstall e s
  | 0x0A07 => discardInstall e s
  | 0x0A08 => discardInstall e s
  | 0x0A09 => discardInstall e s
  | 0x0C04 => discardAdmit e s
  | 0x0C09 => discardScan e s
  | 0x0D02 => discardChannel e s
  | 0x0D04 => discardCal e s
  | 0x1102 => discardBoot e s
  | 0x1103 => discardBoot e s
  | 0x1204 => discardTrain e s
  | _ => none

/-- The DEV_ABORT itself, among the running commands. -/
def selfEntry (c : Cmd) (s : State) : Option OutCmd :=
  (s.host.cmds.filter fun e => e.opcode == 0x0103 && e.phase == .running && e.cmd == c).getLast?

/-- What DEV_ABORT does (R71, R72): a target that has not started is always aborted; one whose last unit has committed gives its final status, for
which the DEV_ABORT waits where it is not out yet; an entry to EMBER or COLD ends at its next abort point (R384). -/
def abortRun (c : Cmd) (s : State) : Done :=
  match outTarget s c with
  | none =>
    match keptTarget s c with
    | some k => .reply s St.ABORT_TOO_LATE 0 1 (abortResult k.status k.detail k.progress)
    | none => .ok s
  | some e =>
    let aborted := fun (s : State) (units : Nat) =>
      Done.okWith (finishEntry e St.ABORTED 0 units [] s) (abortResult St.ABORTED 0 units)
    if e.phase ≠ .running then aborted s 0
    else
      match discard e s with
      | some (s, units) => aborted s units
      | none =>
        let s := if e.opcode = 0x1001 then { s with power.abort := true } else s
        .defer { s with host.aborts := s.host.aborts ++ [(e.seq, ((selfEntry c s).map OutCmd.seq).getD 0)] }

/-- DEV_ABORT (R71): a port's own command at any privilege, another port's at ADMIN. -/
def devAbortPlan (c : Cmd) (s : State) : Plan :=
  { op := 0x0103, priv := if portOf (u8 c.params 0) = Cmd.port c then 0 else 2, safe := true
    handleOk := handleDev c.handle, param := targetParam s c
    res := match outTarget s c with
      | some e => if Cmd.abortable e.cmd then none else some ⟨St.NOT_PERMITTED, 2⟩
      | none => none
    run := abortRun c }

/-- DEV_ABORT (R71). -/
def execDevAbort (c : Cmd) (s : State) : Out := .next (hostCmd 0x0103 devAbortPlan c s)

end Sys2Proof.Machine
end

