-- ==== Sys2Proof/Machine/Health.lean ====
section
/-! DEFINITION. Machine/Health.lean: thermal and supply limits, the margin plan, engine faults (R387–R392, R399). -/

namespace Sys2Proof.Machine

/-! ### Thermal limits (R387) -/

/-- The highest junction temperature of the grade, in 0.25 °C: UH-9648-I (Table 0-5). -/
def gradeMax : Int := 420

/-- TRIP_C in 0.25 °C. -/
def tripAt (s : State) : Int := (rgBits s R.HLT_CTRL 23 16 : Int) * 4

/-- A sensor reads. -/
def readSensor (sensor : Nat) (reading : Int) (s : State) : State :=
  let temps := Tbl.put s.health.temps sensor reading
  { s with health := { s.health with
    temps, tjMax := some (max reading (s.health.tjMax.getD reading))
    hot := s.health.hot && temps.any fun t => decide (gradeMax < t.2) } }

/-- THERMAL_HIGH (R387): a sensor has stood above the grade's maximum for 1 s; raised once per excursion. A reading within the
range is only recorded. -/
def thermalHigh (sensor : Nat) (reading : Int) (s : State) : State :=
  if 16 ≤ sensor then s
  else
    let hot := s.health.hot
    let s := readSensor sensor reading s
    if reading ≤ gradeMax ∨ hot then s
    else raiseUnless R.HLT_EVENT_MASK 1 Ev.THERMAL_HIGH 0 (leN sensor 1 ++ leN 0 1 ++ leN (toTwos 16 reading) 2) { s with health.hot := true }

def execThermalHigh (sensor : Nat) (reading : Int) (s : State) : Out := .next (thermalHigh sensor reading s)

/-- THERMAL_TRIP (R387): above TRIP_C for 1 ms: COLD without the entry steps. -/
def thermalTrip (sensor : Nat) (reading : Int) (s : State) : State :=
  if 16 ≤ sensor then s
  else
    let s := readSensor sensor reading s
    if reading ≤ tripAt s ∨ s.power.state = .cold then s
    else enterCold 2 0 (raise Ev.THERMAL_TRIP 0 (leN sensor 1 ++ leN 0 1 ++ leN (toTwos 16 reading) 2) s)

def execThermalTrip (sensor : Nat) (reading : Int) (s : State) : Out := .next (thermalTrip sensor reading s)

/-! ### Supplies (R399) -/

/-- SUPPLY_FAULT (R399): a rail other than VDD_AON and VDD_CORE below its range for 10 µs: COLD at once. Loss of those two in
operation is a brown-out (R82). -/
def supplyFault (rail mv us : Nat) (s : State) : State :=
  let s := { s with health.vmon := Tbl.put s.health.vmon rail mv }
  if us < 10 ∨ 14 < rail ∨ ¬ s.boot.ready ∨ s.power.state = .cold then s
  else if rail = 2 ∨ rail = 0 then (if rail = 0 ∧ s.power.state = .ember then s else fullReset 4 s)
  else enterCold 3 0 (raise Ev.SUPPLY_FAULT 0 (leN rail 1 ++ leN 0 1 ++ leN mv 2) { s with power.supplyOut := true })

def execSupplyFault (rail mv us : Nat) (s : State) : Out := .next (supplyFault rail mv us s)

/-! ### The margin plan (R388, R389) -/

/-- Whether a projected rate meets need = (1 + GUARD_PCT / 100) × floor_rate. -/
def meets (guard floorRate r : Nat) : Bool := decide ((100 + guard) * floorRate ≤ 100 * r)

/-- The lowest rate of a voltage and the canary that has it. -/
def worstOf (rates : List Nat) : Option (Nat × Nat) :=
  (List.range rates.length).foldl (fun m k =>
    let r := rates.getD k 0
    match m with
    | some (q, j) => if r < q then some (r, k) else some (q, j)
    | none => some (r, k)) none

/-- The first voltage, in steps of 5 mV from 600 mV, whose worst projected rate meets the need. -/
def planFrom (guard floorRate : Nat) : List (List Nat) → (mv : Nat) → Option (Nat × Nat × Nat)
  | [], _ => none
  | rates :: t, mv =>
    match worstOf rates with
    | some (r, k) => if mv ≤ 900 ∧ meets guard floorRate r then some (mv, r, k) else planFrom guard floorRate t (mv + 5)
    | none => planFrom guard floorRate t (mv + 5)

/-- The margin of a rate over the need, in 0.01 %. -/
def marginOf (guard floorRate r : Nat) : Int :=
  let need : Int := ((100 + guard) * floorRate : Nat)
  if need = 0 then 0 else (((100 * r : Nat) : Int) - need) * 10000 / need

/-- The plan of R388: voltage, scale in 2⁻¹⁶, worst margin and worst canary. `rates` are the projected rates of the canaries by
voltage, from 600 to 900 mV. -/
def computePlan (guard floorRate : Nat) (rates : List (List Nat)) : Nat × Nat × Int × Nat :=
  match planFrom guard floorRate rates 600 with
  | some (mv, r, k) => (mv, 65536, marginOf guard floorRate r, k)
  | none =>
    let (r, k) := (worstOf (rates.getD 60 [])).getD (0, 0)
    (900, 100 * r * 65536 / max 1 ((100 + guard) * floorRate), marginOf guard floorRate r, k)

/-- A day of operation in cycles. -/
def dayOf : Nat := msCycles 86400000

/-- A plan is made (R388, R389): VDD_CORE runs at it; MARGIN_LOW is raised once from 810 mV on, MARGIN_REPLAN where the cap leaves a
scale below 1. `headroom` are the hours left before the projected rate falls to the admitted load. -/
def makePlan (rates : List (List Nat)) (floorRate headroom : Nat) (s : State) : State :=
  let (mv, scale, margin, worst) := computePlan (rgBits s R.HLT_CTRL 7 0) floorRate rates
  let plan : MarginPlan := { mv, scale, time := nowShort s, margin, worst }
  let low := decide (810 ≤ mv) && !s.health.marginLow
  let s := { s with
    power.vcore := mv, boot.degraded := s.boot.degraded || decide (scale < 65536)
    health := { s.health with plans := (plan :: s.health.plans).take 16, planAt := some s.clock.cycles, headroom
                              marginLow := s.health.marginLow || low } }
  let s := if low then raise Ev.MARGIN_LOW devH (leN mv 2 ++ leN 0 2 ++ leN worst 4) s else s
  if scale < 65536 then raise Ev.MARGIN_REPLAN devH (leN scale 4 ++ leN headroom 4) s else s

/-- MARGIN_PLAN (R388): after every 24 h of operation. -/
def marginPlan (rates : List (List Nat)) (floorRate headroom : Nat) (s : State) : State :=
  match s.health.planAt with
  | some t => makePlan rates floorRate headroom (tickTo (t + dayOf) s)
  | none => s

def execMarginPlan (rates : List (List Nat)) (floorRate headroom : Nat) (s : State) : Out := .next (marginPlan rates floorRate headroom s)

/-- CANARY_MEASURE (R388): once a second HLT measures the rate of every canary. -/
def canaryMeasure (rates : List Nat) (s : State) : State :=
  (List.range (min 512 rates.length)).foldl (fun s k =>
    { s with health.canaries := Tbl.upd s.health.canaries k {} fun c => { c with rate := rates.getD k 0 } })
    (tick (msCycles 1000) s)

def execCanaryMeasure (rates : List Nat) (s : State) : Out := .next (canaryMeasure rates s)

/-! ### Engine faults (R390–R392, Table 17-8) -/

def putEngine (sub e : Nat) (x : Engine) (s : State) : State := { s with health.engines := Tbl.put s.health.engines (65536 * sub + e) x }

/-- The subsystem that serves an opcode's commands. -/
def opSubsystem (op : Nat) : Nat :=
  match op / 256 with
  | 0x01 => 0x01
  | 0x02 => 0x01
  | 0x03 => if op % 256 < 0x10 then 0x01 else 0x0B
  | 0x04 => 0x0C
  | 0x05 => 0x0E
  | 0x06 => 0x0F
  | 0x07 => 0x10
  | 0x08 => 0x0D
  | 0x09 => 0x11
  | 0x0A => 0x08
  | 0x0B => 0x09
  | 0x0C => 0x12
  | 0x0D => 0x14
  | 0x0E => 0x15
  | 0x0F => 0x16
  | 0x10 => 0x17
  | 0x11 => 0x19
  | _ => 0x06

/-- The commands that have started and not completed. -/
def runningCmds (s : State) (p : OutCmd → Bool) : List OutCmd := s.host.cmds.filter fun e => e.phase == .running && p e

/-- ENGINE_UNCOVERED (R391): the commands of that subsystem that run end FAULT_PARTIAL, a session ends with cause FAULT. -/
def engineUncovered (sub e cause : Nat) (s : State) : State :=
  let s := raise Ev.ENGINE_UNCOVERED 0 (leN sub 1 ++ leN e 2 ++ leN cause 1) { s with health.uncovered := true }
  let s := (runningCmds s fun x => opSubsystem x.opcode == sub).foldl (fun s x => finishEntry x St.FAULT_PARTIAL 0 x.progress [] s) s
  if sub = 0x16 then sessionFault e s else s

/-- The spares that may take over from an engine: in a grove only its own. -/
def sparesFor (s : State) (sub e : Nat) : List Nat :=
  (enginesIn s sub .spare).filter fun k => sub != 0x0C || k / 17 == e / 17

/-- What moves with an engine of a subsystem: the contexts moved. -/
def moveWork (sub e : Nat) (s : State) : Nat × State :=
  match sub with
  | 0x0C => ((tasksAt s e).length, coreMigration e s)
  | 0x01 =>
    let l := runningCmds s fun _ => true
    (l.length, l.foldl (fun s x => finishEntry x St.FAULT_MIGRATED 0 x.total [] s) s)
  | 0x0E => let (v, s) := takeFree s; (v, bump R.VDE_MIGRATIONS s)
  | 0x0F => let (v, s) := takeFree s; (v, bump R.CMP_MIGRATIONS s)
  | 0x10 => let (v, s) := takeFree s; (v, bump R.VEN_MIGRATIONS s)
  | _ => takeFree s

/-- ENGINE_MIGRATED (R390–R392): an engine is declared failed, is RETIRED until reset, and its work moves to a spare. An idle spare, or
an engine retired before, has no work to move. -/
def engineMigrated (sub e cause us : Nat) (s : State) : State :=
  if fitted sub = (0, 0) then engineUncovered sub e cause { s with health.migrating := false }
  else if (fitted sub).1 + (fitted sub).2 ≤ e then s
  else
    let st := (engineOf s sub e).state
    let spare := (sparesFor s sub e).head?
    let s := { s with health.migrating := false }
    if st ≠ .inService then putEngine sub e { state := .retired, failed := true } s
    else if spare.isNone ∧ sub ≠ 0x0C then engineUncovered sub e cause (putEngine sub e { state := .retired, failed := true } s)
    else
      let (n, s) := moveWork sub e (if sub = 0x0C then s else
        match spare with
        | some k => putEngine sub k { state := .inService } (putEngine sub e { state := .retired, failed := true } s)
        | none => s)
      let s := bump (R.HLT_MIGR + 8 * sub) (bump R.HLT_MIGRATIONS s)
      let s := raiseUnless R.HLT_EVENT_MASK 0 Ev.ENGINE_MIGRATED 0
        (leN sub 1 ++ leN e 2 ++ leN (spare.getD 0xFFFF) 2 ++ leN cause 1 ++ leN 0 2 ++ leN n 4 ++ leN us 4) s
      if enginesIn s sub .spare = [] ∧ ¬ s.health.exhausted.contains sub then
        raise Ev.SPARES_EXHAUSTED 0 (leN sub 1 ++ leN (min 255 (enginesIn s sub .retired).length) 1)
          { s with health.exhausted := s.health.exhausted ++ [sub] }
      else s

def execEngineMigrated (subsys engine cause takeoverUs : Nat) (s : State) : Out := .next (engineMigrated subsys engine cause takeoverUs s)

/-- ENGINE_SELFTEST (R390): a test in an idle gap; an engine that fails it is declared failed, and its migration runs. -/
def engineSelftest (sub e : Nat) (pass : Bool) (s : State) : State :=
  let s := bump R.HLT_SELFTESTS s
  if pass then s
  else
    let s := bump R.HLT_SELFTEST_FAILS s
    if fitted sub = (0, 0) then s
    else putEngine sub e { engineOf s sub e with failed := true } { s with health.migrating := true }

def execEngineSelftest (subsys engine : Nat) (pass : Bool) (s : State) : Out := .next (engineSelftest subsys engine pass s)

/-! ### Registers and queries (Table 17-15) -/

/-- Hours of operation. -/
def ageHours (s : State) : Nat := (s.health.ageMin + cyclesMs s.clock.cycles / 60000) / 60

/-- A word of the HLT block by its offset, where it is derived. -/
def hltWord (s : State) (off : Nat) : Nat :=
  let h := s.health
  let plan := h.plans.head?
  let half := fun key => if off % 8 = 0 then rgRaw s key % 2 ^ 32 else rgRaw s key / 2 ^ 32
  if 0x400 ≤ off then
    let k := rgBits s R.HLT_CANARY_SEL 8 0
    let c := Tbl.getD h.canaries k {}
    let t0 := Config.canaryTest k s.power.vcore
    match off with
    | 0x400 => k / 2 + 256 * b2n c.failed + 512 * b2n ((plan.map MarginPlan.worst) == some k)
    | 0x404 => c.rate
    | 0x408 => t0
    | 0x40C => c.rate * 10000 / max 1 t0 % 65536
    | 0x410 => toTwos 16 c.temp
    | _ => 0
  else if 0x300 ≤ off then
    match h.plans[(off - 0x300) / 16]?, off % 16 with
    | some p, 0 => p.mv + 65536 * min 65535 p.scale
    | some p, 4 => p.time.toNat % 2 ^ 32
    | some p, 8 => p.time.toNat / 2 ^ 32
    | some p, _ => toTwos 16 p.margin + 65536 * p.worst
    | none, _ => 0
  else if 0x200 ≤ off then
    let key := R.HLT_MIGR + (off - 0x200) / 8 * 8
    if off % 8 = 0 then rgRaw s key % 2 ^ 32 else rgRaw s key / 2 ^ 32
  else if 0x140 ≤ off then Tbl.getD h.vmon ((off - 0x140) / 4) 0
  else if 0x100 ≤ off then toTwos 16 (Tbl.getD h.temps ((off - 0x100) / 4) 0)
  else match off with
  | 0x04 => b2n (decide (scaleOf s < 65536)) + 2 * b2n h.marginLow + 4 * b2n ((plan.map MarginPlan.mv) == some 900)
      + 8 * b2n (h.exhausted != []) + 16 * b2n h.uncovered + 32 * b2n h.hot
  | 0x10 => planMv s + 65536 * 900
  | 0x14 => scaleOf s
  | 0x18 => toTwos 16 ((plan.map MarginPlan.margin).getD 0)
  | 0x1C => ageHours s
  | 0x20 => toTwos 16 (h.tjMax.getD 0)
  | 0x24 => (plan.map MarginPlan.worst).getD 0
  | 0x28 => half R.HLT_MIGRATIONS
  | 0x2C => half R.HLT_MIGRATIONS
  | 0x30 => half R.HLT_SELFTESTS
  | 0x34 => half R.HLT_SELFTESTS
  | 0x38 => half R.HLT_SELFTEST_FAILS
  | 0x3C => half R.HLT_SELFTEST_FAILS
  | 0x40 => ((h.planAt.map fun t => cyclesMs (t + dayOf - s.clock.cycles)).getD 0) / 60000
  | 0x44 => h.headroom
  | _ => rgRaw s (0x06000000 + off)

/-- HLT_QUERY: HLT_STATUS to HLT_HEADROOM_H, then the sensors and the rails. -/
def hltQueryPlan (c : Cmd) (_ : State) : Plan :=
  Plan.query 0x1004 true (handleDev c.handle) 8 none fun s =>
    recordAnswer (((List.range 17).map fun k => 4 + 4 * k) ++ ((List.range 32).map fun k => 0x100 + 4 * k) |>.flatMap fun o => leN (hltWord s o) 4)
def execHltQuery (c : Cmd) (s : State) : Out := .next (hostCmd 0x1004 hltQueryPlan c s)

/-- HLT_MARGIN_QUERY (R389): the plan, and the floor figures in force. -/
def hltMarginPlan (c : Cmd) (_ : State) : Plan :=
  Plan.query 0x1005 true (handleDev c.handle) 8 none fun s =>
    let fig := fun n => leN (n * scaleOf s / 65536) 4
    recordAnswer (leN (planMv s) 4 ++ leN 900 4 ++ leN (toTwos 32 ((s.health.plans.head?.map MarginPlan.margin).getD 0)) 4 ++ leN (scaleOf s) 4
      ++ fig 40000 ++ fig 20000 ++ fig 40000 ++ fig 1000 ++ fig 1250 ++ fig 1250)
def execHltMarginQuery (c : Cmd) (s : State) : Out := .next (hostCmd 0x1005 hltMarginPlan c s)

/-- HLT_SPARE_QUERY (R392): one entry per subsystem. -/
def hltSparePlan (c : Cmd) (_ : State) : Plan :=
  Plan.query 0x1006 true (handleDev c.handle) 8 none fun s =>
    recordAnswer ((List.range 26).flatMap fun n =>
      leN (fitted n).2 1 ++ leN (enginesIn s n .spare).length 1 ++ leN (enginesIn s n .retired).length 2
        ++ leN (rgRaw s (R.HLT_MIGR + 8 * n)) 4)
def execHltSpareQuery (c : Cmd) (s : State) : Out := .next (hostCmd 0x1006 hltSparePlan c s)

end Sys2Proof.Machine
end

