-- ==== Sys2Proof/Machine/FlueEvents.lean ====
section
/-! DEFINITION. Machine/FlueEvents.lean: the flue operations of Table 5-3 as they reach a flue's bank, and the
timers of R104 and R106. -/

namespace Sys2Proof.Machine

/-- The producer number of the packet engine. -/
def pktProducer : Nat := 0x08

/-- Packets that wait for room in flue `i` enter it in order (R107); naming the flue has registered the packet engine. -/
def retryHandoffs (i : Nat) : Nat → State → State
  | 0, s => s
  | fuel + 1, s =>
    match s.pkt.handoffs.find? (fun h => h.flue == i), flueOf s i with
    | some h, some f =>
      if flueTakes f h.items.length then
        let s := { s with pkt.handoffs := s.pkt.handoffs.erase h }
        let s := h.items.foldl (fun s it => match flueOf s i with
          | some f => if itemFirst it then pushFirst i pktProducer it f s else pushNext i pktProducer it f s
          | none => s) s
        retryHandoffs i fuel (flueChanged i (tapFlue i s))
      else s
    | some h, none => { s with pkt.handoffs := s.pkt.handoffs.filter (fun x => x.flue != h.flue) }
    | none, _ => s

/-- An operation reaches the bank and everything that follows from the flue's change happens. -/
def flueOp (i : Nat) (copyB : List Nat) (op : Flue → State → State) (s : State) : State :=
  let s := flueChanged i (atBank i copyB op s)
  if s.pkt.handoffs = [] then s else retryHandoffs i (s.pkt.handoffs.length + 1) s

/-- Whether the push of an item stored the last item of a packet. -/
def pushCommits (f f' : Flue) (it : Item) : Bool := itemLast it && decide (f.occ < f'.occ)

/-- PUSH at the bank; a packet that is complete passes the capture tap (R360). -/
def pushOp (i p : Nat) (it : Item) (f : Flue) (s : State) : State :=
  let s' := pushItem i p it f s
  if pushCommits f ((flueOf s' i).getD {}) it then tapFlue i s' else s'

/-- ABANDON (R104): by the producer that has the packet open. -/
def abandonOp (i p : Nat) (f : Flue) (s : State) : State := if f.opener = some p then closePacket i f s else s

/-- PUSH (R99). -/
def execPush (flue producer : Nat) (item : Item) (copyB : List Nat) (s : State) : Out :=
  .next (flueOp flue copyB (pushOp flue producer item) s)

/-- ABANDON (R104). -/
def execAbandon (flue producer : Nat) (copyB : List Nat) (s : State) : Out :=
  .next (flueOp flue copyB (abandonOp flue producer) s)

/-- POP by a consumer: the item or the not-valid word goes back to it. -/
def popOp (i c : Nat) (f : Flue) (s : State) : State :=
  if f.consumerOk i c then
    let (it, s) := popFlue i f s
    emit (.item i it.hdr.toNat it.payload) s
  else s

/-- An operation that only the consumer may issue. -/
def consumerOp (i c : Nat) (op : Nat → Flue → State → State) (f : Flue) (s : State) : State :=
  if f.consumerOk i c then op i f s else s

/-- POP (R101). A POP of a flue whose pointers are upset gets the not-valid word of a reset flue (R106). -/
def execPop (flue consumer : Nat) (copyB : List Nat) (s : State) : Out :=
  let bad := ((flueOf s flue).map (fun f => f.upset copyB)).getD false
  let s := flueOp flue copyB (popOp flue consumer) s
  .next (if bad then emit (.item flue (((flueOf s flue).map Flue.notValid).getD 0) [])
      (bump R.FLU_EMPTY_POPS s) else s)

/-- PEEK (R101). -/
def execPeek (flue consumer : Nat) (copyB : List Nat) (s : State) : Out :=
  let bad := ((flueOf s flue).map (fun f => f.upset copyB)).getD false
  let s := flueOp flue copyB (consumerOp flue consumer peekFlue) s
  .next (if bad then emit (.item flue (((flueOf s flue).map Flue.notValid).getD 0) []) (bump R.FLU_EMPTY_POPS s) else s)

/-- DROP_REMAINDER (R105). -/
def execDropRemainder (flue consumer : Nat) (copyB : List Nat) (s : State) : Out :=
  .next (flueOp flue copyB (consumerOp flue consumer dropRemainder) s)

/-- COMMIT (R102). -/
def execCommit (flue consumer : Nat) (copyB : List Nat) (s : State) : Out :=
  .next (flueOp flue copyB (consumerOp flue consumer commitFlue) s)

/-- REWIND (R102): by the consumer, or by the Hearth, whose number is 0xFFFF. -/
def execRewind (flue consumer : Nat) (copyB : List Nat) (s : State) : Out :=
  .next (flueOp flue copyB (fun f s => if consumer = 0xFFFF ∨ f.consumerOk flue consumer then rewindFlue flue f s else s) s)

/-- FLUE_RESET_COMPLETE (R106). -/
def execFlueResetComplete (flue : Nat) (s : State) : Out := .next (flueChanged flue (flueResetComplete flue s))

/-- FLUE_OPEN_TIMEOUT (R104). -/
def execFlueOpenTimeout (flue : Nat) (s : State) : Out := .next (flueChanged flue (openTimeout flue s))

end Sys2Proof.Machine
end

