-- ==== Sys2Proof/Machine/Receive.lean ====
section
/-! DEFINITION. Machine/Receive.lean: a received frame from its sub-port to its leg, flue, time unit, Hearth or router
(R148–R166, R286, R291, R292). -/

namespace Sys2Proof.Machine

/-! ### The packet buffer (R165) -/

/-- Cells reserved for reception of one sub-port, and for egress pacing. -/
def reserveCells (s : State) : Nat := rgBits s R.PKT_BUF_CFG 15 0
def egressReserve (s : State) : Nat := rgBits s R.PKT_BUF_CFG 31 16

/-- The enabled sub-ports. -/
def enabledSubs (s : State) : Nat := Tbl.sum s.pkt.ports fun e => (subPorts e.mode).length

/-- Cells of the shared part that the interfaces use beyond their reserves. -/
def sharedUsed (s : State) : Nat :=
  ((List.range 32).map fun i => rxCellsOf s i - reserveCells s).foldl (· + ·) (rxCellsOf s 32)

/-- The shared part of the buffer. -/
def sharedCells (s : State) : Nat := bufCells s - egressReserve s - reserveCells s * enabledSubs s

/-- Whether a frame of interface `i` finds its cells. -/
def cellsFor (s : State) (i n : Nat) : Bool :=
  let own := if i < 32 then reserveCells s else 0
  decide (rxCellsOf s i + n ≤ own) || decide (sharedUsed s + (rxCellsOf s i + n - max own (rxCellsOf s i)) ≤ sharedCells s)

/-- Free cells. -/
def bufFree (s : State) : Nat := bufCells s - rxCellsAll s - egressCells s

/-- A frame that finds no cell is dropped; PKT_BUF_EXHAUSTED at most once per 100 ms. -/
def bufDrop (i : Nat) (s : State) : State :=
  let s := bump R.PKT_BUF_DROPS (if i < 32 then bump (ethCtr R.PKT_P_RX_BUF_DROPS i) s else s)
  let s := { s with pkt.bufDrops := s.pkt.bufDrops + 1 }
  let hushed := match s.pkt.bufAt with
    | some a => decide (s.clock.cycles < a + msCycles 100)
    | none => false
  if hushed then s
  else raiseUnless R.PKT_EVENT_MASK 1 Ev.PKT_BUF_EXHAUSTED 0 (leN i 1 ++ leN 0 3 ++ leN s.pkt.bufDrops 4)
    { s with pkt.bufAt := some s.clock.cycles, pkt.bufDrops := 0 }

/-! ### MACsec (R154) -/

/-- A frame with a SecTAG is validated and decrypted: whether it passes. -/
def macsecIn (i bytes : Nat) (m : Nat × Nat × Nat × Bool) (s : State) : Bool × State :=
  let (sci, an, pn, auth) := m
  let y := Tbl.getD s.pkt.secys i {}
  match (Tbl.get? y.rx sci).bind fun r => Tbl.get? r an with
  | none => (false, bump (ethCtr R.PKT_P_MACSEC_IN_NO_SA i) s)
  | some a =>
    if a.protect ∧ pn + a.window < a.nextPn then (false, bump (ethCtr R.PKT_P_MACSEC_IN_LATE i) s)
    else
      let usable := (keyOf s a.key).written && (keyOf s a.key).eraser.isNone
      let r := cipherReceive a.key bytes pn auth false false s
      let seen : SecY → SecY := fun y => { y with rx := Tbl.modify y.rx sci (fun t =>
        Tbl.modify t an (fun a => { a with nextPn := max a.nextPn (pn + 1) })) }
      if r.1 then
        (true, bump (ethCtr R.PKT_P_MACSEC_IN_OK i) { r.2 with pkt.secys := Tbl.modify r.2.pkt.secys i seen })
      else (false, if usable then bump (ethCtr R.PKT_P_MACSEC_IN_NOT_VALID i) r.2 else r.2)

/-! ### Local addresses and look-ups (R155, R157) -/

/-- The local address a frame is sent to; a client gateway address counts only from interface 32. -/
def localAddr (s : State) (f : Frame) : Option (Nat × LAddr) :=
  s.pkt.laddrs.find? fun a => a.2.addr == fit f.dst 16 && bit a.2.flags 0 == f.v6 && (!bit a.2.flags 6 || f.iface == 32)

/-- A look-up: counted, with the entry it hits. -/
def lookup (key : List Byte) (s : State) : Option (Nat × Flow) × State :=
  let s := bump R.PKT_LOOKUPS s
  match findFlow s key with
  | some (i, f) =>
    (some (i, f), modFlow i (fun f => { f with hits := satAdd 64 f.hits 1, lastHit := nowShort s, hitAt := s.clock.cycles }) s)
  | none => (none, s)

/-- The key of a MEDIA, RTCP or FLUE entry for a datagram (Table 7-4). -/
def mediaKey (kind la : Nat) (f : Frame) : List Byte :=
  leN (kind + 16 * b2n f.v6) 1 ++ leN la 1 ++ leN f.vlan 2 ++ leN f.dstPort 2 ++ leN f.srcPort 2 ++ fit f.src 16

/-- The MEDIA, RTCP or FLUE entry that a datagram matches. -/
def mediaEntry (s : State) (f : Frame) : Option (Nat × Flow) :=
  if f.proto = 17 then
    (localAddr s f).bind fun a => [1, 2, 5].findSome? fun k => findFlow s (mediaKey k a.1 f)
  else none

/-- The SSRC entry of a leg (Table 7-4). -/
def ssrcSlot (s : State) (leg ssrc : Nat) : Option Nat :=
  (s.pkt.flows.find? fun e => e.2.kind == 3 && !e.2.removed && u32 e.2.bytes 4 == (legH leg).toNat && u32 e.2.bytes 8 == ssrc).map
    fun e => e.2.byte 24

/-! ### Flues (kind 5, EAPOL) -/

/-- A packet's items: inline where they fit a packet, else one descriptor, whose contents are open. -/
def frameItems (meta_ : Nat) (b : List Byte) (s : State) : List Item × State :=
  if b.length ≤ 6144 then (spItems (meta_ % 2 ^ 32) b, s)
  else
    let (d, s) := freeBytes 24 s
    ([{ hdr := BitVec.ofNat 64 (2 ^ 63 + 2 ^ 62 + 2 ^ 61 + 2 ^ 56 + 2 ^ 48 + 24 * 2 ^ 40 + meta_ % 2 ^ 32), payload := d }], s)

/-- A packet goes to a flue, after those that wait for it. -/
def toFlue (i iface cells : Nat) (b : List Byte) (s : State) : State :=
  let (v, s) := takeFree s
  let (items, s) := frameItems v b s
  retryHandoffs i (s.pkt.handoffs.length + 1) { s with pkt.handoffs := s.pkt.handoffs ++ [{ flue := i, items, iface, cells }] }

/-- FLUE_POP and its kin leave room: packets that wait enter. -/
def retryAll (s : State) : State :=
  ((s.pkt.handoffs.map Handoff.flue).eraseDups).foldl (fun s i => retryHandoffs i (s.pkt.handoffs.length + 1) s) s

/-! ### Incoming video as LFW sees it (R288, R291) -/

/-- Whether any forward set entry carries an incoming stream. -/
def forwarded (s : State) (k : Nat) : Bool := s.video.fwd.any fun f => f.2.entries.any fun e => entryInput e.2 == some k

/-- Legs with an entry that sends temporal layer `t` of an incoming stream. -/
def usersOf (s : State) (k t : Nat) : List Nat :=
  (s.video.fwd.filter fun f => f.2.entries.any fun e => entryInput e.2 == some k
    && match e.2.current with | some c => decide (t ≤ c.t) | none => false).map Prod.fst

/-- A picture of a forwarded stream begins: the detection of Table 11-4 and the taint rule of R257; a taint that opens asks the
sender for a key picture, and a layer in use that becomes tainted is evaluated at once (R289). -/
def lfwPicture (leg k : Nat) (v : VideoView) (s : State) : State :=
  let x := streamOf s k
  let t := v.temporal
  let bad := !v.key && (v.missing || v.refs.any x.dirty.contains)
  let new := setBit x.taint t bad
  let s := modStream k (fun x => { x with
    taint := new, gaps := if v.missing && !v.key && !x.gaps.contains t then x.gaps ++ [t] else x.gaps
    dirty := if bad then (v.frame :: x.dirty).take 64 else x.dirty.filter (· != v.frame) }) s
  let s := if x.taint = 0 ∧ new ≠ 0 ∧ (policyFor s leg).reqMode ≠ 0 then requestKey k 1 (fwdH leg) s
    else if x.taint ≠ 0 ∧ new = 0 then
      cancelKey k (fwdH leg) (modStream k (fun x => { x with reqAt := none, firSent := false }) s)
    else s
  if bad && !bit x.taint t then (usersOf s k t).foldl (fun s l => evaluateSet l s) s else s

/-- The entries of a forward set that a packet goes to. -/
def takersOf (s : State) (leg : Nat) (f : FwdSet) (k : Nat) (v : VideoView) : List Nat :=
  if mayForward s leg then
    (f.entries.filter fun e => entryInput e.2 == some k && match e.2.current, e.2.src with
      | some c, some (.leg _ n) => decide (v.temporal ≤ c.t) && (n == 0 || decide (v.spatial ≤ c.s))
      | _, _ => false).map Prod.fst
  else []

/-- A packet is forwarded to its receivers' pacing queues, or withheld for taint (R291, R293). -/
def forwardPkt (k bytes : Nat) (v : VideoView) (s : State) : State :=
  if bit (streamOf s k).taint v.temporal then
    (if s.video.fwd.any (fun f => takersOf s f.1 f.2 k v != []) then bump R.LFW_TAINT_DROPS s else s)
  else
    { s with video.fwd := Tbl.each s.video.fwd fun leg f => { f with
        queue := f.queue ++ (takersOf s leg f k v).map fun e => { entry := e, bytes, eligible := nowNs s } } }

/-- A video packet of a leg's stream slot arrives (R166): LFW measures and forwards it, decode streams take it. -/
def videoArrive (leg slot : Nat) (f : Frame) (s : State) : State :=
  let k := vkey leg slot
  let v := f.video
  let now := nowNs s
  let s := bump R.LFW_PKTS_IN s
  let s := modStream k (fun x => { x with
    pkts := x.pkts.filter (fun p => decide (now < p.1 + 500000000)) ++ [(now, v.spatial, v.temporal, f.length)]
    size := if v.size ≠ 0 then v.size else x.size, picNs := if v.first then now else x.picNs }) s
  let s := if v.first && forwarded s k then lfwPicture leg k v s else s
  let s := if v.last then modStream k (fun x => { x with gaps := x.gaps.filter (· != v.temporal) }) s else s
  let s := forwardPkt k f.length v s
  ((s.video.decs.filter fun d => decInput s d.2 == some k).map Prod.fst).foldl
    (fun s i => decArrive i f.rtp.timestamp f.rtp.seq v.first v.last s) s

/-! ### RTCP (R286, R287, R292) -/

/-- A feedback report arrives on a leg. -/
def heardReport (leg : Nat) (s : State) : State :=
  bump (winKey R.LFW_W_REPORTS leg) (modFwd leg (fun f => { f with lastRep := s.clock.cycles, noFbSaid := false }) s)

/-- Congestion-control feedback: the packets still in the send record count in the present window. -/
def ccFeedback (leg : Nat) (reports : List (Nat × Option Int)) (s : State) : State :=
  modFwd leg (fun f => { f with
    rfc8888 := true
    win := f.win ++ reports.filterMap fun r =>
      (f.records.find? fun x => x.1 == r.1).map fun x => match r.2 with
        | some a => (x.2.1, 1, 0, a - (x.2.2 / 1000 : Nat))
        | none => (0, 1, 1, 0) }) (heardReport leg s)

/-- A receiver report: its loss is used while no RFC 8888 report has been seen, by the loss rule alone. -/
def receiverReport (leg loss : Nat) (s : State) : State :=
  let lost : Rat := (loss : Rat) / 256
  let p := policyFor s leg
  modFwd leg (fun f =>
    let f := { f with rr := true }
    if f.rfc8888 || !f.started then f
    else { f with lost, est := if 1 / 10 < lost then clampLow p (f.est * (1 - lost / 2)) else f.est }) (heardReport leg s)

/-- A receiver's PLI or FIR for an outgoing SSRC (R292). -/
def pliArrive (leg ssrc : Nat) (s : State) : State :=
  let s := bump (winKey R.LFW_W_PLI_RX leg) s
  match (fwdOf s leg).entries.find? fun e => e.2.ssrc == ssrc with
  | none => s
  | some (_, e) =>
    match e.src with
    | some (.enc i) => bump R.LFW_KREQ_UP (requestEncKey i [(e.current.map Layer.s).getD 0] 1 s)
    | some (.leg l _) =>
      match entryInput e with
      | some k => if (policyFor s l).reqMode = 0 then s else requestKey k 1 (fwdH l) s
      | none => s
    | none => s

/-- One packet of a compound RTCP packet of a leg. -/
def rtcpItem (leg : Nat) (s : State) (x : RtcpItem) : State :=
  match x with
  | .ccfb reports => if Tbl.has s.video.fwd leg then ccFeedback leg reports s else s
  | .report loss => if Tbl.has s.video.fwd leg then receiverReport leg loss s else s
  | .pli ssrc => if Tbl.has s.video.fwd leg then pliArrive leg ssrc s else s
  | .fir ssrc => if Tbl.has s.video.fwd leg then pliArrive leg ssrc s else s
  | .nack => bump R.LFW_NACK_IGNORED (bump (winKey R.LFW_W_NACK_IGNORED leg) s)
  | .other => s

/-! ### Media (R166, R167) -/

/-- The receive slot of a leg. -/
def rxKeyOf (s : State) (leg : Nat) : Option Nat :=
  (s.keys.find? fun e => e.2.owner == legH leg && isSrtp e.2.suite && e.2.rx && e.2.written).map Prod.fst

/-- An SRTCP packet under slot `k`: it has its own index, and no replay window is kept for it. -/
def srtcpReceive (k bytes : Nat) (v : RtpView) (s : State) : Bool × State :=
  let x := keyOf s k
  if ¬ x.written ∨ x.eraser.isSome then (false, bump R.CIP_KEY_ABSENT s)
  else if 2 ^ 31 ≤ v.index then (false, s)
  else
    let s := chargePipe k bytes false s
    if v.authOk then (true, dropHeld k (modKey k (fun x => { x with counter2 := max x.counter2 v.index }) s))
    else if v.authOld && x.held.isSome then (true, s)
    else (false, bump R.CIP_AUTH_FAIL (modKey k (fun x => { x with authFail := satAdd 64 x.authFail 1 }) s))

/-- A packet of a leg is authenticated and decrypted. -/
def srtpIn (leg : Nat) (rtcp : Bool) (f : Frame) (s : State) : Bool × State :=
  match rxKeyOf s leg with
  | none => (false, bump R.CIP_KEY_ABSENT s)
  | some k =>
    if rtcp then srtcpReceive k f.length f.rtp s
    else cipherReceive k f.length f.rtp.index f.rtp.authOk f.rtp.authOld false s

/-- The receive tap's CLEAR point. -/
def tapClear (f : Frame) (fl : Option (Nat × Flow)) (opened failed : Bool) (s : State) : State :=
  if s.cap.sessions = [] ∨ 32 ≤ f.iface then s
  else
    let (b, s) := if opened then freeBytes f.data.length s else (f.data, s)
    tap { rec_ := { kind := 0, point := 1, port := f.iface, time := nowFrac s, flags := 8 * b2n failed, origLen := b.length
                    payload := b, meta_ := flowMeta (fl.map Prod.fst) }
          flow := fl.map Prod.fst, owner := (fl.map fun e => e.2.owner).getD 0 } s

/-- A packet's SSRC is the leg's audio: as its entry says, or learnt from the first valid packet (Table 7-4). -/
def audioSsrc (i : Nat) (fl : Flow) (ssrc : Nat) (s : State) : Bool × State :=
  let a := u32 fl.bytes 28
  if a = 0 then (true, modFlow i (fun f => { f with bytes := f.bytes.take 28 ++ leN ssrc 4 }) s) else (a == ssrc, s)

/-- An RTP packet of an ACTIVE leg, decrypted: to its jitter buffer, its video stream, or dropped for want of an SSRC entry. -/
def rtpArrive (leg i : Nat) (fl : Flow) (f : Frame) (s : State) : State :=
  match ssrcSlot s leg f.rtp.ssrc with
  | some slot => videoArrive leg slot f s
  | none =>
    let r := audioSsrc i fl f.rtp.ssrc s
    if r.1 then jbArrive leg f.iface f.cells f.rtp.seq f.rtp.timestamp r.2
    else modLeg leg (fun l => { l with noSsrcDrops := satAdd 64 l.noSsrcDrops 1 }) r.2

/-- A datagram on a leg's MEDIA or RTCP entry (R14, R155 order 7, R166). -/
def mediaArrive (i : Nat) (fl : Flow) (f : Frame) (s : State) : State :=
  let leg := u16 fl.bytes 24
  match Tbl.get? s.legs leg with
  | none => s
  | some l =>
    let rtcp := fl.kind == 2 || (bit (fl.byte 26) 0 && decide (192 ≤ f.second) && decide (f.second ≤ 223))
    let srtp := if fl.kind = 2 then bit l.flags 3 else bit (fl.byte 26) 1
    let s := modLeg leg (fun l => { l with rxPackets := satAdd 64 l.rxPackets 1 }) s
    if l.state = .held then modLeg leg (fun l => { l with heldDrops := satAdd 64 l.heldDrops 1 }) s
    else if l.state ≠ .active then s
    else
      let r := if srtp then srtpIn leg rtcp f s else (true, s)
      let s := tapClear f (some (i, fl)) srtp (!r.1) r.2
      if ¬ r.1 then s
      else if rtcp then f.rtcp.foldl (rtcpItem leg) s
      else rtpArrive leg i fl f s

/-- The entry of order 7 takes a datagram. -/
def entryArrive (i : Nat) (fl : Flow) (f : Frame) (s : State) : State :=
  if fl.kind = 5 then
    toFlue (u16 fl.bytes 24) f.iface f.cells (if bit (fl.byte 26) 0 then f.data else f.data.drop f.udpAt) (tapClear f (some (i, fl)) false false s)
  else mediaArrive i fl f s

/-! ### Hearth (orders 4–6) -/

/-- The station with a MAC address, in the AP role. -/
def staByMac (s : State) (mac : List Byte) : Option Nat :=
  (s.wlan.stas.find? fun a => a.2.bss != 0xFF && a.2.mac == mac).map Prod.fst

/-- A frame of the Hearth goes back the way a frame came; its length is open. -/
def answerTo (f : Frame) (sta : Option Nat) (s : State) : State :=
  let (v, s) := takeFree s
  match sta with
  | some i => wlanEnqueue i (acOf f.dscp) s
  | none => transmit f.iface (v % 1518) 3 [] none 0 s

/-- Whether the Hearth answers a frame, the spec leaves open where it names no responder. -/
def maybeAnswer (f : Frame) (sta : Option Nat) (s : State) : State :=
  let (v, s) := takeFree s
  if v % 2 = 1 then answerTo f sta s else s

/-- The sender of an ARP or neighbour-discovery frame enters the neighbour table (R161). -/
def learnNeighbour (addr mac : List Byte) (iface : Nat) (s : State) : State :=
  if s.pkt.neighbours.any (fun n => n.2.addr == fit addr 16 && n.2.static_) then s
  else putNeighbour { addr := fit addr 16, mac, iface, static_ := false } s

/-- ARP, ICMP, IGMP and their kin (order 4). -/
def hearthFrame (f : Frame) (sta : Option Nat) (s : State) : State :=
  let s := bump R.PKT_TO_HEARTH s
  maybeAnswer f sta (if f.control = 1 then learnNeighbour f.src f.srcMac f.iface s else s)

/-- The pool of a BSS (Table 13-6): its size, and its lease time in cycles. -/
def Bss.pool (b : Bss) : Nat := u16 b.params 16
def Bss.leaseTime (b : Bss) : Nat := msCycles (60000 * (if u16 b.params 18 = 0 then 720 else u16 b.params 18))

/-- The place in the pool that a station's MAC address gets: its own lease, else the lowest that no lease holds. -/
def leasePlace (s : State) (b : Nat) (mac : List Byte) : Option Nat :=
  let live := fun (k : Nat) => match Tbl.get? s.pkt.leases (65536 * b + k) with
    | some l => decide (s.clock.cycles < l.ends)
    | none => false
  let n := (bssOf s b).pool
  match s.pkt.leases.find? (fun e => e.1 / 65536 == b && e.2.mac == mac && live (e.1 % 65536)) with
  | some e => some (e.1 % 65536)
  | none => (List.range n).find? fun k => !live k

/-- The IPv4 address at a place of a BSS's pool, first byte first. -/
def poolAddr (b : Bss) (k : Nat) : List Byte := fit ((leN (u32 b.params 12 + k) 4).reverse) 16

/-- DHCP from a station: a lease bound to it, with its neighbour entry (Wireless access, Router interplay). -/
def dhcpServe (f : Frame) (i : Nat) (s : State) : State :=
  let a := staOf s i
  match if a.bss = 0xFF then none else leasePlace s a.bss a.mac with
  | none => maybeAnswer f (some i) s
  | some k =>
    let b := bssOf s a.bss
    answerTo f (some i) (learnNeighbour (poolAddr b k) a.mac 32
      { s with pkt.leases := Tbl.put s.pkt.leases (65536 * a.bss + k) { mac := a.mac, ends := s.clock.cycles + b.leaseTime } })

/-! ### Router, NAT and access control (R161–R164) -/

/-- The zone an interface and VLAN lie in: their local address's (R298), else client for interface 32 and uplink for the
sub-ports. -/
def zoneOf (s : State) (iface vlan : Nat) : Nat :=
  match s.pkt.laddrs.find? (fun a => a.2.iface == iface && a.2.vlan == vlan) with
  | some a => a.2.zone
  | none => b2n (decide (32 ≤ iface))

/-- PROTO of a flow entry. -/
def protoCode (p : Nat) : Option Nat := if p = 17 then some 0 else if p = 6 then some 1 else if p = 1 ∨ p = 58 then some 2 else none

/-- The route of a destination: the longest prefix (R161). -/
def routeFor (s : State) (v6 : Bool) (dst : List Byte) : Option (Nat × Flow) :=
  (s.pkt.flows.filter fun e => e.2.kind == 6 && !e.2.removed && e.2.v6 == v6
      && prefixMatch (e.2.byte 1) (slice e.2.bytes 8 16) dst).foldl
    (fun m e => match m with
      | some x => if x.2.byte 1 < e.2.byte 1 then some e else m
      | none => some e) none

/-- The CONN keys of a packet from and towards the client side (Table 7-4). -/
def connOutKey (pc near : Nat) (f : Frame) : List Byte :=
  leN (7 + 16 * b2n f.v6 + 32 * pc) 1 ++ leN 0 1 ++ leN near 2 ++ leN f.srcPort 2 ++ leN f.dstPort 2 ++ fit f.dst 16
def connInKey (pc near : Nat) (f : Frame) : List Byte :=
  leN (7 + 16 * b2n f.v6 + 32 * pc) 1 ++ leN 1 1 ++ leN near 2 ++ leN f.dstPort 2 ++ leN f.srcPort 2 ++ fit f.src 16

/-- ICMP errors: with ICMP_ERR_EN, up to 100 per second (R161). -/
def icmpError (f : Frame) (sta : Option Nat) (s : State) : State :=
  if ¬ bit (rgRaw s R.PKT_CTRL) 2 then s
  else
    let same : Bool := match s.pkt.icmpAt with
      | some a => decide (s.clock.cycles < a + msCycles 1000)
      | none => false
    if same ∧ 100 ≤ s.pkt.icmpN then s
    else answerTo f sta { s with pkt.icmpAt := if same then s.pkt.icmpAt else some s.clock.cycles
                                 pkt.icmpN := if same then s.pkt.icmpN + 1 else 1 }

/-- A new exchange that finds no port or no flow entry (R163). -/
def natExhausted (la cause : Nat) (s : State) : State :=
  let s := bump R.PKT_NAT_EXHAUSTED s
  let hushed := match s.pkt.natAt with
    | some a => decide (s.clock.cycles < a + msCycles 10000)
    | none => false
  if hushed then s
  else raiseUnless R.PKT_EVENT_MASK 2 Ev.NAT_EXHAUSTED 0 (leN la 1 ++ leN cause 1) { s with pkt.natAt := some s.clock.cycles }

/-- The NAT ports of a local address that inbound entries use. -/
def portsUsed (s : State) (pc la : Nat) : List Nat :=
  (s.pkt.flows.filter fun e => e.2.kind == 7 && !e.2.removed && e.2.byte 1 == 1 && !e.2.v6 && bits (e.2.byte 0) 6 5 == pc
    && u16 e.2.bytes 2 == la).map fun e => u16 e.2.bytes 4

/-- The lowest free port of an address's pool (R163); ICMP identifiers come from the UDP pool. -/
def freePort (s : State) (pc : Nat) (a : Nat × LAddr) : Option Nat :=
  let (lo, hi) := if pc = 1 then (a.2.tcpLo, a.2.tcpHi) else (a.2.udpLo, a.2.udpHi)
  let used := portsUsed s pc a.1
  if hi < lo then none
  else ((List.range (min (hi - lo + 1) (used.length + 1))).map (· + lo)).find? fun p => !used.contains p

/-- The public addresses, lowest index first. -/
def publicAddrs (s : State) : List (Nat × LAddr) := s.pkt.laddrs.filter fun a => bit a.2.flags 4 && !bit a.2.flags 0

/-- The public address and port for a new outbound exchange: the first public address with a free port. -/
def natPort (s : State) (pc : Nat) : Option (Nat × Nat) :=
  (publicAddrs s).findSome? fun a => (freePort s pc a).map fun p => (a.1, p)

/-- The last-use field of a CONN entry. -/
def useSecs (s : State) : Nat := nowSec s % 2 ^ 24

/-- A CONN pair is created (R162): near station and port, remote port and address, the port as the far side sees it, the public
address where translated. The state is NEW. -/
def createConn (pc station nearPort remotePort port : Nat) (v6 : Bool) (remote : List Byte) (la : Option Nat) (s : State) : Option State :=
  if 1048576 < flowsDrawn s + 2 then none
  else
    let (v, s) := match la with
      | some a => (a, s)
      | none => takeFree s
    let head := fun dir near p => leN (7 + 16 * b2n v6 + 32 * pc) 1 ++ leN dir 1 ++ leN near 2 ++ leN p 2 ++ leN remotePort 2 ++ fit remote 16
    let tail_ := leN 0 1 ++ leN (useSecs s) 3
    let out := head 0 station nearPort ++ leN port 2 ++ leN (v % 65536) 2 ++ tail_
    let inb := head 1 (la.getD station) port ++ leN nearPort 2 ++ leN station 2 ++ tail_
    let now := s.clock.cycles
    match addFlow { bytes := out, owner := devH, hitAt := now, lastHit := nowShort s } s with
    | none => none
    | some (_, s) => match addFlow { bytes := inb, owner := devH, hitAt := now, lastHit := nowShort s } s with
      | none => none
      | some (_, s) => some (bump R.PKT_CONN_CREATED s)

/-- A CONN pair is used: last use and state; FIN and RST of a TCP exchange close it 10 s after both FINs or any RST (R164). `out`
is the outbound entry, `side` 1 from the client and 2 from the far side, `reply` that the packet goes against the direction
of the first. -/
def useConn (out side : Nat) (f : Frame) (s : State) : State :=
  let peer := connPeer s out
  let fins := Nat.lor (Tbl.getD s.pkt.finSeen out 0) (if f.tcpFin then side else 0)
  let ends := f.tcpRst || fins == 3
  let mark := fun (x : Flow) =>
    let st := if f.proto = 6 ∧ (fins ≠ 0 ∨ f.tcpRst) then 2 else max (x.byte 28) (b2n (side == 2))
    { x with bytes := x.bytes.take 28 ++ leN st 1 ++ leN (useSecs s) 3, hitAt := s.clock.cycles }
  let s := modFlow out mark (match peer with
    | some j => modFlow j mark s
    | none => s)
  if f.proto ≠ 6 then s
  else { s with
    pkt.finSeen := if fins = 0 then s.pkt.finSeen else Tbl.put s.pkt.finSeen out fins
    pkt.closeAt := if ends ∧ ¬ Tbl.has s.pkt.closeAt out then Tbl.put s.pkt.closeAt out (s.clock.cycles + msCycles 10000) else s.pkt.closeAt }

/-- A routed packet reaches its next hop through the neighbour table; where that has no entry, the Hearth resolves it and the
packet goes no further. -/
def sendHop (f : Frame) (iface : Nat) (hop : List Byte) (s : State) : State :=
  match s.pkt.neighbours.find? fun n => n.2.addr == fit hop 16 with
  | some (_, n) =>
    if n.iface = 32 then
      match staByMac s n.mac, (s.wlan.stas.find? fun a => a.2.bss == 0xFF).map Prod.fst with
      | some i, _ => wlanEnqueue i (acOf f.dscp) s
      | none, some i => wlanEnqueue i (acOf f.dscp) s
      | none, none => s
    else transmit n.iface f.length 7 [] none 0 s
  | none =>
    let (v, s) := takeFree s
    transmit iface (v % 1518) 3 [] none 0 s

/-- A packet follows a route. -/
def followRoute (f : Frame) (r : Nat × Flow) (s : State) : State :=
  let s := modFlow r.1 (fun x => { x with hits := satAdd 64 x.hits 1, lastHit := nowShort s, hitAt := s.clock.cycles }) s
  let hop := if u16 r.2.bytes 24 = 65535 then f.dst else Tbl.getD s.pkt.nextHops (u16 r.2.bytes 24) []
  sendHop f (u8 r.2.ctx 0) hop s

/-- The station that an address belongs to, by its neighbour entry. -/
def staAt (s : State) (addr : List Byte) : Option Nat :=
  (s.pkt.neighbours.find? fun n => n.2.addr == fit addr 16 && n.2.iface == 32).bind fun n => staByMac s n.2.mac

/-- A packet without a route, or with one that stops it (R161): answers the route it may follow. -/
def usableRoute (f : Frame) (sta : Option Nat) (s : State) : Option (Nat × Flow) × State :=
  match routeFor s f.v6 f.dst with
  | none => (none, icmpError f sta (bump R.PKT_NO_ROUTE s))
  | some r =>
    if bit (r.2.byte 26) 1 then (none, icmpError f sta s)
    else if bit (r.2.byte 26) 2 then (none, maybeAnswer f sta (bump R.PKT_TO_HEARTH s))
    else (some r, s)

/-- The first packet of an exchange from the client zone: its zone pair's rules, NAT, the CONN pair (R162, R163). -/
def firstOut (pc station : Nat) (f : Frame) (r : Nat × Flow) (s : State) : State :=
  let pair := if r.2.byte 27 = 0 then 0 else 2
  if ¬ aclPermits s pair (fit f.dst 16) pc f.dstPort then bump R.PKT_ACL_DENIED s
  else
    let nat := pair == 0 && bit (r.2.byte 26) 0 && bit (rgRaw s R.PKT_CTRL) 1 && !f.v6
    let first := ((publicAddrs s).head?.map Prod.fst).getD 0
    match if nat then (natPort s pc).map (fun a => (some a.1, a.2)) else some (none, f.srcPort) with
    | none => natExhausted first 0 s
    | some (la, port) =>
      match createConn pc station f.srcPort f.dstPort port f.v6 f.dst la s with
      | none => natExhausted (la.getD first) 1 s
      | some s => followRoute f r s

/-- A packet from the client zone. -/
def routeOut (pc : Nat) (f : Frame) (sta : Option Nat) (s : State) : State :=
  let station := sta.getD 0xFFFF
  match lookup (connOutKey pc station f) s with
  | (some (i, _), s) =>
    match usableRoute f sta (useConn i 1 f s) with
    | (some r, s) => followRoute f r s
    | (none, s) => s
  | (none, s) =>
    match lookup (connInKey pc ((staAt s f.dst).getD 0xFFFF) f) s with
    | (some (j, x), s) => wlanEnqueue (u16 x.bytes 26) (acOf f.dscp) (match connPeer s j with
        | some i => useConn i 2 f s
        | none => s)
    | (none, s) =>
      match usableRoute f sta s with
      | (some r, s) => firstOut pc station f r s
      | (none, s) => s

/-- The first packet of an exchange from the uplink zone, to a station (R162). -/
def firstIn (pc : Nat) (f : Frame) (s : State) : State :=
  match usableRoute f none s with
  | (none, s) => s
  | (some r, s) =>
    if r.2.byte 27 = 0 then s
    else if ¬ aclPermits s 1 (fit f.src 16) pc f.dstPort then bump R.PKT_ACL_DENIED s
    else
      match createConn pc ((staAt s f.dst).getD 0xFFFF) f.dstPort f.srcPort f.dstPort f.v6 f.src none s with
      | none => natExhausted 0 1 s
      | some s => followRoute f r s

/-- A packet from the uplink zone: its CONN entry, a static forward, or the rules. -/
def routeIn (pc : Nat) (f : Frame) (s : State) : State :=
  let la := if f.v6 then none else ((publicAddrs s).find? fun a => a.2.addr == fit f.dst 16).map Prod.fst
  let near := match la with
    | some a => a
    | none => (staAt s f.dst).getD 0xFFFF
  match lookup (connInKey pc near f) s with
  | (some (j, x), s) =>
    wlanEnqueue (u16 x.bytes 26) (acOf f.dscp) (match connPeer s j with
      | some i => useConn i 2 f s
      | none => s)
  | (none, s) =>
    match la with
    | none => firstIn pc f s
    | some a =>
      match lookup (fit (leN (8 + 32 * pc) 1 ++ leN 0 1 ++ leN a 2 ++ leN f.dstPort 2) 24) s with
      | (some (_, x), s) =>
        match createConn pc (u16 x.bytes 26) (u16 x.bytes 24) f.srcPort f.dstPort false f.src (some a) s with
        | none => natExhausted a 1 s
        | some s => wlanEnqueue (u16 x.bytes 26) (acOf f.dscp) s
      | (none, s) =>
        if aclPermits s 1 (fit f.src 16) pc f.dstPort then firstIn pc f s else bump R.PKT_ACL_DENIED s

/-- A packet reaches the router (R161): its TTL first. Whether one of another protocol is forwarded, the spec leaves open. -/
def routePacket (f : Frame) (sta : Option Nat) (s : State) : State :=
  if f.ttl ≤ 1 then icmpError f sta (bump R.PKT_TTL_EXPIRED s)
  else
    match protoCode f.proto with
    | some pc => if zoneOf s f.iface f.vlan = 1 then routeOut pc f sta s else routeIn pc f s
    | none =>
      let (v, s) := takeFree s
      if v % 2 = 0 then s
      else match usableRoute f sta s with
        | (some r, s) => followRoute f r s
        | (none, s) => s

/-! ### Classification (Table 7-3) -/

/-- An interface that the router serves: interface 32, or one with a local address. -/
def routedIface (s : State) (i : Nat) : Bool := i == 32 || s.pkt.laddrs.any fun a => a.2.iface == i

/-- An accepted frame goes to the first row of Table 7-3 that matches, from order 2 on. `sta` is the station that a frame of
interface 32 came from. -/
def classify (f : Frame) (sta : Option Nat) (s : State) : State :=
  let la := localAddr s f
  let ip := f.etherType == 0x0800 || f.etherType == 0x86DD
  let udp := ip && f.proto == 17
  let gate := f.iface == 32 && (la.map fun a => bit a.2.flags 6).getD false
  if f.iface < 32 ∧ f.etherType = 0x888E then toFlue (ethOf s (f.iface / 4)).eapol f.iface f.cells f.data s
  else if f.etherType = 0x88F7 ∨ (udp ∧ la.isSome ∧ (f.dstPort = 319 ∨ f.dstPort = 320)) then ptpReceive f.iface f.ptp s
  else if f.control ≠ 0 ∧ la.isSome then hearthFrame f sta s
  else if gate ∧ udp ∧ (f.dstPort = 67 ∨ f.dstPort = 547) then
    (match sta with
      | some i => dhcpServe f i (bump R.PKT_TO_HEARTH s)
      | none => bump R.PKT_TO_HEARTH s)
  else if gate ∧ ip ∧ f.dstPort = 53 then maybeAnswer f sta (bump R.PKT_TO_HEARTH s)
  else if udp ∧ la.isSome ∧ f.stun then
    answerTo f sta (bump R.PKT_TO_HEARTH (match mediaEntry s f with
      | some (_, fl) => if fl.kind = 1 then modLeg (u16 fl.bytes 24) (fun l => { l with rxPackets := satAdd 64 l.rxPackets 1 }) s else s
      | none => s))
  else
    match (if udp then mediaEntry s f else none) with
    | some (i, fl) => entryArrive i fl f (lookup (entryKey fl.bytes) s).2
    | none =>
      let s := if udp && la.isSome then bump R.PKT_LOOKUPS s else s
      if f.toRouter ∧ ip ∧ bit (rgRaw s R.PKT_CTRL) 0 ∧ routedIface s f.iface then routePacket f sta s
      else bump R.PKT_MISSES s

/-! ### The MAC (R149, R151) -/

/-- A frame that passed the MAC is checked by MACsec and classified; the CLEAR tap sees it where SRTP does not open it later. -/
def acceptFrame (f : Frame) (fl : Option (Nat × Flow)) (s : State) : State :=
  let e := ethOf s (f.iface / 4)
  let media := (fl.map fun x => decide (x.2.kind = 1 ∨ x.2.kind = 2 ∨ x.2.kind = 5)).getD false
  let onward := fun (opened : Bool) (s : State) => classify f none (if media then s else tapClear f fl opened false s)
  if bit e.pflags 3 then
    match f.macsec with
    | some m =>
      let r := macsecIn f.iface (f.length - 20) m s
      if r.1 then onward true r.2 else tapClear f fl false true r.2
    | none =>
      if bit e.pflags 4 ∧ f.etherType ≠ 0x888E then bump (ethCtr R.PKT_P_MACSEC_IN_UNTAGGED_DROP f.iface) s else onward false s
  else if f.macsec.isSome then bump R.PKT_MISSES (tapClear f none false false s)
  else onward false s

/-- ETH_FRAME_RECEIVE (R155). -/
def frameReceive (f : Frame) (s : State) : State :=
  let s := retryAll s
  let i := f.iface
  if ¬ ifaceUp s i then s
  else
    let fl := mediaEntry s f
    let good := f.fcsOk && f.fecOk
    let s := tap { rec_ := { kind := 0, point := 0, port := i, time := nowFrac s, flags := 2 * b2n (!good), origLen := f.data.length
                             payload := f.data, meta_ := flowMeta (fl.map Prod.fst) }
                   flow := fl.map Prod.fst, owner := (fl.map fun e => e.2.owner).getD 0 } s
    let s := bumpBy (ethCtr R.PKT_P_FEC_CORRECTED i) f.codewords s
    let s := if f.fecOk then s else bump (ethCtr R.PKT_P_FEC_UNCORRECTABLE i) s
    if ¬ good then bump (ethCtr R.PKT_P_RX_FCS_ERR i) s
    else if f.pause then bump (ethCtr R.PKT_P_RX_PAUSE_IGNORED i) s
    else if f.length < 64 ∨ (ethOf s (i / 4)).mtu < f.length then bump (ethCtr R.PKT_P_RX_LEN_ERR i) s
    else if 1 < f.tags then bump (ethCtr R.PKT_P_RX_VLAN_DROP i) s
    else if ¬ cellsFor s i f.cells then bufDrop i s
    else
      let s := bump (ethCtr R.PKT_P_RX_FRAMES i) (bumpBy (ethCtr R.PKT_P_RX_BYTES i) f.length s)
      acceptFrame f fl (trackMin R.PKT_BUF_MIN_FREE (bufFree s - f.cells) s)

/-- ETH_FRAME_RECEIVE (R155). -/
def execEthFrameReceive (f : Frame) (s : State) : Out := .next (frameReceive f s)

end Sys2Proof.Machine
end

