-- ==== Sys2Proof/Machine/Boot.lean ====
section
/-! DEFINITION. Machine/Boot.lean: kindling, from reset release or COLD exit to DEV_STATUS.READY (R84–R91, R125, R329, R379, R398,
R418, R419), and the supply check at its step 1. -/

namespace Sys2Proof.Machine

/-! ### Supplies (Table 18-2, R398) -/

/-- A voltage within `pct` per cent of the nominal. -/
def within (nominal pct mv : Nat) : Bool :=
  decide ((100 - pct) * nominal ≤ 100 * mv) && decide (100 * mv ≤ (100 + pct) * nominal)

/-- A monitored rail lies within its operating range (Table 18-2), by HLT_VMON index. -/
def railOk : (rail mv : Nat) → Bool
  | 0, mv => decide (585 ≤ mv) && decide (mv ≤ 930)
  | 1, mv => within 800 3 mv
  | 2, mv => within 750 3 mv
  | 3, mv => within 750 3 mv
  | 4, mv => within 1200 3 mv
  | 5, mv => within 500 3 mv
  | 6, mv => within 1050 3 mv
  | 7, mv => within 800 3 mv
  | 8, mv => within 1800 3 mv
  | 9, mv => within 800 3 mv
  | 10, mv => within 1200 3 mv
  | 11, mv => within 1800 3 mv
  | 12, mv => within 1800 5 mv
  | 13, mv => within 3300 5 mv
  | 14, mv => within 1800 5 mv || within 3300 5 mv
  | _, _ => true

/-- The reading of a monitor: nominal where the check does not list it. -/
def monitorOf (vmon : List (Nat × Nat)) (rail : Nat) : Option Nat := (vmon.find? fun e => e.1 == rail).map Prod.snd

/-- The lowest monitor out of range, with its voltage. -/
def badRail (vmon : List (Nat × Nat)) : Option (Nat × Nat) :=
  (List.range 15).findSome? fun r =>
    match monitorOf vmon r with
    | some mv => if railOk r mv then none else some (r, mv)
    | none => none

/-- HLT_VMON takes the readings. -/
def readMonitors (vmon : List (Nat × Nat)) (s : State) : State :=
  { s with health.vmon := vmon.foldl (fun t e => if e.1 < 15 then Tbl.put t e.1 e.2 else t) s.health.vmon }

/-- The check of R398: with a rail out of range the hold begins or goes on, ALARM_N low, SUPPLY_FAULT recorded once; with none the
hold ends. The entry does not set DEV_ALARM.FATAL (R77). -/
def supplyCheck (vmon : List (Nat × Nat)) (s : State) : State :=
  let s := readMonitors vmon s
  match badRail vmon with
  | some (r, mv) =>
    if s.boot.supplyLow then s
    else logBoot (mkEvent Ev.SUPPLY_FAULT 0 (leN r 1 ++ leN 0 1 ++ leN mv 2) s) { s with boot.supplyLow := true }
  | none => { s with boot.supplyLow := false, power.supplyOut := false }

/-- ALARM_N is low (R77). -/
def alarmLow (s : State) : Bool := s.boot.fatal || s.boot.supplyLow

/-- SUPPLY_RECHECK (R398): while boot step 1 is held the rails are checked every 100 ms; in COLD after a SUPPLY_FAULT the monitors tell
when wake events are taken again (R399). -/
def supplyRecheck (vmon : List (Nat × Nat)) (s : State) : State :=
  if s.boot.ready then s
  else if s.boot.supplyLow then supplyCheck vmon (tick (msCycles 100) s)
  else if s.power.state = .cold then
    let s := readMonitors vmon s
    { s with power.supplyOut := s.power.supplyOut && (badRail vmon).isSome }
  else s

/-- SUPPLY_RECHECK (R398). -/
def execSupplyRecheck (vmon : List (Nat × Nat)) (s : State) : Out := .next (supplyRecheck vmon s)

/-! ### Steps 1 to 6 -/

/-- Kindling runs, and with it DEV_HEARTBEAT. -/
def startBeat (s : State) : State :=
  { s with boot.beatFrom := match s.boot.beatFrom with
             | some t => some t
             | none => some s.clock.cycles }

/-- A generation that fails its CRC raises OTP_INTEGRITY (R94). -/
def checkGens (t : Nat) : List FuseGen → (gen : Nat) → State → State
  | [], _, s => s
  | g :: gs, n, s =>
    checkGens t gs (n + 1)
      (if g.ok then s else raise Ev.OTP_INTEGRITY 0 (leN t 1 ++ leN n 1 ++ leN 0 1) { s with boot.integrity := true })

/-- Step 2: the fuse store is sensed; the straps give the ports' privileges and MP's interrupt line (R63, Table 4-10). -/
def bootStep2 (s : State) : State :=
  let s := { s with boot.sensed := true, boot.version := s.boot.version.set 0 Config.kindlingVersion, boot.src := bootSrc s % 8
                    host.gpioIrq := bit (u8 (recPayload s 1) 2) 0 }
  let s := [0, 1, 2, 3].foldl (fun s p => modPort p (fun q => { q with priv := strapPriv s p }) s) s
  [1, 2, 3, 4, 5, 6, 7].foldl (fun s t => checkGens t (recGens s t) 0 s) s

/-- Step 3: the margin plan is made and VDD_CORE set to it; XO_IN is judged (R388, R419). -/
def bootStep3 (v : BootFacts) (s : State) : State :=
  let s := makePlan v.rates v.floorRate v.headroom s
  if v.xoOk then s else raise Ev.REFCLK_LOST 0 (leN v.xoCause 1) (refLost s)

/-- Step 4: the PCIe links train; HPI_PORT_STATUS shows it (Table 4-3). -/
def bootStep4 (links : List (Nat × Nat × Nat)) (s : State) : State :=
  links.foldl (fun s l => if 3 ≤ l.1 then s else modPort l.1 (fun q => { q with linkUp := true, lanes := l.2.1, gen := l.2.2 }) s) s

/-- Step 5: SRAM self-test; failing rows are spared (R122). -/
def bootStep5 (rows : List (Nat × Nat)) (s : State) : State :=
  rows.foldl (fun s r => if r.1 < 1536 ∧ r.2 < 256 then spareRow r.1 r.2 s else s) { s with boot.stage := 4 }

/-- The byte of the lane-map record that describes a channel's board wiring (R125). -/
def laneByte (s : State) (c : Nat) : Nat := u8 (recPayload s 2) (104 + c)

/-- Whether a setting is a window (R136). -/
def isWindow (e : Nat × Nat) : Bool := decide (20 ≤ e.1) && decide (20 ≤ e.2)

/-- The attempts of R137 at boot, `tries` of them made: first, last-known-good, then one per set point down to SP3. -/
def bootTries (c : Nat) : List (Nat × Nat) → (tries : Nat) → State → State
  | [], _, s => retireChannel c s
  | e :: es, tries, s =>
    let s := modChan c (fun x => { x with readEye := e.1, writeEye := e.2 }) s
    if isWindow e then modChan c (fun x => { x with state := .active, outcome := min 2 tries }) s
    else if tries = 0 then bootTries c es 1 s
    else if (chanOf s c).sp < 3 then
      bootTries c es (tries + 1)
        (changeSp c ((chanOf s c).sp + 1) 1 0 (modChan c (fun x => { x with spLimit := max x.spLimit (x.sp + 1) }) s))
    else retireChannel c s

/-- A channel trains at boot (R124, R125, R136): the recorded wiring is tried first, and what trains is used. -/
def trainBoot (c : Nat) (f : ChanFit) (temp : Int) (s : State) : State :=
  let b := laneByte s c
  let swap := f.swap.getD (bit b 0)
  let rev := f.rev.getD (bit b 1)
  bootTries c ((f.eyes ++ List.replicate 5 (0, 0)).take 5) 0
    (modChan c (fun _ =>
      { state := .training, gib := f.gib, ranks := f.ranks, temp, trainTemp := temp, byteSwap := swap, caRev := rev
        differs := swap != bit b 0 || rev != bit b 1 }) s)

/-- Step 6: every channel trains; after COLD its training values are loaded where the temperature has moved by less than TEMP_DELTA
(R379). -/
def bootStep6 (v : BootFacts) (s : State) : State :=
  allChans.foldl (fun s c =>
    let x := chanOf s c
    let kept := s.power.fromCold && x.readEye != 0 && x.state != .retired
    if kept ∧ |v.memTemp - x.trainTemp| < (rgBits s R.DMC_RETRAIN_CFG 15 8 : Int) then
      modChan c (fun x => { x with state := .active, temp := v.memTemp }) s
    else trainBoot c (((v.chans.find? fun e => e.1 == c).map Prod.snd).getD {}) v.memTemp s) s

/-! ### Steps 7 and 8: the images (R87, R88, R90) -/

/-- The cause R88 gives for a slot's image at boot. An image whose programming failed fails a check that its broken contents choose. -/
def bootCause (slot t : Nat) (s : State) : Nat × State :=
  let im := imageOf s (4 * slot + t)
  let k := imageCause s t im.bytes
  if im.state = .invalid ∧ k = 0 then
    let a := takeFree s
    (a.1 % 8 + 1, a.2)
  else (k, s)

/-- One image of a slot is checked; FW_VERIFY_FAIL where it fails. Answers whether it passed. -/
def bootImage (slot t : Nat) (s : State) : Bool × State :=
  let a := bootCause slot t s
  if a.1 = 0 then (true, a.2)
  else (false, raise Ev.FW_VERIFY_FAIL 0 (leN t 1 ++ leN slot 1 ++ leN a.1 1 ++ leN 0 1 ++ leN (imgVersion (imageOf s (4 * slot + t)).bytes) 4)
    (rejectImage a.1 a.2))

/-- Kindling checks all three images of a slot (R88). -/
def bootSlot (slot : Nat) (s : State) : Bool × State :=
  let a := bootImage slot 1 s
  let b := bootImage slot 2 a.2
  let c := bootImage slot 3 b.2
  (a.1 && b.1 && c.1, c.2)

/-- Kindling tries a slot: read, then checked. Answers 0 booted, 2 a check failed, 3 the flash read failed (FW_FALLBACK's reasons). -/
def trySlot (bad : List Nat) (slot : Nat) (s : State) : Nat × State :=
  let s := { s with boot.attempts := s.boot.attempts + 1 }
  if ¬ s.flash.present ∨ bad.contains slot then (3, s)
  else
    let a := bootSlot slot s
    (if a.1 then 0 else 2, a.2)

/-- FW_FALLBACK: a slot boots in place of another. -/
def fallback (booted abandoned reason : Nat) (s : State) : State :=
  raise Ev.FW_FALLBACK 0 (leN booted 1 ++ leN abandoned 1 ++ leN reason 1) (bump R.OTP_FALLBACKS { s with boot.fallback := true })

/-- The slot of the directory or the forced one is tried, then the other one (R83, R87). Answers the slot that boots. -/
def chooseSlot (bad : List Nat) (s : State) : Option Nat × State :=
  let d := activeDir s.flash
  let force := s.boot.force
  let fresh := decide (force = 0) && d.trial && !d.tried
  let unconfirmed := decide (force = 0) && d.trial && d.tried
  let first := if force = 1 ∨ force = 2 then force - 1 else if unconfirmed then 1 - d.preferred % 2 else d.preferred % 2
  let s := { s with boot.force := 0 }
  let s := if fresh then rewriteDir (fun d => { d with tried := true }) s else s
  let a := trySlot bad first s
  if a.1 = 0 then
    let s := { a.2 with boot.trialBoot := fresh }
    (some first, if unconfirmed then fallback first (1 - first) 1 s else s)
  else
    let b := trySlot bad (1 - first) a.2
    if b.1 = 0 then (some (1 - first), fallback (1 - first) first a.1 { b.2 with boot.trialBoot := unconfirmed }) else (none, b.2)

/-- The images of slot `k` (2: staging) have verified and run or await their start. -/
def takeImages (k : Nat) (s : State) : State :=
  let im := fun t => (imageOf s (4 * k + t)).bytes
  { s with boot := { s.boot with
      running := some k, version := [s.boot.version.getD 0 0, imgVersion (im 1), imgVersion (im 2), imgVersion (im 3)]
      svn := [0, imgSvn (im 1), imgSvn (im 2), imgSvn (im 3)], testedSet := Config.testedSet (imgPayload (im 1)) } }

/-- The combination that awaits its start is in its tested set (R90). -/
def combinationTested (s : State) : Bool := tupleTested s.boot.testedSet fun i => s.boot.version.getD i 0

/-! ### READY -/

/-- The rows of the regulatory table for the record in force, from the RADIO image of slot `k` (R329). -/
def limitsOf (s : State) (k : Nat) : List RegLimit :=
  match inForce s 7 with
  | none => []
  | some (_, rec) =>
    ((Config.regulatoryRows (imgPayload (imageOf s (4 * k + 3)).bytes) (rec.take 2) (u8 rec 2)).take 256).map fun w =>
      { centre := bits w 7 0, band := bits w 9 8, width := bits w 12 10, limit := signed 16 (bits w 31 16) }

/-- The regulatory table is loaded and sealed; with no RADIO image it is sealed with no rows (R329). -/
def sealTable (s : State) : State :=
  { s with radio.rows := (s.boot.running.map (limitsOf s)).getD [], radio.version := u8 (recPayload s 7) 2, radio.sealed_ := true }

/-- The seed of each way of the flow table is drawn (R156). -/
def drawSeeds (s : State) : State :=
  let a := takeFree s
  let b := takeFree a.2
  let c := takeFree b.2
  let d := takeFree c.2
  { d.2 with pkt.seeds := [a.1, b.1, c.1, d.1] }

/-- The rings of MP stand in the MP ring memory (Table 3-2). -/
def mpRings : RingDesc :=
  { set := 12, op := 1, sqSlots := 1024, rplSlots := 1024, evtSlots := 1024, sqBase := 0, rplBase := 0x10000, evtBase := 0x20000
    shadowBase := 0x28000 }

/-- DEV_STATUS.READY is set: the table is sealed, the MP ring set enabled and its boot log delivered (Table 3-2, R418). `ms` is the
time since RESET_N release. -/
def setReady (ms : Nat) (s : State) : State :=
  let s := drawSeeds (sealTable s)
  let s := setRg R.PKT_BUF_MIN_FREE (bufFree s) { s with boot.ready := true, boot.bootTime := ms, power.fromCold := false }
  deliverBootLog 12 (enableRing 12 mpRings s)

/-- READY in SAFE_HOLD (R85, R90). -/
def enterSafeHold (reason ms : Nat) (s : State) : State :=
  let v := fun i => if reason = 2 then s.boot.version.getD i 0 else 0
  setReady ms (raise Ev.SAFE_HOLD_ENTERED 0 (leN reason 2 ++ leN 0 2 ++ leN (v 1) 4 ++ leN (v 2) 4 ++ leN (v 3) 4)
    { s with boot.safeHold := true, boot.safeReason := reason })

/-- Steps 7 to 11 of a flash boot. -/
def bootImages (v : BootFacts) (ms : Nat) (s : State) : State :=
  let a := chooseSlot v.flashBad { s with boot.stage := 7 }
  match a.1 with
  | none => enterSafeHold (if a.2.boot.src = 0 then 1 else 3) ms a.2
  | some k =>
    let s := takeImages k a.2
    if combinationTested s then setReady ms { s with boot.stage := 9 } else enterSafeHold 2 ms s

/-- Steps 2 to 11. Where the regulator withholds PGOOD, kindling does not pass step 3. -/
def bootFrom2 (v : BootFacts) (s : State) : State :=
  let from_ := if s.power.fromCold then s.clock.cycles else 0
  let s := bootStep2 (tick (msCycles v.ms) s)
  if ¬ v.pgood then bump R.PWR_PMBUS_ERRORS s
  else
    let s := bootStep6 v (bootStep5 v.badRows (bootStep4 v.links (bootStep3 v s)))
    let ms := cyclesMs (s.clock.cycles - from_)
    if 2 ≤ s.boot.src then enterSafeHold 1 ms s else bootImages v ms s

/-! ### START and FW_ACCEPT_UNTESTED (R91, R93) -/

/-- Steps 9 to 11 after READY: the microcode is loaded, the table sealed with its rows, SAFE_HOLD clears and the command is answered. -/
def leaveHold' (rs : Nat) (tag : Word) (untested : Bool) (s : State) : State :=
  finishRunning rs tag St.OK 0 1 [] (sealTable { s with
    boot.stage := 9, boot.safeHold := false, boot.resume := none, boot.untested := s.boot.untested || untested })

/-- The first image of staging that fails a check now: its cause. -/
def stagedCause (s : State) : Option Nat :=
  [1, 2, 3].findSome? fun t =>
    let k := imageCause s t (imageOf s (8 + t)).bytes
    if k = 0 then none else some k

/-- Steps 8 to 11 of START on the staged images (R85). A combination that is not tested leaves the device in SAFE_HOLD, and what
START then answers the spec leaves open. -/
def resumeStart (rs : Nat) (tag : Word) (s : State) : State :=
  match stagedCause s with
  | some k => finishRunning rs tag St.IMAGE_REJECTED k 0 [] (rejectImage k { s with boot.resume := none })
  | none =>
    let s := takeImages 2 { s with boot.stage := 7 }
    if combinationTested s then leaveHold' rs tag false s
    else
      let v := fun i => s.boot.version.getD i 0
      finishRunning rs tag (Config.detail 0x1102 8) 0 0 []
        (raise Ev.SAFE_HOLD_ENTERED 0 (leN 2 2 ++ leN 0 2 ++ leN (v 1) 4 ++ leN (v 2) 4 ++ leN (v 3) 4)
          { s with boot.resume := none, boot.safeReason := 2 })

/-! ### KINDLING_BOOT (R84) -/

/-- On leaving COLD a rail that is not back is handled as in operation (R400). -/
def coldRails (vmon : List (Nat × Nat)) (s : State) : Option State :=
  match badRail vmon with
  | none => none
  | some (r, mv) =>
    some (if r = 0 ∨ r = 2 then fullReset 4 s
      else enterCold 3 0 (raise Ev.SUPPLY_FAULT 0 (leN r 1 ++ leN 0 1 ++ leN mv 2) { s with power.supplyOut := true }))

/-- KINDLING_BOOT (R84): the boot sequence from where kindling stands: from step 1 after a reset, held there while a rail is out of
range; from step 2 on leaving COLD; and the steps that a START or an FW_ACCEPT_UNTESTED asks for. -/
def kindlingBoot (v : BootFacts) (s : State) : State :=
  if s.power.state = .cold then s
  else
    match s.boot.resume with
    | some (rs, tag, true) => leaveHold' rs tag true (tick (msCycles v.ms) s)
    | some (rs, tag, false) => resumeStart rs tag (tick (msCycles v.ms) s)
    | none =>
      if s.boot.ready then s
      else if s.power.fromCold then
        let s := readMonitors v.vmon s
        match coldRails v.vmon s with
        | some s' => s'
        | none => bootFrom2 v (startBeat s)
      else
        let s := supplyCheck v.vmon (startBeat { s with boot.stage := 1 })
        if s.boot.supplyLow then s else bootFrom2 v s

/-- KINDLING_BOOT (R84). -/
def execKindlingBoot (v : BootFacts) (s : State) : Out := .next (kindlingBoot v s)

end Sys2Proof.Machine
end

