-- ==== Sys2Proof/Machine/Cipher.lean ====
section
/-! DEFINITION. Machine/Cipher.lean: the key and MACsec commands and the pipes' operations (R154, R167–R176). -/

namespace Sys2Proof.Machine

/-- CIPHER_OPERATION (R169): one operation on a slot, transmit or receive as the slot was written. -/
def cipherOperation (o : CipherOp) (s : State) : State :=
  if (keyOf s o.slot).rx then (cipherReceive o.slot o.bytes o.index o.authNew o.authOld o.lingers s).2
  else (cipherSend o.slot o.bytes o.rtcp o.lingers s).2

/-- CIPHER_OPERATION (R169). -/
def execCipherOperation (o : CipherOp) (s : State) : Out := .next (cipherOperation o s)

/-- KEY_GENERATION_ZEROISE (R169); a closing leg that waited for it goes on (R14). -/
def execKeyGenerationZeroise (slot gen : Nat) (s : State) : Out :=
  .next (ownerAdvance (keyOf s slot).owner (generationDrained slot gen s))

/-- KEY_HOLD_END (R170). -/
def keyHoldEnd (slot : Nat) (s : State) : State :=
  match (keyOf s slot).held with
  | some (_, _, due) => dropHeld slot (tickTo due s)
  | none => s

/-- KEY_HOLD_END (R170). -/
def execKeyHoldEnd (slot : Nat) (s : State) : Out := .next (keyHoldEnd slot s)

/-- Whether a suite is one that the owner named uses (Table 7-6, R176): legs, stations, and the device for MACsec and group
management. An owner of another class is left to the OWNER check. -/
def suiteOwner (suite : Nat) (owner : Word) : Bool :=
  if hCls owner = 0x02 then isSrtp suite
  else if hCls owner = 0x0C then decide (6 ≤ suite)
  else if owner = devH then suite == 5 || decide (8 ≤ suite)
  else true

/-- The key after a KEY_WRITE (Table 7-8, Table 7-14, R170). -/
def writtenKey (x : Key) (p : List Byte) (now : Nat) : Key :=
  let keep := bit (u8 p 1) 1
  let suite := u8 p 0
  let hold := u16 p 2
  let gen := (x.gen + 1) % 256
  { x with
    suite, gen, rx := bit (u8 p 1) 0, written := true, owner := BitVec.ofNat 32 (u32 p 4)
    counter := if keep then x.counter else u64 p 8
    counter2 := if keep then x.counter2 else u32 p 16
    material := slice p 24 48
    left := if x.written ∧ Tbl.has x.inflight x.gen then x.left ++ [x.gen] else x.left
    held := if x.written ∧ hold ≠ 0 then some (x.gen, x.material, now + msCycles hold) else none
    win := if keep then x.win else 0
    fresh := true, warned := false, spent := false }

/-- KEY_WRITE (R167, R169–R171, R176, Table 7-14). -/
def keyWritePlan (c : Cmd) (s : State) : Plan :=
  let p := c.params
  let k := hIdx c.handle
  let x := keyOf s k
  let suite := u8 p 0
  let fl := u8 p 1
  let hold := u16 p 2
  let owner : Word := BitVec.ofNat 32 (u32 p 4)
  let reserved := Tbl.has s.keys k
  let leg := (Tbl.get? s.legs (hIdx owner)).getD {}
  let owned := (s.keys.filter (fun e => e.2.owner == owner)).length
  { op := 0x0B01, handleOk := hCls c.handle == 0x0B && decide (k < 65536), touches := [c.handle, owner], exempt := true, len := some 72
    state := if bit fl 1 ∧ x.written ∧ x.counter > counterLimit x.suite then some ⟨St.NONCE_EXHAUSTED, 0⟩ else none
    param := firstBad
      [ (decide (1 ≤ suite) && decide (suite ≤ 9) && suiteOwner suite owner, badParam 0), (decide (fl < 4), badParam 1)
      , (decide (hold ≤ 2000) && (hold == 0 || (bit fl 0 && isSrtp suite)), badParam 2)
      , (handleIn s [0x02, 0x0C] owner || owner == devH, badParam 4)
      , (!reserved || x.owner == owner, ⟨St.KEY_OWNER_MISMATCH, hCls x.owner⟩) ]
    res := if reserved then none
      else if hCls owner = 2 then (if legKeys leg ≤ owned then some (noResource 6) else none)
      else if 65536 ≤ keysDrawn s then some (noResource 6) else none
    run := fun s =>
      let new := writtenKey x p s.clock.cycles
      let zeroed := b2n (x.written && !Tbl.has x.inflight x.gen && new.held.isNone) + b2n x.held.isSome
      let s := bumpBy R.CIP_ZEROISED zeroed { s with keys := Tbl.put s.keys k new }
      .okWith (reinstalled 0x0B owner (some c.handle) s) (leN new.gen 1 ++ leN 0 7) }

/-- KEY_WRITE (R169). -/
def execKeyWrite (c : Cmd) (s : State) : Out := .next (hostCmd 0x0B01 keyWritePlan c s)

/-- KEY_ERASE (R169, Table 7-8). -/
def keyErasePlan (c : Cmd) (s : State) : Plan :=
  let k := hIdx c.handle
  { op := 0x0B02, handleOk := handleIn s [0x0B] c.handle, touches := [c.handle], exempt := true
    state := if u8 c.params 0 = 0 ∧ (keyOf s k).eraser.isSome then some (wrongState (Config.detail 0x0B02 0)) else none
    param := firstBad [(decide (u8 c.params 0 ≤ 1), badParam 0)]
    run := fun s =>
      let x := keyOf s k
      let s := reinstalled 0x0B x.owner (some c.handle) s
      if u8 c.params 0 = 1 then
        let s := bumpBy R.CIP_KEY_REVOKED x.flying (modKey k (fun x => { x with inflight := [] }) s)
        match x.eraser with
        | some (rs, tag) => .ok (finishRunning rs tag St.OK 0 1 [] (zeroiseSlot k s))
        | none => .ok (zeroiseSlot k s)
      else if x.flying = 0 then .ok (zeroiseSlot k s)
      else .defer (eraseSlot k (c.rs, c.tag) s) }

/-- KEY_ERASE (R169). -/
def execKeyErase (c : Cmd) (s : State) : Out := .next (hostCmd 0x0B02 keyErasePlan c s)

/-- CIP_W_META (Table 7-18). -/
def keyMeta (x : Key) : Nat :=
  x.suite + 256 * x.gen + 65536 * b2n x.rx + 131072 * b2n x.written + 262144 * b2n x.eraser.isSome + 524288 * b2n x.held.isSome

/-- KEY_QUERY: the CIP_W_* values of the slot; its parameter length is not given (notes/assumptions/12.md). -/
def keyQueryPlan (c : Cmd) (_ : State) : Plan :=
  { Plan.query 0x0B03 false (hCls c.handle == 0x0B && decide (hIdx c.handle < 65536)) 0 none fun s =>
      let x := keyOf s (hIdx c.handle)
      recordAnswer (leN (keyMeta x) 4 ++ leN x.owner.toNat 4 ++ leN x.counter 8 ++ leN x.counter2 4
        ++ leN (min 65535 x.flying) 4 ++ leN x.uses 8 ++ leN x.authFail 8 ++ leN x.replay 8)
    with len := none }

/-- KEY_QUERY (R169). -/
def execKeyQuery (c : Cmd) (s : State) : Out := .next (hostCmd 0x0B03 keyQueryPlan c s)

/-- The SecY of a sub-port. -/
def secyOf (s : State) (i : Nat) : SecY := Tbl.getD s.pkt.secys i {}

/-- MACSEC_SA_SET (R154, Table 7-15). An association is removed from the transmit channel where SCI is its, else
from the receive channel of that SCI. -/
def macsecSaPlan (c : Cmd) (s : State) : Plan :=
  let p := c.params
  let op := u8 p 0
  let i := u8 p 1
  let an := u8 p 2
  let key := u32 p 4 % 16777216
  let sci := u64 p 8
  let y := secyOf s i
  let keyOk := paramHandle s [0x0B] (u32 p 4) && (keyOf s key).suite == 5
  let isTx := decide (y.txSci = sci ∧ y.tx ≠ [])
  let there := if isTx then Tbl.has y.tx an else ((Tbl.get? y.rx sci).map (fun r => Tbl.has r an)).getD false
  { op := 0x0B04, handleOk := handleDev c.handle, touches := [devH], len := some 24
    param := firstBad
      [ (decide (1 ≤ op) && decide (op ≤ 3), badParam 0), (decide (i < 32), badParam 1), (decide (an < 4), badParam 2)
      , (decide (u8 p 3 < 4), badParam 3), (op == 3 || keyOk, badParam 4), (op != 3 || there, badParam 8)
      , (decide (u32 p 16 ≤ 2 ^ 30), badParam 16) ]
    res := if op = 2 ∧ ¬ Tbl.has y.rx sci ∧ 16 ≤ y.rx.length then some (noResource 0x40) else none
    run := fun s =>
      let put := fun (y : SecY) => Done.ok { s with pkt.secys := Tbl.put s.pkt.secys i y }
      match op with
      | 1 =>
        let tx := Tbl.put (if y.txSci = sci then y.tx else []) an { key }
        put { y with txSci := sci, tx, txAn := if bit (u8 p 3) 0 then some an else if y.txSci = sci then y.txAn else none }
      | 2 => put { y with rx := Tbl.upd y.rx sci [] (fun r => Tbl.put r an { key, protect := bit (u8 p 3) 1, window := u32 p 16 }) }
      | _ =>
        if isTx then put { y with tx := Tbl.del y.tx an, txAn := if y.txAn = some an then none else y.txAn }
        else
          let r := Tbl.del ((Tbl.get? y.rx sci).getD []) an
          put { y with rx := if r = [] then Tbl.del y.rx sci else Tbl.put y.rx sci r } }

/-- MACSEC_SA_SET (R154). -/
def execMacsecSaSet (c : Cmd) (s : State) : Out := .next (hostCmd 0x0B04 macsecSaPlan c s)

/-- A VDE_E_STATUS-like word: state, self-test failed, junction open (notes/assumptions/11.md). -/
def engineWord (s : State) (sub e : Nat) : Nat :=
  let x := engineOf s sub e
  (match x.state with | .inService => 0 | .spare => 1 | .retired => 2) + 4 * b2n x.failed
    + 256 * (Config.detail (0x10000 + sub) e % 256)

/-- CIP_STATUS. -/
def cipStatus (s : State) : Nat := (enginesIn s 9 .inService).length + 256 * (enginesIn s 9 .retired).length

/-- CIP_QUERY: CIP_STATUS, and CIP_P_STATUS and CIP_P_LOAD of each pipe; the measured loads are free values; its
parameter length is not given (notes/assumptions/12.md). -/
def cipQueryPlan (c : Cmd) (_ : State) : Plan :=
  { op := 0x0B05, priv := 0, handleOk := handleDev c.handle, len := none
    run := fun s =>
      let r := (List.range 50).foldl (fun (a : List Byte × State) p =>
        let v := takeFree a.2
        (a.1 ++ leN (engineWord s 9 p) 4 ++ leN (v.1 % 65536) 4, v.2)) (leN (cipStatus s) 4, s)
      .okWith r.2 r.1 }

/-- CIP_QUERY (R174). -/
def execCipQuery (c : Cmd) (s : State) : Out := .next (hostCmd 0x0B05 cipQueryPlan c s)

end Sys2Proof.Machine
end

