-- ==== Sys2Proof/Machine/Links.lean ====
section
/-! DEFINITION. Machine/Links.lean: the events that several units take: an Ethernet link's change (R150, R152, R346, R357) and an edge
on TRIG_IN (R237, R369, R383). -/

namespace Sys2Proof.Machine

/-- ETH_LINK (R150, R152): the packet engine takes it; a SyncE output follows its sub-port (R357), and the time domains bound to a
sub-port that goes down lose their messages (R346). -/
def linkChange (iface : Nat) (up : Bool) (cause lanes : Nat) (s : State) : State :=
  let s := synceFollow (ethLink iface up cause lanes ((inForce s 2).map Prod.snd) s)
  if up then s else domainsLose iface 3 s

/-- ETH_LINK (R152). -/
def execEthLink (iface : Nat) (up : Bool) (cause lanes : Nat) (s : State) : Out := .next (linkChange iface up cause lanes s)

/-- TRIG_IN_EDGE (R237, R369, R383): one edge serves an audio-port arm, any number of capture sessions, and a wake source. `edge` is
0 rising, 1 falling. -/
def trigEdge (input edge : Nat) (s : State) : State :=
  if 4 ≤ input ∨ 2 ≤ edge then s
  else
    let s := aspTrigIn input edge s
    let hit := fun (x : Session) => decide (x.trigger.source = 2) && x.trigger.input == input && bit x.trigger.tflags 0 == (edge == 1)
    let s := (s.cap.sessions.filter fun e => hit e.2).foldl (fun s e => capTrigger e.1 (nowNs s) 0 s) s
    if bit s.power.armEdges input = (edge == 1) then wakeSource (2 + input) s else s

/-- TRIG_IN_EDGE (R237). -/
def execTrigInEdge (input edge : Nat) (s : State) : Out := .next (trigEdge input edge s)

end Sys2Proof.Machine
end

