-- ==== Sys2Proof/Machine/RadioWake.lean ====
section
/-! DEFINITION. Machine/RadioWake.lean: RADIO_QUERY and the wake receiver (R342). -/

namespace Sys2Proof.Machine

/-- RADIO_QUERY (Tables 14-13 to 14-16): on a radio its block and those of its four chains, on W the wake block. The bias current
is a measurement. -/
def radioQueryPlan (c : Cmd) (s : State) : Plan :=
  let r := hIdx c.handle
  { op := 0x0D06, priv := 0, handleOk := handleIn s [0x0D] c.handle
    run := fun s =>
      if r = 3 then .reply s St.OK 0 1 ((List.range 32).flatMap fun n => leN (wakeWord s (bit s.power.sources 1) n) 4)
      else
        let (v, s) := takeFree s
        let chain := fun c => (List.range 8).flatMap fun n => leN (if n = 3 then v / 256 ^ (c % 4) % 256 else chainWord s c n) 4
        .reply s St.OK 0 1 (((List.range 64).flatMap fun n => leN (radioWord s r n) 4) ++ (chainsOfRadio r).flatMap chain) }

def execRadioQuery (c : Cmd) (s : State) : Out := .next (hostCmd 0x0D06 radioQueryPlan c s)

/-- WUR_FRAME_ACCEPT (R342): a wake-up frame with its FCS and address field reaches W. -/
def wurFrame (fcsOk : Bool) (id : Nat) (rssi : Int) (s : State) : State :=
  let w := s.radio.wake
  if ¬ w.listen ∨ wakeBlanked s ∨ ¬ fcsOk then s
  else
    let s := bump R.RAD_W_FRAMES s
    if id ≠ w.id then s
    else
      let s := bump R.RAD_W_MATCHED { s with radio.wake.lastAt := nowShort s, radio.wake.rssi := rssi }
      let s := if s.power.state = .ember ∧ bit s.power.armed 1 then bump R.RAD_W_WAKES s else s
      wakeSource 1 s

def execWurFrameAccept (fcsOk : Bool) (id : Nat) (rssi : Int) (s : State) : Out := .next (wurFrame fcsOk id rssi s)

end Sys2Proof.Machine
end

