-- ==== Sys2Proof/Machine/Sram.lean ====
section
/-! DEFINITION. Machine/Sram.lean: SRAM accesses, scrubbing, bank moves and the debug window (R119–R123). -/

namespace Sys2Proof.Machine

/-- A word of SRAM as stored. -/
def sramWord (s : State) (b offset : Nat) : Nat :=
  uN (Memory.readN s.sram.cells (131072 * b + offset / 8 * 8) 8) 0 8

/-- SRAM_WORD_ACCESS (R120): `badBits` bits of the stored word are found wrong by a read. A write stores
the whole word and ends its poison; a read of a poisoned word gives an error completion, shown as no
data. -/
def sramAccess (b offset : Nat) (write : Option DWord) (badBits : Nat) (s : State) : State :=
  let o := offset / 8 * 8
  let a := 131072 * b + o
  if 1536 ≤ b ∨ 131072 ≤ offset then s
  else
    match write with
    | some w =>
      { s with sram.cells := Memory.writeN s.sram.cells a (leN w.toNat 8)
               sram.poison := s.sram.poison.filter (· != a) }
    | none =>
      if s.sram.poison.contains a then emit (.signal 0x06 b (-1)) s
      else if 2 ≤ badBits then emit (.signal 0x06 b (-1)) (poisonWord b o s)
      else emit (.readData (sramWord s b o)) (correctRow b (o / 512) badBits s)

/-- SRAM_WORD_ACCESS (R120). -/
def execSramWordAccess (bank offset : Nat) (write : Option DWord) (badBits : Nat) (s : State) : Out :=
  .next (sramAccess bank offset write badBits s)

/-- SRAM_SCRUB (R121): one row is read and corrected; the last row of the last bank ends a pass. -/
def sramScrub (b row corrected : Nat) (ue : Option Nat) (s : State) : State :=
  if 1536 ≤ b ∨ 256 ≤ row ∨ ¬ bit (rgRaw s R.MEM_CTRL) 8 then s
  else
    let s := correctRow b row corrected s
    let s := match ue with
      | some o => poisonWord b (512 * row + o % 512) s
      | none => s
    if b = 1535 ∧ row = 255 then bump R.MEM_SCRUB_PASSES { s with sram.scrubNext := 0 }
    else { s with sram.scrubNext := 256 * b + row + 1 }

/-- SRAM_SCRUB (R121). -/
def execSramScrub (bank row corrected : Nat) (uncorrectable : Option Nat) (s : State) : Out :=
  .next (sramScrub bank row corrected uncorrectable s)

/-! ### MEM_POOL_ASSIGN (R119) -/

/-- Banks of a pooled partition that hold no live contents: of the flue items those that no flue bank
has reserved, eight at a time; of the packet buffer those without cells in use. -/
def emptyBanks (s : State) (p : Nat) : Nat :=
  match p with
  | 5 => 8 * (((List.range 8).map (fun b => bankFree s b / 4096)).foldl min 192)
  | 2 => partBanks s 2 - (rxCellsAll s + egressCells s + 511) / 512
  | 7 => partBanks s 7 - Config.liveBanks 7 s.audio.buses.length
  | 8 => partBanks s 8 - Config.liveBanks 8 s.wlan.stas.length
  | 9 => partBanks s 9 - Config.liveBanks 9 s.cap.sessions.length
  | _ => partBanks s p

/-- The lowest-numbered banks of a partition, at most `n` (notes/assumptions/15.md). -/
def banksOf (s : State) (p n : Nat) : List Nat :=
  ((List.range 1536).filter (fun b => partOf s b == p)).take n

/-- A bank moves to a partition. -/
def moveBank (dst : Nat) (s : State) (b : Nat) : State :=
  { s with sram.part := if partAtReset b = dst then Tbl.del s.sram.part b else Tbl.put s.sram.part b dst }

/-- MEM_POOL_ASSIGN (R119, Table 6-5). -/
def memPoolAssignPlan (c : Cmd) (s : State) : Plan :=
  let from_ := u8 c.params 0
  let dst := u8 c.params 1
  let n := u16 c.params 2
  { op := 0x1201, priv := 2, handleOk := handleDev c.handle, touches := [devH]
    param := firstBad
      [ (pooled from_, badParam 0), (pooled dst, badParam 1)
      , (decide (1 ≤ n) && decide (n ≤ 1536) && n % partStep from_ == 0 && n % partStep dst == 0, badParam 2)
      , (decide (n + partMin from_ ≤ partBanks s from_), badParam 2) ]
    res := if emptyBanks s from_ < n then some (noResource 0x30) else none
    run := fun s =>
      let s := (banksOf s from_ n).foldl (moveBank dst) s
      .reply s St.OK 0 n (leN (partBanks s from_) 2 ++ leN (partBanks s dst) 2 ++ leN 0 4) }

/-- MEM_POOL_ASSIGN (R119). -/
def execMemPoolAssign (c : Cmd) (s : State) : Out := .next (hostCmd 0x1201 memPoolAssignPlan c s)

/-- DBG_WINDOW_SET (R123). -/
def dbgWindowPlan (c : Cmd) (s : State) : Plan :=
  let b := u16 c.params 0
  { op := 0x1209, priv := 2, handleOk := handleDev c.handle, touches := [devH]
    param := firstBad [(decide (b ≤ 512), badParam 0)]
    res := if policyBit s 1 then none else some ⟨St.POLICY_FORBIDS, 1⟩
    run := fun s => .ok { s with sram.dbgBase := b, sram.dbgOpen := true } }

/-- DBG_WINDOW_SET (R123). -/
def execDbgWindowSet (c : Cmd) (s : State) : Out := .next (hostCmd 0x1209 dbgWindowPlan c s)

/-- What the debug window shows at a byte offset: zero unless policy allows it, and for banks of the
key-slot partition and LOST banks (R123). -/
def debugRead (s : State) (offset : Nat) : Nat :=
  let b := s.sram.dbgBase + offset / 131072
  if ¬ policyBit s 1 ∨ ¬ s.sram.dbgOpen ∨ 1536 ≤ b ∨ partOf s b = 1 ∨ s.sram.lostBanks.contains b then 0
  else uN (Memory.readN s.sram.cells (131072 * b + offset % 131072) 4) 0 4

end Sys2Proof.Machine
end

