-- ==== Sys2Proof/Machine/Views1.lean ====
section
/-! DEFINITION. Machine/Views1.lean: what the read-only registers of DEV, HPI, FAB, FLU, DSX, MEM and DMC show
(Tables 2-6, 2-8, 3-16, 3-17, 5-6, 5-7, 6-8 to 6-10). A view gives the whole register, 64 bits where it has two words: by the
offset of its row, the instance, what its window selects, and `m`, a value measured at the read (notes/assumptions/3.md).
None: the register is stored. -/

namespace Sys2Proof.Machine

/-- Two fields side by side: `hi` from bit `n` on. -/
def at_ (n v : Nat) : Nat := v * 2 ^ n

/-- DEV (Table 3-16). -/
def viewDEV (s : State) (b _i _sel _m : Nat) : Option Nat :=
  match b with
  | 0x0 /- DEV_IDENT -/ => some (0x96482100 + at_ 4 s.fuses.grade)
  | 0x4 /- DEV_STATUS -/ => some (b2n s.boot.ready + at_ 1 (b2n s.boot.safeHold) + at_ 2 (b2n s.boot.untested) + at_ 3 (b2n s.boot.degraded)
      + at_ 4 (b2n s.boot.emberExit))
  | 0x8 /- DEV_ALARM -/ => some (b2n s.boot.fatal)
  | 0xC /- DEV_SAFE_REASON -/ => some (if s.boot.safeHold then s.boot.safeReason else 0)
  | 0x1C /- DEV_OUTSTANDING -/ => some s.host.cmds.length
  | 0x20 /- DEV_TIME -/ => some (nowShort s).toNat
  | 0x30 /- DEV_UPTIME -/ => some (cyclesMs s.clock.cycles)
  | 0x38 /- DEV_LEASES -/ => some s.host.leases.length
  | 0x3C /- DEV_TIMED_PENDING -/ => some (timedPending s)
  | 0x40 /- DEV_DB_SETUP -/ => some 0
  | 0x44 /- DEV_DB_SETUP_HI -/ => some 0
  | 0x60 /- DEV_HEARTBEAT -/ => some (s.boot.beat + ((s.boot.beatFrom.map fun t => cyclesMs (s.clock.cycles - t)).getD 0))
  | 0x100 /- DEV_DB_SQ_TAIL -/ => some 0
  | 0x104 /- DEV_DB_RPL_HEAD -/ => some 0
  | 0x108 /- DEV_DB_EVT_HEAD -/ => some 0
  | _ => none

/-- HPI_RS_STATUS[1:0]. -/
def RingPhase.code : RingPhase → Nat
  | .disabled => 0 | .enabled => 1 | .error => 2 | .draining => 3

/-- HPI (Table 3-17). -/
def viewHPI (s : State) (b i _sel _m : Nat) : Option Nat :=
  let r := ringOf s i
  match b with
  | 0x800000 /- HPI_PORT_STATUS -/ =>
    let p := portSt s i
    some (at_ 9 p.priv + (if i = 3 then 1 else b2n p.linkUp + at_ 1 p.lanes + at_ 6 p.gen))
  | 0x800004 /- HPI_PORT_LEASES -/ => some (s.host.leases.filter fun l => l.2.port == i).length
  | 0x800080 /- HPI_LIMITS -/ => some 0x40000400
  | 0x800084 /- HPI_MP_CONFIG -/ => some (b2n s.host.gpioIrq)
  | 0x800100 /- HPI_RS_STATUS -/ => some (r.phase.code + at_ 8 r.err)
  | 0x800104 /- HPI_RS_ERR_SLOT -/ => some r.errSlot
  | 0x800108 /- HPI_RS_SIZES -/ => some (Nat.log2 r.sqSlots + at_ 8 (Nat.log2 r.rplSlots) + at_ 16 (Nat.log2 r.evtSlots))
  | 0x80010C /- HPI_RS_SQ_HEAD -/ => some r.sqHead
  | 0x800110 /- HPI_RS_RPL_TAIL -/ => some r.rplTail
  | 0x800114 /- HPI_RS_EVT_TAIL -/ => some r.evtTail
  | 0x80012C /- HPI_RS_OUTSTANDING -/ => some (outstanding s i)
  | _ => none

/-- The port of the dimension-ordered route (R34): along the row, then along the column. -/
def xyPort (n d : Nat) : Nat :=
  if n % 16 < d % 16 then 1 else if d % 16 < n % 16 then 3 else if n < d then 2 else 0

/-- Whether the dimension-ordered route from a junction crosses a lost connection. -/
def routeLost (s : State) (d : Nat) : Nat → Nat → Bool
  | 0, _ => false
  | fuel + 1, n =>
    if n = d then false
    else connLost s n (xyPort n d) || (match neighbour n (xyPort n d) with | some k => routeLost s d fuel k | none => false)

/-- A route-table entry (FAB_ROUTE_ENTRY): the output port, a detour (R41), or the endpoint. -/
def routeEntry (s : State) (n dest : Nat) : Nat :=
  let d := servedBy s dest
  if n = d then 8
  else if s.fab.detours && routeLost s d 32 n then Config.detourPort n d % 4 + 4
  else xyPort n d

/-- FAB_JN_STATUS (Table 2-8). -/
def jnStatus (s : State) (n load : Nat) : Nat :=
  let f := s.fab
  let damped := ([0, 1, 2, 3].map fun v => if Tbl.has f.dampers (4 * n + v) then 2 ^ v else 0).foldl (· + ·) 0
  load % 256 + at_ 8 (ownerOf n) + at_ 16 damped + at_ 20 (Tbl.getD f.retired n 0)
    + at_ 29 (b2n (f.rehomed.any fun e => e.2 == n)) + at_ 30 (b2n (Tbl.has f.rehomed n)) + at_ 31 (b2n (f.failed.contains n))

/-- FAB (Tables 2-6 and 2-8). -/
def viewFAB (s : State) (b i sel m : Nat) : Option Nat :=
  match b with
  | 0xC00004 /- FAB_STATUS -/ => some (b2n (s.fab.retired.any fun e => e.2 != 0) + at_ 1 (b2n (s.fab.failed != [])) + at_ 2 (b2n s.fab.detours)
      + at_ 3 (b2n (s.fab.cut != [])))
  | 0xC0001C /- FAB_LINK_RATE -/ => some (m % 2 ^ 32)
  | 0xC00020 /- FAB_JN_FLITS_VC -/ => some m
  | 0xC00068 /- FAB_JN_DETOUR -/ => some m
  | 0xC000AC /- FAB_ROUTE_ENTRY -/ => some (routeEntry s (bits sel 7 0) (bits sel 15 8))
  | 0xC01000 /- FAB_JN_STATUS -/ => some (jnStatus s i m)
  | _ => none

/-- FLU_W_CONFIG[17:16]. -/
def FluePhase.code : FluePhase → Nat
  | .active => 1 | .resetting => 2 | .deleting => 3

/-- The flues in use of a bank: the 4,096 system flues lie in bank 0. -/
def bankFlues (s : State) (b : Nat) : Nat :=
  (if b = 0 then 4096 else 0) + (s.flues.filter fun e => decide (4096 ≤ e.1) && bankOf e.1 == b).length

/-- FLU (Table 5-6). -/
def viewFLU (s : State) (b i sel m : Nat) : Option Nat :=
  let f := flueOf s sel
  let two := fun (v : Nat) => v + at_ 16 v
  match b with
  | 0x1000004 /- FLU_STATUS -/ => some ((List.range 8).foldl (fun n k =>
      n + if s.flues.any (fun e => bankOf e.1 == k && e.2.phase == .resetting) then 2 ^ k else 0) 0)
  | 0x1000010 /- FLU_ACTIVE -/ => some (((List.range 8).map (bankFlues s)).foldl (· + ·) 0)
  | 0x1000100 /- FLU_BANK_FREE -/ => some (bankFree s i)
  | 0x1000104 /- FLU_BANK_FLUES -/ => some (bankFlues s i)
  | 0x1000108 /- FLU_BANK_DAMPED -/ => some (s.flues.filter fun e => bankOf e.1 == i && e.2.damped).length
  | 0x100010C /- FLU_BANK_LOAD -/ => some (m % 256)
  | 0x1000300 /- FLU_W_CONFIG -/ => some ((f.map fun f => f.depthLog + at_ 4 f.vc + at_ 6 (b2n f.retain) + at_ 8 f.ct + at_ 16 f.phase.code).getD 0)
  | 0x1000304 /- FLU_W_WM -/ => some ((f.map fun f => f.high + at_ 16 f.low).getD 0)
  | 0x1000308 /- FLU_W_HEAD -/ => some ((f.map fun f => two f.head).getD 0)
  | 0x100030C /- FLU_W_READ -/ => some ((f.map fun f => two f.read).getD 0)
  | 0x1000310 /- FLU_W_TAIL -/ => some ((f.map fun f => two f.tail).getD 0)
  | 0x1000314 /- FLU_W_STATUS -/ => some ((f.map fun f =>
      b2n f.damped + at_ 1 (b2n f.opener.isSome) + at_ 4 (min 7 f.producers.length) + at_ 16 f.occ).getD 0)
  | _ => none

/-- Bits of the groves whose spare core is in service. -/
def spareBits (s : State) : Nat :=
  (List.range 16).foldl (fun n g => n + if (engineOf s 0x0C (17 * g + 16)).state = .inService then 2 ^ g else 0) 0

/-- DSX (Table 5-7). -/
def viewDSX (s : State) (b i sel m : Nat) : Option Nat :=
  let c := coreOf s sel
  match b with
  | 0x1400004 /- DSX_STATUS -/ => some (spareBits s)
  | 0x1400010 /- DSX_TASKS -/ => some (s.dsp.tasks.filter fun t => t.2.placed).length
  | 0x1400100 /- DSX_GRV_READY -/ => some (groveDepth s i)
  | 0x1400104 /- DSX_GRV_LOAD -/ => some (m % 65536)
  | 0x1400200 /- DSX_C_STATUS -/ => some (c.ready.length + at_ 8 (b2n c.task.isSome)
      + at_ 9 ((c.task.bind (taskOf s)).map Task.level |>.getD 0) + at_ 12 (b2n ((engineOf s 0x0C sel).state == .retired)))
  | 0x1400208 /- DSX_C_LOAD -/ => some (m % 65536)
  | 0x140020C /- DSX_C_TASKS -/ => some (coreTasks s sel)
  | 0x140022C /- DSX_C_HIST_CLEAR -/ => some 0
  | _ => none

/-- MEM (Table 6-8). -/
def viewMEM (s : State) (b i sel m : Nat) : Option Nat :=
  let x := s.sram
  match b with
  | 0x1800004 /- MEM_STATUS -/ => some (b2n (x.scrubNext != 0) + at_ 1 (b2n x.ueSeen) + at_ 2 (b2n (x.lostBanks != [])))
  | 0x1800010 /- MEM_W_BANK -/ => some (partOf s sel + at_ 4 (b2n (x.lostBanks.contains sel)) + at_ 5 (b2n (pooled (partOf s sel)))
      + at_ 8 (Tbl.getD x.spares sel 0) + at_ 16 (groupOf sel))
  | 0x1800014 /- MEM_DBG_BASE -/ => some (x.dbgBase + at_ 31 (b2n x.dbgOpen))
  | 0x1800040 /- MEM_PART_BANKS -/ => some (partBanks s i)
  | 0x1800068 /- MEM_POOL_FREE -/ => some (partBanks s 15)
  | 0x1800100 /- MEM_G_STATUS -/ => some (b2n (s.power.state == .ember) + at_ 1 (b2n (x.scrubNext != 0 && x.scrubNext / 256 / 64 == i))
      + at_ 2 (x.lostBanks.filter fun k => groupOf k == i).length)
  | 0x1800108 /- MEM_G_SPARES -/ => some (groupSpares s i)
  | 0x180010C /- MEM_G_LOAD -/ => some (m % 256)
  | _ => none

/-- DMC_CH_STATUS[2:0]: a channel is in self-refresh in EMBER (R135) and training during a retrain. -/
def chanCode (s : State) (n : Nat) : Nat :=
  let x := chanOf s n
  if x.state = .active ∧ s.power.state = .ember then 3 else if x.state = .active ∧ x.retrain then 1 else x.state.code

/-- DMC (Tables 6-9, 6-10). -/
def viewDMC (s : State) (b i _sel m : Nat) : Option Nat :=
  let x := chanOf s i
  match b with
  | 0x1C00004 /- DMC_STATUS -/ => some (b2n (allChans.all fun c => (chanOf s c).state == .active) + at_ 1 (b2n (allChans.any (chanRetired s)))
      + at_ 2 (b2n (allChans.any fun c => decide (0 < (chanOf s c).sp))) + at_ 3 (b2n (s.dram.overcommit != [])))
  | 0x1C00008 /- DMC_RETIRED -/ => some ((allChans.filter (chanRetired s)).foldl (fun n k => n + 2 ^ k) 0)
  | 0x1C00010 /- DMC_CAPACITY -/ => some (usableMib s)
  | 0x1C00014 /- DMC_BW_FLOOR -/ => some (bwFloor s)
  | 0x1C00018 /- DMC_BW_ADMITTED -/ => some ((allChans.map fun c => loadMb (loadNow s c)).foldl (· + ·) 0)
  | 0x1C00058 /- DMC_REGIONS -/ => some s.dram.regions.length
  | 0x1C01000 /- DMC_CH_STATUS -/ => some (chanCode s i + at_ 4 x.sp + at_ 6 x.tset + at_ 7 (b2n (hintMode s i)) + at_ 8 (b2n (x.ranks == 2)) + at_ 16 (m % 256))
  | 0x1C01004 /- DMC_CH_SP_LIMIT -/ => some x.spLimit
  | 0x1C01008 /- DMC_CH_CAPACITY -/ => some (chanMib s i)
  | 0x1C0100C /- DMC_CH_LOAD -/ => some (m % 256 + at_ 8 (loadMb (loadNow s i) * 100000 / spRateKb x.sp % 256))
  | 0x1C0104C /- DMC_CH_TRAIN_RESULT -/ => some (x.readEye + at_ 8 x.writeEye + at_ 16 (b2n x.byteSwap) + at_ 17 (b2n x.caRev) + at_ 18 (b2n x.differs) + at_ 24 x.outcome)
  | 0x1C01064 /- DMC_CH_PARTNER -/ => some (partner i + at_ 7 (b2n (!chanRetired s (partner i))))
  | _ => none

end Sys2Proof.Machine
end

