-- ==== Sys2Proof/Machine/Views2.lean ====
section
/-! DEFINITION. Machine/Views2.lean: what the read-only registers of PKT, CIP, VCA, MIX, GRV and ASP show (Tables 7-16 to 7-18,
8-12, 8-13, 9-18, 9-19, 10-8, 10-9), in the form of Views1.lean. -/

namespace Sys2Proof.Machine

/-- Whether offset `b` is one of the registers from `lo` to `hi`. -/
def between (lo hi b : Nat) : Bool := decide (lo ≤ b) && decide (b ≤ hi)

/-- NAT ports free at a local address: both pools less the ports in use. -/
def natPortsFree (s : State) (la : Nat) : Nat :=
  match Tbl.get? s.pkt.laddrs la with
  | none => 0
  | some a => (a.udpHi + 1 - a.udpLo) + (a.tcpHi + 1 - a.tcpLo) - (portsUsed s 0 la).length - (portsUsed s 1 la).length

/-- PKT_LADDR_W_CFG. -/
def laddrCfg (a : LAddr) : Nat :=
  1 + at_ 1 (b2n (bit a.flags 0)) + at_ 2 (b2n (bit a.flags 4)) + at_ 3 (b2n (bit a.flags 5)) + at_ 4 (b2n (bit a.flags 6))
    + at_ 8 (a.iface % 64) + at_ 16 (a.vlan % 4096)

/-- PKT_STATUS. -/
def pktStatus (s : State) : Nat :=
  (List.range 8).foldl (fun n p => n + if [0, 1, 2, 3].any (fun k => ifaceUp s (4 * p + k)) then 2 ^ p else 0) 0
    + at_ 8 (b2n s.pkt.rehash.isSome) + at_ 9 (b2n (decide (7680 ≤ camUsed s))) + at_ 10 (b2n (decide (sharedCells s ≤ sharedUsed s)))

/-- PKT (Tables 7-16 and 7-17). -/
def viewPKT (s : State) (b i sel m : Nat) : Option Nat :=
  let f := Tbl.get? s.pkt.flows sel
  match b with
  | 0x2000004 /- PKT_STATUS -/ => some (pktStatus s)
  | 0x2000010 /- PKT_FLOWS_USED -/ => some s.pkt.flows.length
  | 0x2000014 /- PKT_CAM_USED -/ => some (camUsed s)
  | 0x2000020 /- PKT_BUF_FREE -/ => some (bufFree s)
  | 0x2000028 /- PKT_REHASH -/ => some ((s.pkt.rehash.map fun r => 1 + at_ 1 (r.1 % 4) + at_ 12 (s.pkt.moved % 2 ^ 20)).getD 0)
  | 0x200002C /- PKT_LEN_USED -/ => some ((prefixLens s false).length + at_ 8 (prefixLens s true).length)
  | 0x2000100 /- PKT_FW_ENTRY -/ => some ((f.map fun f => u32 f.bytes (4 * i)).getD 0)
  | 0x2000120 /- PKT_FW_LOC -/ => some ((f.map flowLoc).getD 0)
  | 0x2000124 /- PKT_FW_HITS -/ => some ((f.map Flow.hits).getD 0)
  | 0x200012C /- PKT_FW_LAST_HIT -/ => some ((f.map fun f => f.lastHit.toNat).getD 0)
  | 0x2000204 /- PKT_LADDR_W -/ => some (((Tbl.get? s.pkt.laddrs sel).map fun a => u32 a.addr (4 * i)).getD 0)
  | 0x2000214 /- PKT_LADDR_W_CFG -/ => some (((Tbl.get? s.pkt.laddrs sel).map laddrCfg).getD 0)
  | 0x2000218 /- PKT_NAT_PORTS_FREE -/ => some (natPortsFree s (rgRaw s R.PKT_LADDR_SEL))
  | 0x200021C /- PKT_NBR_USED -/ => some s.pkt.neighbours.length
  | 0x2000220 /- PKT_ROUTES -/ => some ((routesOf s false).length + (routesOf s true).length)
  | 0x2000224 /- PKT_ACL_RULES -/ => some (s.pkt.flows.filter fun e => e.2.kind == 9 && !e.2.removed).length
  | 0x2000228 /- PKT_CONNS -/ => some (s.pkt.flows.filter fun e => e.2.kind == 7 && e.2.byte 1 == 0 && !e.2.removed).length
  | 0x200022C /- PKT_BUF_EGRESS_USED -/ => some (egressCells s)
  | 0x2000230 /- PKT_BUF_SHARED_USED -/ => some (sharedUsed s)
  | 0x2001000 /- PKT_P_CTRL -/ => some (ethCtrl (ethOf s i))
  | 0x2001004 /- PKT_P_STATUS -/ => some (ethStatus (ethOf s i))
  | 0x2001008 /- PKT_P_LANES -/ => some (ethOf s i).lanes
  | 0x200100C /- PKT_P_PTP_DELAY -/ => some (Config.detail 0x20000 (ethOf s i).mode % 2 ^ 32)
  | 0x2001014 /- PKT_P_BER -/ => some (m % 2 ^ 32)
  | _ => none

/-- CIP (Table 7-18). -/
def viewCIP (s : State) (b i sel m : Nat) : Option Nat :=
  let x := keyOf s sel
  match b with
  | 0x2400004 /- CIP_STATUS -/ => some (cipStatus s)
  | 0x2400010 /- CIP_SLOTS_USED -/ => some s.keys.length
  | 0x2400014 /- CIP_DRAINING -/ => some (s.keys.filter fun e => e.2.left != []).length
  | 0x2400058 /- CIP_LOAD -/ => some (m % 65536)
  | 0x2400100 /- CIP_P_STATUS -/ => some (engineWord s 9 i)
  | 0x2400104 /- CIP_P_LOAD -/ => some (m % 65536)
  | 0x2400300 /- CIP_W_META -/ => some (keyMeta x)
  | 0x2400304 /- CIP_W_OWNER -/ => some x.owner.toNat
  | 0x2400308 /- CIP_W_COUNTER -/ => some x.counter
  | 0x2400310 /- CIP_W_COUNTER2 -/ => some x.counter2
  | 0x2400314 /- CIP_W_INFLIGHT -/ => some (min 65535 x.flying)
  | 0x2400318 /- CIP_W_USES -/ => some x.uses
  | 0x2400320 /- CIP_W_AUTH_FAIL -/ => some x.authFail
  | 0x2400328 /- CIP_W_REPLAY -/ => some x.replay
  | _ => none

/-- Engines in service, and from bit `n` on how many of them are spares (VCA_STATUS and its like). -/
def engineSum (s : State) (sub n : Nat) : Nat :=
  let l := enginesIn s sub .inService
  l.length + at_ n (l.filter (fittedSpare sub)).length

/-- VCA_W_STATE[1:0]. -/
def JbPhase.num : JbPhase → Nat
  | .idle => 0 | .filling => 1 | .playing => 2 | .concealing => 3

/-- VCA (Table 8-12). -/
def viewVCA (s : State) (b i sel m : Nat) : Option Nat :=
  let j := jitOf s sel
  match b with
  | 0x2800004 /- VCA_STATUS -/ => some (engineSum s 0x0A 8)
  | 0x2800010 /- VCA_DEC_UNITS -/ => some (drawn s).dec
  | 0x2800014 /- VCA_ENC_UNITS -/ => some (drawn s).enc
  | 0x2800038 /- VCA_LOAD -/ => some (m % 65536)
  | 0x2800100 /- VCA_E_STATUS -/ => some (engineWord s 0x0A i + at_ 16 (m % 256))
  | 0x2800300 /- VCA_W_JB -/ => some (if Tbl.has s.audio.jitter sel then 48 * j.target % 65536 + at_ 16 (j.depth % 65536) else 0)
  | 0x2800304 /- VCA_W_DRIFT -/ => some (toTwos 32 j.drift)
  | 0x2800308 /- VCA_W_STATE -/ => some (if Tbl.has s.audio.jitter sel then
      j.phase.num + at_ 2 (((Tbl.get? s.legs sel).map Leg.codec).getD 0 % 8) + at_ 8 j.decEngine + at_ 16 j.encEngine else 0)
  | 0x280030C /- VCA_W_RECEIVED -/ => some j.received
  | 0x2800314 /- VCA_W_LATE -/ => some j.late
  | 0x280031C /- VCA_W_CONCEALED -/ => some j.concealed
  | 0x2800324 /- VCA_W_DTX -/ => some j.dtx
  | 0x280032C /- VCA_W_RESYNCS -/ => some (min (2 ^ 32 - 1) j.resyncs)
  | _ => none

/-- MIX_L_CFG and MIX_L_TALK of a member. -/
def mixLegCfg (s : State) (i c : Nat) : Nat :=
  let x := mixOf s i
  c + at_ 12 (((Tbl.get? s.legs i).map Leg.role).getD 0) + at_ 14 (b2n x.forced) + at_ 15 (b2n x.muted) + at_ 16 (x.bus % 16)
    + (match x.cls with | some k => at_ 20 (k % 32) | none => at_ 25 1)
def mixLegTalk (s : State) (i m : Nat) : Nat :=
  let x := mixOf s i
  talkBits s i + at_ 3 (b2n (legStarved x))
    + at_ 8 (match x.lastActive with | some a => min (2 ^ 24 - 1) (nowBlock s - (a + 1)) | none => m % 2 ^ 24)

/-- MIX_T_LIST. -/
def talkerWord (s : State) (cf : Conf) (i : Nat) : Nat :=
  match (talkersLoud s cf)[i]? with
  | some l => l + at_ 14 (b2n (legCrossing (mixOf s l))) + at_ 15 1 + at_ 16 (toTwos 16 (mixOf s l).level)
  | none => 0

/-- MIX (Table 8-13). -/
def viewMIX (s : State) (b i sel m : Nat) : Option Nat :=
  let bus := Tbl.get? s.audio.buses sel
  let leg := (Tbl.get? s.legs sel).bind Leg.conf
  let cf := Tbl.get? s.confs sel
  match b with
  | 0x2C00000 /- MIX_STATUS -/ => some (s.audio.buses.length + at_ 16 s.confs.length)
  | 0x2C00014 /- MIX_CLASSES -/ => some (drawn s).classes
  | 0x2C00048 /- MIX_LOAD -/ => some (m % 65536)
  | 0x2C00100 /- MIX_B_CFG -/ => some ((bus.map fun x => x.conf + at_ 12 x.num + at_ 16 (b2n x.active.gainAuto) + at_ 17 (b2n x.active.limitEn)
      + at_ 24 ((x.feeds.filter fun f => !f.gone).length % 128)).getD 0)
  | 0x2C00104 /- MIX_B_GAIN -/ => some ((bus.map fun x => x.gQ % 65536 + at_ 16 (x.n % 128)).getD 0)
  | 0x2C00108 /- MIX_B_LEVEL -/ => some ((bus.map fun x => toTwos 16 x.peak).getD 0)
  | 0x2C0010C /- MIX_B_GR -/ => some ((bus.map fun x => x.gr % 65536).getD 0)
  | 0x2C00110 /- MIX_B_SWAP -/ => some (((bus.bind fun x => x.shadows.head?).map fun w => 1 + w.at_.getD (nowBlock s + 1) % 2 ^ 32 / 2 * 2).getD 0)
  | 0x2C00200 /- MIX_L_CFG -/ => some ((leg.map (mixLegCfg s sel)).getD 0)
  | 0x2C00204 /- MIX_L_TRIM -/ => some ((leg.map fun _ => toTwos 16 (mixOf s sel).trim).getD 0)
  | 0x2C00208 /- MIX_L_LEVEL -/ => some ((leg.map fun _ => toTwos 16 (mixOf s sel).level).getD 0)
  | 0x2C0020C /- MIX_L_TALK -/ => some ((leg.map fun _ => mixLegTalk s sel m).getD 0)
  | 0x2C00300 /- MIX_C_CFG -/ => some ((cf.map fun x => x.k % 128 + at_ 8 (talkerCount s x % 128) + at_ 16 (x.classes.length % 32) + at_ 24 x.aux).getD 0)
  | 0x2C00304 /- MIX_C_PLAN -/ => some ((cf.map fun x => x.hold + at_ 16 (x.crossfade % 512)).getD 0)
  | 0x2C00308 /- MIX_C_THRESH -/ => some ((cf.map fun x => toTwos 16 x.thresh + at_ 16 x.hyst + at_ 24 (x.pflags % 8)).getD 0)
  | 0x2C0030C /- MIX_C_BASE_BUS -/ => some ((cf.map Conf.firstBus).getD 0)
  | 0x2C00400 /- MIX_J_STATUS -/ => some ((s.audio.buses.filter fun e => Config.mixJunction e.1 % 4 == i).length + at_ 16 (Config.detail 0x1000B i % 256))
  | 0x2C00404 /- MIX_J_LOAD -/ => some (m % 65536)
  | 0x2C00500 /- MIX_T_LIST -/ => some ((cf.map fun x => talkerWord s x i).getD 0)
  | _ => none

/-- Cores of a grove. -/
def groveCores (g : Nat) : List Nat := (List.range 17).map (17 * g + ·)

/-- GRV_C_STATUS. -/
def coreStatus (s : State) (k : Nat) : Nat :=
  let c := coreOf s k
  engineWord s 0x0C k + at_ 3 (b2n c.under.isSome) + at_ 4 (b2n c.task.isSome) + at_ 16 (admittedCore s k / 1000000 % 65536)

/-- A core's context as its window shows it. -/
def accField (c : DspCtx) (a lo n : Nat) : Nat := toTwos 72 (c.acc.getD a 0) / 2 ^ lo % 2 ^ n

/-- GRV (Tables 9-18 and 9-19). -/
def viewGRV (s : State) (b i sel m : Nat) : Option Nat :=
  let c := coreOf s sel
  let x := c.stopCtx
  match b with
  | 0x3000004 /- GRV_STATUS -/ => some (spareBits s + at_ 16 (b2n (s.dsp.tasks.any fun t => t.2.state == .faulted)))
  | 0x3000010 /- GRV_PROGRAMS -/ => some (3 + s.dsp.programs.length)
  | 0x3000014 /- GRV_TASKS -/ => some s.dsp.tasks.length
  | 0x3000018 /- GRV_STORE_USED -/ => some (((Tbl.sum s.dsp.programs fun p => 8 * p.bundles.length + p.const_.length) + 1023) / 1024 % 65536)
  | 0x3000058 /- GRV_LOAD -/ => some (m % 65536)
  | 0x3000100 /- GRV_G_STATUS -/ => some (((groveCores i).filter fun k => (engineOf s 0x0C k).state == .inService).length
      + at_ 5 (b2n ((engineOf s 0x0C (17 * i + 16)).state == .inService)))
  | 0x3000104 /- GRV_G_ADMITTED -/ => some (admittedGrove s i / 1000 % 2 ^ 24)
  | 0x3000108 /- GRV_G_IMEM -/ => some (((groveCores i).map fun k => ((imemUsed s k).map Prod.snd).foldl (· + ·) 0).foldl (· + ·) 0)
  | 0x300010C /- GRV_G_TASKS -/ => some (s.dsp.tasks.filter fun t => t.2.placed && groveOf t.2.target == i).length
  | 0x3000400 /- GRV_C_STATUS -/ => some (coreStatus s i)
  | 0x3001000 /- GRV_W_STATE -/ => some (match c.task with
      | some t => 4 + at_ 16 t
      | none => c.stopKind + at_ 8 c.stopCause + at_ 16 c.stopTask)
  | 0x3001004 /- GRV_W_PC -/ => some x.pc
  | 0x3001008 /- GRV_W_SR -/ => some (x.sr % 65536)
  | 0x300100C /- GRV_W_SHADOW -/ => some (x.spc % 4096 + at_ 16 (x.ssr % 65536))
  | 0x3001010 /- GRV_W_D -/ => some (x.d.getD i 0).toNat
  | 0x3001050 /- GRV_W_ACC0 -/ => some (accField x i 0 32)
  | 0x3001054 /- GRV_W_ACC1 -/ => some (accField x i 32 32)
  | 0x3001058 /- GRV_W_ACC2 -/ => some (accField x i 64 8)
  | 0x3001080 /- GRV_W_P -/ => some (x.p.getD i 0).toNat
  | 0x30010A0 /- GRV_W_N -/ => some (x.n.getD i 0).toNat
  | 0x30010C0 /- GRV_W_L -/ => some (x.l.getD i 0).toNat
  | 0x30010E0 /- GRV_W_LOOP -/ => some (x.ls.getD i 0 + at_ 16 (x.le.getD i 0))
  | 0x30010E4 /- GRV_W_LC -/ => some (x.lc.getD i 0).toNat
  | 0x30010F0 /- GRV_W_TRAP_PC -/ => some c.trapPc
  | 0x30010F4 /- GRV_W_TRAP_ADDR -/ => some c.trapAddr
  | 0x3001110 /- GRV_W_SP_STATUS -/ => some (c.spQueue.length + at_ 8 (b2n c.spNone) + at_ 9 (b2n c.spTrunc) + at_ 10 (b2n c.spDrop))
  | 0x3001114 /- GRV_W_CKPT_LAST -/ => some (c.ckptLast % 65536)
  | 0x3001118 /- GRV_W_IMEM -/ => some ((imemUsed s sel).map Prod.snd |>.foldl (· + ·) 0)
  | 0x300111C /- GRV_W_DMEM -/ => some ((dmemUsed s sel).map (fun e => (e.2 + 63) / 64) |>.foldl (· + ·) 0)
  | _ => none

/-- ASP (Tables 10-8 and 10-9). -/
def viewASP (s : State) (b i _sel _m : Nat) : Option Nat :=
  let ports := fun (p : AspPort → Bool) => (List.range 8).foldl (fun n k => n + if p (portAt s k) then 2 ^ k else 0) 0
  match b with
  | 0x3400004 /- ASP_STATUS -/ => some (ports (fun a => a.phase == .running) + at_ 8 (ports portHolds) + at_ 16 (ports fun a => a.pins != []))
  | 0x340000C /- ASP_TRIG_STATUS -/ => some ((s.asp.arm.map fun a => a.ports + at_ 8 a.source + at_ 11 a.edge + at_ 31 1).getD 0)
  | 0x340011C /- ASP_P_START_TIME -/ => some (portAt s i).startTime.toNat
  | _ => if between R.ASP_P_CONFIG0 R.ASP_P_PERIOD b then some (aspWord s i ((b - R.ASP_P_CONFIG0) / 4)) else none

end Sys2Proof.Machine
end

