-- ==== Sys2Proof/Machine/WlanRx.lean ====
section
/-! DEFINITION. Machine/WlanRx.lean: received PPDUs, scoreboards and the downlink scheduler (R301, R306–R313). -/

namespace Sys2Proof.Machine

/-! ### Scoreboards (R313) -/

/-- The key of a scoreboard is the TID; the transmitter is the station, an MLD as one. -/
def boardOf (a : Sta) (tid : Nat) : Scoreboard := Tbl.getD a.boards tid {}

def modBoard (i tid : Nat) (f : Scoreboard → Scoreboard) (s : State) : State :=
  modSta i (fun a => { a with boards := Tbl.put a.boards tid (f (boardOf a tid)) }) s

/-- The frame recorded under a number goes to those that the packet engine takes next. -/
def Scoreboard.hand (n : Nat) (b : Scoreboard) : Scoreboard :=
  { b with ready := b.ready ++ (b.msdus.filter fun e => e.1 == n).map Prod.snd, msdus := b.msdus.filter fun e => e.1 != n }

/-- Numbers that lie from `start` on in a row among those recorded are delivered. -/
def Scoreboard.deliver : Nat → Scoreboard → Scoreboard
  | 0, b => b
  | n + 1, b =>
    if b.seen.contains b.start then
      let b := b.hand b.start
      Scoreboard.deliver n { b with seen := b.seen.filter (· != b.start), held := b.held.filter (fun e => e.1 != b.start)
                                    start := (b.start + 1) % 4096 }
    else b

/-- The window's start moves to `n`: frames passed over are delivered in order, holes are lost. -/
def Scoreboard.moveTo (n : Nat) (b : Scoreboard) : Scoreboard :=
  let inWin := fun q => decide ((q + 4096 - n) % 4096 < 2048)
  let dist := fun q => (q + 4096 - b.start) % 4096
  let passed := sortBy (fun x y => decide (dist x < dist y)) ((b.msdus.map Prod.fst).filter fun q => !inWin q)
  let b := passed.foldl (fun b q => b.hand q) b
  let b := { b with start := n, seen := b.seen.filter inWin, held := b.held.filter fun e => inWin e.1 }
  b.deliver (b.seen.length + 1)

/-- What an MPDU is to a scoreboard: new, a duplicate in the window, or behind it. -/
inductive MpduFate where
  | new | dup | behind
deriving DecidableEq, Repr

/-- An MPDU meets its scoreboard (R313). -/
def Scoreboard.take (now seq : Nat) (m : Option Frame) (b : Scoreboard) : MpduFate × Scoreboard :=
  let b := if b.fresh then { b with start := seq, fresh := false } else b
  let d := (seq + 4096 - b.start) % 4096
  let keep := m.toList.map fun f => (seq, f)
  if d < b.size then
    if b.seen.contains seq then (.dup, b)
    else
      let b := { b with seen := b.seen ++ [seq], held := b.held ++ [(seq, now)], msdus := b.msdus ++ keep }
      (.new, b.deliver (b.seen.length + 1))
  else if d < 2048 then
    let b := b.moveTo ((seq + 4097 - b.size) % 4096)
    let b := { b with seen := b.seen ++ [seq], held := b.held ++ [(seq, now)], msdus := b.msdus ++ keep }
    (.new, b.deliver (b.seen.length + 1))
  else (.behind, b)

/-- The frames that a scoreboard has delivered reach the packet engine on interface 32 (R298). -/
def takeReady (i tid : Nat) (s : State) : State :=
  let l := (boardOf (staOf s i) tid).ready
  l.foldl (fun s f => classify { f with iface := 32 } (some i) s) (modBoard i tid (fun b => { b with ready := [] }) s)

/-- An MPDU of a station: recorded, or counted as a duplicate. -/
def takeMpdu (i : Nat) (s : State) (m : Mpdu) : State :=
  let r := (boardOf (staOf s i) m.tid).take s.clock.cycles (m.seq % 4096) m.msdu
  let s := modBoard i m.tid (fun _ => r.2) s
  takeReady i m.tid (match r.1 with
  | .new => bump R.WMC_RX_MPDUS (bump (staCtr R.WMC_W_RX_MPDUS i) s)
  | .dup => bump R.WMC_DUP_RX (bump (staCtr R.WMC_W_DUP_RX i) s)
  | .behind => bump R.WMC_DUP_RX s)

/-- REORDER_HOLD_TIMEOUT (R313): an MPDU held for 100 ms is delivered; the holes before it are lost. -/
def reorderHoldTimeout (i tid : Nat) (s : State) : State :=
  match (boardOf (staOf s i) tid).held with
  | [] => s
  | (seq, at_) :: _ =>
    if ¬ Tbl.has s.wlan.stas i then s
    else takeReady i tid (modBoard i tid (fun b => b.moveTo seq) (tickTo (at_ + msCycles 100) s))

/-- REORDER_HOLD_TIMEOUT (R313). -/
def execReorderHoldTimeout (sta tid : Nat) (s : State) : Out := .next (reorderHoldTimeout sta tid s)

/-- Receive agreements of the device (pool 0x0072). -/
def agreements (s : State) : Nat := Tbl.sum s.wlan.stas fun a => (a.boards.filter fun b => decide (64 ≤ b.2.size)).length

/-! ### The address filter (R311) -/

/-- Whether a receiver address matches the filter of radio `r`. -/
def filterHit (s : State) (r : Nat) (ra : List Byte) : Bool :=
  ra == broadcastMac || (Tbl.getD s.wlan.groups r []).contains ra
    || match (roleOf s r).role with
      | 1 => s.wlan.bsss.any fun b => bit b.2.radios r && ra == macAt s (16 * r + b.1)
      | 2 => ra == macAt s (96 + r) || ra == macAt s 100 || s.wlan.stas.any (fun a => a.2.bss == 0xFF && bit a.2.links r && a.2.mac == ra)
      | 3 => s.wlan.stas.any fun a => a.2.bss == 0xFF && bit a.2.links r && a.2.mac == ra
      | _ => false

/-- The station that a frame belongs to: its transmitter in the AP role, its receiver in the station roles. -/
def frameSta (s : State) (p : Ppdu) : Option Nat :=
  let r := p.radio
  match (roleOf s r).role with
  | 1 => (s.wlan.stas.find? fun a => a.2.bss != 0xFF && bit a.2.links r && a.2.mac == p.ta).map Prod.fst
  | 2 => (s.wlan.stas.find? fun a => a.2.bss == 0xFF && bit a.2.links r).map Prod.fst
  | 3 => (s.wlan.stas.find? fun a => a.2.bss == 0xFF && bit a.2.links r && (a.2.mac == p.ra || groupMac p.ra)).map Prod.fst
  | _ => none

/-! ### Taps (R360) -/

/-- The receive tap of a radio sees every MPDU decoded, at the WIRE point, and its plain text at the CLEAR point. -/
def tapRadio (p : Ppdu) (addressed : Bool) (sta : Option Nat) (s : State) : State :=
  let one : Nat → State → State := fun point s =>
    tap { rec_ := { kind := 2, point, port := p.radio, time := nowFrac s, flags := 4 * b2n (!addressed) + 2 * b2n (!p.fcsOk)
                    rssi := toTwos 8 p.rssi, rate := p.rateCode, meta_ := sta.getD 0xFFFFFFFF
                    origLen := p.data.length, payload := p.data } } s
  (List.range (max 1 p.mpdus.length)).foldl (fun s _ => one 1 (one 0 s)) s

/-! ### Responses and More Data (R311, R312) -/

/-- SIFS in ns: 10 µs at 2.4 GHz, 16 µs elsewhere. -/
def sifsNs (r : Nat) : Nat := if r = 0 then 10000 else 16000

/-- Frames that count for More Data: those of delivery-enabled ACs, or of every AC where none is, after those committed to
the present service period. -/
def moreData (a : Sta) : Bool :=
  (List.range 4).any fun ac => (a.deliv == 0 || bit a.deliv ac) && decide (a.committed.getD ac 0 < a.queues.getD ac 0)

/-- The response of a frame: released one SIFS after its end; to a station in power save the More Data indication goes with
it. -/
def respond (p : Ppdu) (sta : Option Nat) (s : State) : State :=
  let r := p.radio
  let at_ := nowNs s + sifsNs r
  let s := (requestTx r { earliest := at_, latest := at_, what := .response } s).2
  match sta with
  | some i =>
    if p.psKind = 0 then s
    else
      let e : RelEntry := { user := 1, instant := at_ - 4000, what := b2n (moreData (staOf s i)), arg := i }
      { s with fab.release := Tbl.upd s.fab.release (68 + 2 * r) [] (fun l => l ++ [e]) }
  | none => s

/-- Frames delivered to a station that asks: one for a PS-Poll, the delivery-enabled ones for a trigger (U-APSD), all in a
TWT SP. -/
def commitFrames (i kind : Nat) (s : State) : State :=
  let a := staOf s i
  let top := [3, 2, 0, 1].find? fun ac => decide (0 < a.queues.getD ac 0)
  let take : Nat → Nat := fun ac =>
    if kind = 2 then (if top = some ac then 1 else 0) else if kind = 1 ∧ ¬ bit a.deliv ac then 0 else a.queues.getD ac 0
  let n := (List.range 4).map take
  let s := modSta i (fun a => { a with committed := n }) s
  s

/-- The frames committed to the exchange leave. -/
def sendCommitted (i r : Nat) (s : State) : State :=
  let a := staOf s i
  let n := a.committed.foldl (· + ·) 0
  let s := modSta i (fun a => { a with
    queues := (List.range 4).map (fun ac => a.queues.getD ac 0 - a.committed.getD ac 0), committed := [0, 0, 0, 0] }) s
  if n = 0 then s
  else
    bumpBy R.WMC_TX_MPDUS n (bumpBy (staCtr R.WMC_W_TX_MPDUS i) n
      (requestTx r { earliest := nowNs s, latest := nowNs s + 10000000, what := .frame } s).2)

/-! ### Management frames -/

/-- An authentication ends (R304, R315): a new station takes the lowest free index and AID. -/
def onAuth (p : Ppdu) (b stage : Nat) (ok : Bool) (s : State) : State :=
  let r := p.radio
  if (roleOf s r).role = 1 then
    if ¬ Tbl.has s.wlan.bsss b ∨ ¬ bit (bssOf s b).radios r ∨ (bssOf s b).stopping.isSome ∨ ignoredMac s p.ta then s
    else if ¬ ok then authFail b stage p.ta s
    else
      match (s.wlan.stas.find? fun a => a.2.bss == b && a.2.mac == p.ta).map Prod.fst with
      | some i => modSta i (fun a => { a with since := if a.state = .authenticating then s.clock.cycles else a.since, links := Nat.lor a.links (2 ^ r) }) s
      | none =>
        if (staPools s).isSome then s
        else match Tbl.lowestFree s.wlan.stas 0 1024 with
          | some i => addSta i { bss := b, radio := r, links := 2 ^ r, mac := p.ta, akm := (bssOf s b).security } s
          | none => s
  else
    match frameSta s p with
    | some i =>
      let a := staOf s i
      if a.state ≠ .authenticating then s
      else if ok then modSta i (fun a => { a with since := s.clock.cycles, parent := p.ta }) s
      else
        let s := authFail 0xFF stage p.ta s
        let s := match a.admission with
          | some (rs, tag) => finishRunning rs tag St.AUTH_FAILED (Config.detail 0x0C04 3) 0 [] s
          | none => s
        freeSta i (releaseSta i s)
    | none => s

/-- A peer refuses (STA_REFUSED). -/
def onRefused (i status : Nat) (s : State) : State :=
  let a := staOf s i
  if a.bss ≠ 0xFF ∨ (a.state ≠ .authenticating ∧ a.state ≠ .associated) then s
  else
    let s := match a.admission with
      | some (rs, tag) => finishRunning rs tag St.STA_REFUSED status 0 [] s
      | none => s
    freeSta i (releaseSta i s)

/-- An association or reassociation request (R304–R306); in the station roles, the parent's acceptance. -/
def onAssoc (i links listen_ : Nat) (mld emlsr eht twtCap : Bool) (deliv : Nat) (s : State) : State :=
  let a := staOf s i
  if a.bss = 0xFF then (if a.state = .authenticating then associate i s else s)
  else if a.state ≠ .authenticating ∧ a.state ≠ .authorized then s
  else
    let s := modSta i (fun a => { a with
      links := if mld then Nat.lor a.links (Nat.land links (bssOf s a.bss).radios) else a.links
      listen := listen_, mld, emlsr, eht, twtCap, deliv, since := s.clock.cycles }) s
    let a := staOf s i
    if bit (bssOf s a.bss).bflags 0 then
      raise Ev.STA_REQUEST (staH i) (leN a.bss 1 ++ leN a.links 1 ++ a.mac.take 6)
        (modSta i (fun a => { a with request := some s.clock.cycles }) s)
    else associate i s

/-- An ADDBA request: a receive agreement, where the pool has one (R313). -/
def onAddba (i tid size : Nat) (s : State) : State :=
  let had := decide (64 ≤ (boardOf (staOf s i) tid).size)
  if ¬ had ∧ 4096 ≤ agreements s then s
  else modBoard i tid (fun _ => { size := clampN 64 1024 size }) s

/-- A station's TWT request (R308): accepted, or answered Alternate. -/
def onTwt (i id flags wakeUs spUs : Nat) (s : State) : State :=
  let a := staOf s i
  if 32 ≤ id then
    (if Tbl.has (bssOf s a.bss).bcast (id - 32) then
      modSta i (fun a => { a with members := if a.members.contains (id - 32) then a.members else a.members ++ [id - 32] }) s else s)
  else
    let (start, s) := firstSp s 0 (max 1 wakeUs)
    let legal := decide (id ≤ 7 ∧ 1000 ≤ wakeUs ∧ wakeUs ≤ 60000000 ∧ 256 ≤ spUs ∧ spUs ≤ wakeUs / 2)
    if legal ∧ (twtRefused s i id start wakeUs spUs).isNone then
      modSta i (fun a => { a with twts := putTwt a.twts id flags wakeUs spUs start 0 }) s
    else sendMgmt i s

/-- A WUR mode request (R316). -/
def onWur (i r : Nat) (on : Bool) (onUs periodMs : Nat) (s : State) : State :=
  let w := s.wlan.wur
  if ¬ on then modSta i (fun a => { a with wur := false, ps := false, wakeTries := 0, wakeAt := none }) s
  else if wurRadio s = some r ∧ bit (bssOf s (staOf s i).bss).bflags 2 ∧ wurStas s < 512 ∧ w.minOn ≤ onUs ∧ periodMs ≤ w.maxPeriod then
    modSta i (fun a => { a with wur := true, ps := true }) s
  else sendMgmt i s

/-- What a frame carries besides data. -/
def onMgmt (p : Ppdu) (i : Option Nat) (s : State) : State :=
  let r := p.radio
  let withSta : (Nat → State → State) → State := fun f => match i with
    | some i => f i s
    | none => s
  match p.kind with
  | .none => s
  | .auth b stage ok => onAuth p b stage ok s
  | .assoc _ links listen_ mld emlsr eht twtCap deliv => withSta fun i s => onAssoc i links listen_ mld emlsr eht twtCap deliv s
  | .handshake ok => withSta fun i s =>
      if (staOf s i).state ≠ .associated then s else if ok then handshakeDone i s else handshakeFailed i 15 s
  | .deauth reason => withSta fun i s => removing i reason false s
  | .addba tid size => withSta fun i s => onAddba i tid size s
  | .delba tid => withSta fun i s => modBoard i tid (fun _ => {}) s
  | .twtSet id flags wakeUs spUs => withSta fun i s => onTwt i id flags wakeUs spUs s
  | .twtEnd id => withSta fun i s => modSta i (fun a =>
      if id < 32 then { a with twts := Tbl.del a.twts id } else { a with members := a.members.filter (· != id - 32) }) s
  | .wurMode on onUs periodMs => withSta fun i s => onWur i r on onUs periodMs s
  | .powerSave on => withSta fun i s => modSta i (fun a => { a with ps := on }) s
  | .poll => withSta fun i s => commitFrames i p.psKind s
  | .beacon => withSta fun i s => modSta i (fun a =>
      { a with missed := a.missed.set r 0, beaconAt := a.beaconAt.set r s.clock.cycles }) s
  | .refused status => withSta fun i s => onRefused i status s

/-! ### WLAN_PPDU_RECEIVE -/

/-- The radio can receive: it listens and has a chain in service. -/
def receives (s : State) (r : Nat) : Bool :=
  ((radioOf s r).state == .receive || ((radioOf s r).state == .idle && (roleOf s r).role != 0)) && serviceChains s r != []

/-- WLAN_PPDU_RECEIVE (R311): the filter, the scoreboards, the response. -/
def ppduReceive (p : Ppdu) (s : State) : State :=
  let r := p.radio
  if 2 < r ∨ ¬ receives s r then s
  else
    let s := listen r s
    if ¬ p.preambleOk then bump (R.WPH_R_RX_PREAMBLE_ERR + 0x100 * r) s
    else
      let s := bump R.WPH_RX_PPDUS (bump (R.WPH_R_RX_PPDUS + 0x100 * r) s)
      let s := if p.tb then bump (R.WPH_R_RX_MU + 0x100 * r) s else s
      let hit := filterHit s r p.ra
      let i := frameSta s p
      let s := tapRadio p hit i s
      if ¬ p.fcsOk then bump R.WPH_RX_FCS_ERR (bump (R.WPH_R_RX_FCS_ERR + 0x100 * r) s)
      else if ¬ hit then bump R.WMC_FILTER_DROPS s
      else
        let s := bump (R.WMC_L_RX_PPDU + 0x80 * r) s
        let s := match i with
          | some i => heardSta i (modSta i (fun a => { a with rate := p.rate, rssi := p.rssi, misses := 0, capMisses := 0 }) s)
          | none => s
        let s := onMgmt p i s
        let s := match i with
          | some i => if (staOf s i).state = .authorized then p.mpdus.foldl (takeMpdu i) s else s
          | none => s
        let s := if p.response ∧ ¬ groupMac p.ra then respond p i s else s
        match i with
        | some i => if p.psKind = 0 then s else sendCommitted i r s
        | none => s

/-- WLAN_PPDU_RECEIVE (R311). -/
def execWlanPpduReceive (p : Ppdu) (s : State) : Out := .next (ppduReceive p s)

/-! ### The downlink scheduler (R307) -/

/-- The most users of one PPDU by width. -/
def ru26 : Nat → Nat
  | 0 => 9
  | 1 => 18
  | 2 => 37
  | 3 => 74
  | _ => 148

/-- Stations whose restricted service period runs now on radio `r`, with those of a broadcast schedule. -/
def inRestricted (s : State) (r : Nat) (a : Sta) : Bool :=
  let runs := fun (t : Twt) => bit t.tflags 0 && decide (t.startNs ≤ nowNs s) && decide (nowNs s < t.startNs + 1000 * t.spUs)
  bit a.links r && (a.twts.any (fun t => runs t.2) || a.members.any fun m => ((Tbl.get? (bssOf s a.bss).bcast m).map runs).getD false)

/-- The start of the next restricted service period on radio `r`. -/
def nextRestricted (s : State) (r : Nat) : Option Nat :=
  ((restrictedSps s (2 ^ r) (9999, 0)).filter fun t => decide (nowNs s < t.startNs)).foldl
    (fun m t => some (match m with | some x => min x t.startNs | none => t.startNs)) none

/-- Insert a candidate: members of a running restricted service period first, then by deficit, largest first, then by tie. -/
def insertCand (c : Nat × Bool × Int × Nat) : List (Nat × Bool × Int × Nat) → List (Nat × Bool × Int × Nat)
  | [] => [c]
  | x :: t =>
    let before : Bool := (c.2.1 && !x.2.1) || (c.2.1 == x.2.1
      && (decide (x.2.2.1 < c.2.2.1) || (c.2.2.1 == x.2.2.1 && decide (c.2.2.2 < x.2.2.2))))
    if before then c :: x :: t else x :: insertCand c t

/-- The users of a TXOP (R307): which of two equal deficits comes first a free value says. -/
def pickUsers (s : State) (r ac tie : Nat) : List Nat :=
  let cands := (s.wlan.stas.filter fun e =>
      let a := e.2.accrue s.clock.cycles
      bit a.links r && a.awake s && decide (0 < a.queues.getD ac 0) && decide (0 < a.deficit)).map fun e =>
    (e.1, inRestricted s r e.2, (e.2.accrue s.clock.cycles).deficit, (e.1 + tie) % 1024)
  let ordered := cands.foldl (fun l c => insertCand c l) []
  let most := if (roleOf s r).role = 1 then min (min (roleOf s r).maxUsers 64) (ru26 (radioOf s r).chan.width) else 1
  (ordered.take most).map Prod.fst

/-- A transmission to a station on a link: acknowledged or not; the 16th in a row unacknowledged loses the link (R302). -/
def servedUser (r ac : Nat) (served : List TxopUser) (s : State) (i : Nat) : State :=
  let (v, s) := takeFree s
  let u : TxopUser := (served.find? fun u => u.sta == i).getD { sta := i, airUs := v }
  let s := modSta i (fun a => let a := a.accrue s.clock.cycles; { a with deficit := a.deficit - (u.airUs : Nat) }) s
  let n := min u.frames ((staOf s i).queues.getD ac 0)
  let s := bumpBy R.WMC_TX_MPDUS n (bumpBy (staCtr R.WMC_W_TX_MPDUS i) n s)
  if u.acked then
    modSta i (fun a => { a with queues := a.queues.set ac (a.queues.getD ac 0 - n), unacked := a.unacked.set r 0 }) s
  else
    let s := bump (R.WMC_L_RETRIES + 0x80 * r) (bump (staCtr R.WMC_W_RETRIES i) s)
    let k := (staOf s i).unacked.getD r 0 + 1
    let s := modSta i (fun a => { a with unacked := a.unacked.set r k }) s
    if 16 ≤ k then linkLost i r s else s

/-- The bytes naming the users of a PPDU on the air. -/
def userBytes (l : List Nat) : List Byte := l.flatMap fun i => leN i 2

/-- DL_TXOP_SCHEDULE (R307): none starts while a channel change or calibration is admitted (R326); one with a non-member ends
before a restricted service period starts (R308). -/
def dlTxop (r ac : Nat) (served : List TxopUser) (s : State) : State :=
  let (tie, s) := takeFree s
  if 2 < r ∨ 3 < ac ∨ (radioOf s r).jobs ≠ [] then s
  else
    let users := (pickUsers s r ac tie).filter fun i =>
      inRestricted s r (staOf s i) || match nextRestricted s r with
        | some t => decide (nowNs s + 1000 * ((served.find? fun u => u.sta == i).map TxopUser.airUs).getD 0 ≤ t)
        | none => true
    if users = [] then s
    else
      let x := requestTx r { earliest := nowNs s, latest := nowNs s + 10000000, what := .frame } s
      if ¬ x.1 then x.2
      else
        let s := emit (.air r 16 (userBytes users)) x.2
        let s := if 2 ≤ users.length then bump (R.WMC_L_MU_PPDU + 0x80 * r) (bump (R.WPH_R_TX_MU + 0x100 * r) s) else s
        let s := trackMax (R.WMC_L_MU_USERS_MAX + 0x80 * r) users.length s
        users.foldl (servedUser r ac served) s

/-- DL_TXOP_SCHEDULE (R307). -/
def execDlTxopSchedule (radio ac : Nat) (served : List TxopUser) (s : State) : Out := .next (dlTxop radio ac served s)

/-! ### Registers (Tables 13-12 and 13-13) -/

def rolesMask (s : State) (role : Nat) : Nat := ([0, 1, 2].map fun r => if (roleOf s r).role = role then 2 ^ r else 0).foldl (· + ·) 0

/-- WMC_STATUS, WMC_STATIONS, WMC_WUR_STATIONS, WMC_BA_AGREEMENTS. -/
def wmcGlobal (s : State) : List Nat :=
  [ rolesMask s 1 + 8 * rolesMask s 2 + 64 * rolesMask s 3 + 65536 * ((s.wlan.bsss.map fun b => 2 ^ b.1).foldl (· + ·) 0)
  , s.wlan.stas.length + 65536 * (s.wlan.stas.filter fun a => a.2.ps).length, wurStas s, agreements s ]

/-- WMC_B_CFG, WMC_B_STATIONS, WMC_B_COLOUR of a BSS. -/
def bssWords (s : State) (b : Nat) : List Nat :=
  match Tbl.get? s.wlan.bsss b with
  | none => [0, 0, 0]
  | some x => [ x.radios + 16 * x.security + 256 * x.bflags + 65536 * x.vlan, (bssStas s b).length
              , x.colours.getD 0 0 + 256 * x.colours.getD 1 0 + 65536 * x.colours.getD 2 0 ]

/-- WMC_L_STATUS of a radio. -/
def linkStatus (s : State) (r : Nat) : Nat :=
  let missed := (s.wlan.stas.map fun a => if a.2.bss = 0xFF then a.2.missed.getD r 0 else 0).foldl max 0
  let up : Bool := match (radioOf s r).state with
    | .off => false
    | .waking => false
    | .refHold => false
    | _ => (roleOf s r).role != 0
  (roleOf s r).role + 4 * b2n up + 256 * min 255 missed + 65536 * (s.wlan.stas.filter fun a => bit a.2.links r).length

/-- The exact peak PHY rate in Mbit/s at 4 streams by width, scaled to the chains in service (Table 13-2). -/
def peakMbps (s : State) (r : Nat) : Nat :=
  let full : Nat := match (radioOf s r).chan.width with
    | 0 => 688
    | 1 => 1376
    | 2 => 2882
    | 3 => 5765
    | _ => 11529
  full * (serviceChains s r).length / 4

end Sys2Proof.Machine
end

