-- ==== Sys2Proof/Machine/Views3.lean ====
section
/-! DEFINITION. Machine/Views3.lean: what the read-only registers of VDE, CMP, VEN, LFW, WMC, WPH and RAD show (Tables 11-13,
11-14, 12-13, 12-14, 13-12, 13-13, 14-13 to 14-16), in the form of Views1.lean. -/

namespace Sys2Proof.Machine

/-- VDE (Table 11-13). -/
def viewVDE (s : State) (b i sel m : Nat) : Option Nat :=
  match b with
  | 0x3800004 /- VDE_STATUS -/ => some (engineSum s 0x0E 8)
  | 0x3800010 /- VDE_STREAMS -/ => some s.video.decs.length
  | 0x3800014 /- VDE_ADMITTED -/ => some (mSample (decTotal s))
  | 0x3800058 /- VDE_LOAD -/ => some (m % 65536)
  | 0x380005C /- VDE_REFCOMP -/ => some (m % 256)
  | 0x3800100 /- VDE_E_STATUS -/ => some (engineWord s 0x0E i + at_ 16 (m % 256))
  | 0x3800104 /- VDE_E_CONTEXTS -/ => some (engineCtxs (vdePlaced s) i + at_ 16 (mSample (engineLoad (vdePlaced s) i)))
  | 0x3800488 /- VDE_W_REFCOMP -/ => some (if Tbl.has s.video.decs sel then m % 256 else 0)
  | _ => if between R.VDE_W_CFG R.VDE_W_COMPOSITION b then some (decWord s sel ((b - R.VDE_W_CFG) / 4)) else none

/-- CMP (Table 11-14). -/
def viewCMP (s : State) (b i sel m : Nat) : Option Nat :=
  match b with
  | 0x3C00004 /- CMP_STATUS -/ => some (engineSum s 0x0F 8)
  | 0x3C00010 /- CMP_COMPOSITIONS -/ => some s.video.comps.length
  | 0x3C00014 /- CMP_ADMITTED -/ => some (mSample (cmpTotal s))
  | 0x3C00038 /- CMP_LOAD -/ => some (m % 65536)
  | 0x3C00100 /- CMP_E_STATUS -/ => some (engineWord s 0x0F i + at_ 16 (m % 256))
  | 0x3C00214 /- CMP_W_NEXT -/ => some (cmpWord s sel 5 + at_ 32 (cmpWord s sel 6))
  | 0x3C00220 /- CMP_W_TILE_STATE -/ => some (cmpWord s sel 8)
  | _ => if between R.CMP_W_CFG R.CMP_W_FRAME b then some (cmpWord s sel ((b - R.CMP_W_CFG) / 4)) else none

/-- VEN (Table 12-13). -/
def viewVEN (s : State) (b i sel m : Nat) : Option Nat :=
  match b with
  | 0x4000004 /- VEN_STATUS -/ => some (engineSum s 0x10 8)
  | 0x4000010 /- VEN_STREAMS -/ => some s.video.encs.length
  | 0x4000014 /- VEN_ADMITTED -/ => some (mSample (encTotal s))
  | 0x4000048 /- VEN_LOAD -/ => some (m % 65536)
  | 0x4000100 /- VEN_E_STATUS -/ => some (engineWord s 0x10 i + at_ 16 (m % 256) + at_ 24 (engineCtxs (venPlaced s) i % 128))
  | 0x4000210 /- VEN_W_TARGET -/ => some (encWord s sel (4 + i))
  | 0x4000278 /- VEN_W_OVERRUN -/ => some (encWord s sel 30)
  | _ => if between R.VEN_W_CFG R.VEN_W_KEY_STATE b then some (encWord s sel ((b - R.VEN_W_CFG) / 4)) else none

/-- LFW (Table 12-14). -/
def viewLFW (s : State) (b i sel m : Nat) : Option Nat :=
  match b with
  | 0x4400004 /- LFW_STATUS -/ => some 0xF
  | 0x4400010 /- LFW_SETS -/ => some s.video.fwd.length
  | 0x4400014 /- LFW_ENTRIES -/ => some (Tbl.sum s.video.fwd fun f => f.entries.length)
  | 0x4400050 /- LFW_DUP_DISCARD -/ => some m
  | 0x4400058 /- LFW_LOAD -/ => some (m % 65536)
  | 0x4400100 /- LFW_Q_STATUS -/ => some ((s.video.fwd.filter fun e => quarterOf e.1 == i).length + at_ 16 (Config.detail 0x10011 i % 256))
  | 0x4400104 /- LFW_Q_LOAD -/ => some (m % 65536)
  | 0x4400268 /- LFW_W_TARGET -/ => some (lfwWord s sel 26)
  | _ => if between R.LFW_W_CFG R.LFW_W_LAST_REPORT b then some (lfwWord s sel ((b - R.LFW_W_CFG) / 4)) else none

/-- WMC (Table 13-12). -/
def viewWMC (s : State) (b i sel m : Nat) : Option Nat :=
  let w := s.wlan.wur
  match b with
  | 0x4800068 /- WMC_LOAD -/ => some (m % 65536)
  | 0x4800100 /- WMC_B_CFG -/ => some ((bssWords s i).getD 0 0)
  | 0x4800104 /- WMC_B_STATIONS -/ => some ((bssWords s i).getD 1 0)
  | 0x4800108 /- WMC_B_COLOUR -/ => some ((bssWords s i).getD 2 0)
  | 0x4800200 /- WMC_L_STATUS -/ => some (linkStatus s i)
  | 0x4800204 /- WMC_L_AIRTIME -/ => some (m % 65536)
  | 0x4800220 /- WMC_L_TRIGGERS -/ => some m
  | 0x480044C /- WMC_W_LAST_RX -/ => some (staWord s sel 19)
  | 0x4800450 /- WMC_W_WUR -/ => some (staWord s sel 20)
  | 0x4800408 /- WMC_W_MAC -/ => some (staWord s sel 2 + at_ 32 (staWord s sel 3))
  | 0x4800500 /- WMC_WUR_CFG -/ => some (w.radio + at_ 8 w.tries + at_ 16 w.respMs)
  | 0x4800504 /- WMC_WUR_TIMING -/ => some w.beaconTu
  | 0x4800508 /- WMC_WUR_MIN_ON -/ => some w.minOn
  | 0x480050C /- WMC_WUR_MAX_PERIOD -/ => some w.maxPeriod
  | _ =>
    if between R.WMC_STATUS R.WMC_BA_AGREEMENTS b then some ((wmcGlobal s).getD ((b - R.WMC_STATUS) / 4) 0)
    else if between R.WMC_W_STATE R.WMC_W_TWT b then some (staWord s sel ((b - R.WMC_W_STATE) / 4)) else none

/-- WPH (Table 13-13). -/
def viewWPH (s : State) (b i _sel m : Nat) : Option Nat :=
  let in_ := fun st => (List.range 3).foldl (fun n r => n + if (radioOf s r).state = st then 2 ^ r else 0) 0
  let n := (serviceChains s i).length
  match b with
  | 0x4C00004 /- WPH_STATUS -/ => some (in_ .receive + at_ 4 (in_ .transmit))
  | 0x4C00020 /- WPH_LOAD -/ => some (m % 65536)
  | 0x4C00100 /- WPH_R_CFG -/ => some ((radioOf s i).chan.width + at_ 16 (radioOf s i).chan.puncture)
  | 0x4C00104 /- WPH_R_PRIMARY -/ => some (radioOf s i).chan.primary
  | 0x4C00108 /- WPH_R_NOISE -/ => some (m % 2 ^ 32)
  | 0x4C0010C /- WPH_R_CCA -/ => some (m % 65536)
  | 0x4C00140 /- WPH_R_OBSS_PD_TX -/ => some m
  | 0x4C00148 /- WPH_R_CHAINS -/ => some (n + at_ 4 n)
  | 0x4C0014C /- WPH_R_PEAK_MBPS -/ => some (peakMbps s i)
  | _ => none

/-- RAD_STATUS. -/
def radStatus (s : State) : Nat :=
  (List.range 3).foldl (fun n r => n + (if (radioOf s r).state = .off then 0 else 2 ^ r)
    + (if (radioOf s r).state = .refHold then 2 ^ (4 + r) else 0)) 0
    + at_ 3 (b2n s.radio.wake.listen) + at_ 7 (b2n s.radio.sealed_) + at_ 8 (b2n !regRecord s)

/-- RAD_REG_LIMIT. -/
def limitWord (l : RegLimit) : Nat := l.centre + at_ 8 l.band + at_ 10 l.width + at_ 13 1 + at_ 16 (toTwos 16 l.limit)

/-- RAD (Tables 14-13 to 14-16). -/
def viewRAD (s : State) (b i sel m : Nat) : Option Nat :=
  match b with
  | 0x500000C /- RAD_STATUS -/ => some (radStatus s)
  | 0x5000018 /- RAD_REG_INFO -/ => some (s.radio.version % 256 + at_ 16 (s.radio.rows.length % 256))
  | 0x500001C /- RAD_REG_LIMIT -/ => some (((s.radio.rows[sel]?).map limitWord).getD 0)
  | 0x5000020 /- RAD_DIE_TEMP -/ => some (m % 65536)
  | 0x5000108 /- RAD_R_READY_AT -/ => some (radioWord s i 2 + at_ 32 (radioWord s i 3))
  | 0x500040C /- RAD_C_BIAS -/ => some (m % 256)
  | 0x5000620 /- RAD_W_LAST -/ => some s.radio.wake.lastAt.toNat
  | 0x5000600 /- RAD_W_CFG -/ => some (wakeWord s false 0)
  | 0x5000604 /- RAD_W_STATUS -/ => some (wakeWord s (bit s.power.sources 1) 1)
  | 0x5000628 /- RAD_W_RSSI -/ => some (wakeWord s false 10)
  | _ =>
    if between R.RAD_R_STATUS R.RAD_R_RFFE b then some (radioWord s i ((b - R.RAD_R_STATUS) / 4))
    else if between R.RAD_C_STATUS R.RAD_C_TUNER b then some (chainWord s i ((b - R.RAD_C_STATUS) / 4)) else none

end Sys2Proof.Machine
end

