-- ==== Sys2Proof/Machine/Views4.lean ====
section
/-! DEFINITION. Machine/Views4.lean: what the read-only registers of TMU, CAP, PWR, HLT and OTP show (Tables 15-9 to 15-11,
16-12, 16-13, 17-14, 17-15, 4-11), in the form of Views1.lean, and the view of any register. -/

namespace Sys2Proof.Machine

/-- TMU (Tables 15-9 to 15-11). The words after TMU_TIME_SEC_HI are stored: a read of it latches them. -/
def viewTMU (s : State) (b i _sel m : Nat) : Option Nat :=
  let t := s.time
  match b with
  | 0x5400004 /- TMU_STATUS -/ => some (tmuStatus s)
  | 0x540000C /- TMU_TIME_SEC_HI -/ => some ((timeWords s.clock.tb).getD 0 0)
  | 0x540001C /- TMU_RATE -/ => some (toTwos 32 s.clock.rate)
  | 0x5400020 /- TMU_SLEW_REMAIN -/ => some (toTwos 32 (clampI (-2147483648) 2147483647 (slewRemain s)))
  | 0x5400024 /- TMU_XO_MEAS -/ => some (m % 2 ^ 32)
  | 0x5400050 /- TMU_HOLDOVER_MS -/ => some (holdMs s)
  | 0x5400108 /- TMU_D_OFFSET -/ => some (domWord s i 2 + at_ 32 (domWord s i 3))
  | 0x5400118 /- TMU_D_GM_ID -/ => some (domWord s i 6 + at_ 32 (domWord s i 7))
  | 0x5400148 /- TMU_D_LOCK_CFG -/ => some (domWord s i 18)
  | 0x5400200 /- TMU_Q_STATUS -/ => some (queueOf s i).length
  | 0x5400300 /- TMU_PPS_CFG -/ => some (t.pflags % 32 + at_ 8 t.widthUs)
  | 0x5400304 /- TMU_PPS_OFFSET -/ => some (toTwos 32 t.offsetNs)
  | 0x5400308 /- TMU_PPS_IN_LAST -/ => some (toTwos 32 t.ppsIn)
  | 0x540030C /- TMU_SYNCE_CFG -/ => some (b2n (bit t.pflags 3) + at_ 1 (t.synceIf.getD 0 0 % 32) + at_ 8 (t.synceDiv.getD 0 0 % 256)
      + at_ 16 (b2n (bit t.pflags 4)) + at_ 17 (t.synceIf.getD 1 0 % 32) + at_ 24 (t.synceDiv.getD 1 0 % 256))
  | _ => if between R.TMU_D_CFG R.TMU_D_GM_QUALITY b then some (domWord s i ((b - R.TMU_D_CFG) / 4)) else none

/-- A session that runs: its state is neither IDLE, LOADED nor DONE. -/
def Session.runs (x : Session) : Bool := x.state == .running || x.state == .armed || x.state == .triggered || x.state == .scheduled

/-- CAP (Tables 16-12 and 16-13). -/
def viewCAP (s : State) (b i _sel m : Nat) : Option Nat :=
  let mask := fun (p : Session → Bool) => (s.cap.sessions.map fun e => if p e.2 then 2 ^ e.1 else 0).foldl (· + ·) 0
  let rate := fun (r : Bool) => Tbl.sum s.cap.sessions fun x => if x.replay = r then x.gbps else 0
  match b with
  | 0x5800004 /- CAP_STATUS -/ => some (mask (fun _ => true) + at_ 16 (mask Session.runs))
  | 0x580000C /- CAP_FILTERS -/ => some s.cap.filters.length
  | 0x5800010 /- CAP_ADMITTED -/ => some (rate false % 65536 + at_ 16 (rate true % 65536))
  | 0x5800014 /- CAP_STAGING -/ => some (m % 65536)
  | 0x5800040 /- CAP_LOAD -/ => some (m % 65536)
  | _ => if between R.CAP_S_STATUS R.CAP_S_TAIL b then some (capWord s i m ((b - R.CAP_S_STATUS) / 4)) else none

/-- PWR (Table 17-14). -/
def viewPWR (s : State) (b i _sel _m : Nat) : Option Nat :=
  let one := fun o => some (pwrWord s (b - 0x05C00000 + o))
  let two := fun o => some (pwrWord s (b - 0x05C00000 + o) + at_ 32 (pwrWord s (b - 0x05C00000 + o + 4)))
  match b with
  | 0x5C00010 /- PWR_WAKE_AT -/ => two 0
  | 0x5C00030 /- PWR_EMBER_MS -/ => two 0
  | 0x5C00040 /- PWR_LOG_HEAD -/ => one 0
  | 0x5C00024 /- PWR_VCORE -/ => one 0
  | 0x5C000E8 /- PWR_DOM_STATUS -/ => one (4 * i)
  | 0x5C00100 /- PWR_LOG_INFO -/ => one (16 * i)
  | 0x5C00104 /- PWR_LOG_TIME -/ => two (16 * i)
  | 0x5C0010C /- PWR_LOG_OBJECT -/ => one (16 * i)
  | _ => if between R.PWR_STATUS R.PWR_LAST_STATE b then one 0 else none

/-- HLT (Table 17-15). -/
def viewHLT (s : State) (b i _sel _m : Nat) : Option Nat :=
  let one := fun o => some (hltWord s (b - 0x06000000 + o))
  match b with
  | 0x6000004 /- HLT_STATUS -/ => one 0
  | 0x6000010 /- HLT_PLAN_MV -/ => one 0
  | 0x6000014 /- HLT_SCALE -/ => one 0
  | 0x6000018 /- HLT_MARGIN -/ => one 0
  | 0x600001C /- HLT_AGE_H -/ => one 0
  | 0x6000020 /- HLT_TJ_MAX -/ => one 0
  | 0x6000024 /- HLT_WORST_CANARY -/ => one 0
  | 0x6000040 /- HLT_NEXT_PLAN -/ => one 0
  | 0x6000044 /- HLT_HEADROOM_H -/ => one 0
  | 0x6000100 /- HLT_TEMP -/ => one (4 * i)
  | 0x6000140 /- HLT_VMON -/ => one (4 * i)
  | 0x6000300 /- HLT_PLAN_MV_H -/ => one (16 * i)
  | 0x6000304 /- HLT_PLAN_TIME -/ => some (hltWord s (b - 0x06000000 + 16 * i) + at_ 32 (hltWord s (b - 0x06000000 + 16 * i + 4)))
  | 0x600030C /- HLT_PLAN_MARGIN -/ => one (16 * i)
  | _ => if between R.HLT_K_STATUS R.HLT_K_TEMP b then one 0 else none

/-- OTP_REC_GEN of a record type; record 5 is written in place and has no generations of its own. -/
def recGenWord (s : State) (t : Nat) : Nat :=
  let used := (recGens s t).length
  match inForce s t with
  | some (g, _) => g % 4 + at_ 4 used + at_ 8 (b2n (decide (4 ≤ used))) + at_ 10 1
  | none => at_ 4 used + at_ 8 (b2n (decide (4 ≤ used))) + at_ 9 (b2n (decide (0 < used)))

/-- OTP (Table 4-11). -/
def viewOTP (s : State) (b i _sel m : Nat) : Option Nat :=
  let o := s.boot
  match b with
  | 0x6400000 /- OTP_STATUS -/ => some (b2n o.sensed + at_ 1 (b2n o.programming) + at_ 2 (b2n o.integrity))
  | 0x6400004 /- OTP_BOOT_STAGE -/ => some (o.stage % 256)
  | 0x6400008 /- OTP_RESET_CAUSE -/ => some (o.cause % 32)
  | 0x640000C /- OTP_BOOT_SRC -/ => some (o.src % 8 + at_ 4 (b2n (o.running == some 1)) + at_ 5 (b2n o.trialBoot) + at_ 6 (b2n o.fallback))
  | 0x6400010 /- OTP_BOOT_TIME -/ => some o.bootTime
  | 0x6400018 /- OTP_BOOT_ATTEMPTS -/ => some (o.attempts % 256)
  | 0x640001C /- OTP_SAFE_DETAIL -/ => some (o.safeDetail % 256)
  | 0x6400020 /- OTP_IMG_VERSION -/ => some (o.version.getD i 0)
  | 0x6400030 /- OTP_IMG_SVN -/ => some (o.svn.getD i 0)
  | 0x6400040 /- OTP_REC_GEN -/ => some (recGenWord s i)
  | 0x6400060 /- OTP_ARB_COUNTER -/ => some (s.fuses.arb.getD i 0)
  | 0x640006C /- OTP_POLICY -/ => some (u16 (recPayload s 6) 0)
  | 0x6400078 /- OTP_ECC_CORRECTED -/ => some m
  | 0x6400090 /- OTP_TESTED_SET_COUNT -/ => some (o.testedSet.length % 65536)
  | 0x6400094 /- OTP_STRAPS -/ => some (u32 (recPayload s 1) 0)
  | 0x6400098 /- OTP_REGDOMAIN -/ => some (uN (recPayload s 7) 0 3)
  | 0x640009C /- OTP_MAC_BASE_LO -/ => some (uN s.fuses.macBase 0 4)
  | 0x64000A0 /- OTP_MAC_BASE_HI -/ => some (uN s.fuses.macBase 4 2)
  | _ => none

/-- The whole register of the row at `b`, instance `i`, of the object its window selects: derived from the state, or stored.
`m` is a value measured at the read. -/
def viewReg (s : State) (b i sel m : Nat) : Option Nat :=
  match b / 0x400000 with
  | 0x00 => viewDEV s b i sel m
  | 0x02 => viewHPI s b i sel m
  | 0x03 => viewFAB s b i sel m
  | 0x04 => viewFLU s b i sel m
  | 0x05 => viewDSX s b i sel m
  | 0x06 => viewMEM s b i sel m
  | 0x07 => viewDMC s b i sel m
  | 0x08 => viewPKT s b i sel m
  | 0x09 => viewCIP s b i sel m
  | 0x0A => viewVCA s b i sel m
  | 0x0B => viewMIX s b i sel m
  | 0x0C => viewGRV s b i sel m
  | 0x0D => viewASP s b i sel m
  | 0x0E => viewVDE s b i sel m
  | 0x0F => viewCMP s b i sel m
  | 0x10 => viewVEN s b i sel m
  | 0x11 => viewLFW s b i sel m
  | 0x12 => viewWMC s b i sel m
  | 0x13 => viewWPH s b i sel m
  | 0x14 => viewRAD s b i sel m
  | 0x15 => viewTMU s b i sel m
  | 0x16 => viewCAP s b i sel m
  | 0x17 => viewPWR s b i sel m
  | 0x18 => viewHLT s b i sel m
  | 0x19 => viewOTP s b i sel m
  | _ => none

end Sys2Proof.Machine
end

