-- ==== Sys2Proof/Machine/Reads.lean ====
section
/-! DEFINITION. Machine/Reads.lean: what a register read answers and clears (R8, R9, R80), DEV_REG_READ, DEV_REG_WRITE
and DEV_INFO (R78, R81), and the write-1-to-clear registers that stand in a window or a block. -/

namespace Sys2Proof.Machine

/-- What the window of a row shows: 0 where it stands in none. A port block's select register is its own. -/
def rowSel (s : State) (r : RegRow) (i : Nat) : Nat :=
  if r.sel = 0 then 0
  else if r.sel = R.PKT_P_SUB_SEL then rgRaw s (r.sel + 0x100 * i)
  else rgRaw s r.sel

/-- The key under which a row's instance is stored. -/
def rowKey (s : State) (r : RegRow) (i : Nat) : Nat :=
  if r.sel = 0 then r.base + r.stride * i else winKey (r.base + r.stride * i) (rowSel s r i)

/-- The registers that show a quantity the device measures as it runs and for which the spec gives no way to
compute the reading (loads, rates, noise, temperatures, counts of corrected bits): read as free values. -/
def measuredRegs : List Nat :=
  [ R.FAB_LINK_RATE, R.FAB_JN_FLITS_VC, R.FAB_JN_DETOUR, R.FAB_JN_STATUS, R.FLU_BANK_LOAD, R.DSX_GRV_LOAD, R.DSX_C_LOAD
  , R.MEM_G_LOAD, R.DMC_CH_STATUS, R.DMC_CH_LOAD, R.PKT_P_BER, R.CIP_LOAD, R.CIP_P_LOAD, R.VCA_LOAD, R.VCA_E_STATUS
  , R.MIX_LOAD, R.MIX_L_TALK, R.MIX_J_LOAD, R.GRV_LOAD, R.VDE_LOAD, R.VDE_REFCOMP, R.VDE_E_STATUS, R.VDE_W_REFCOMP
  , R.CMP_LOAD, R.CMP_E_STATUS, R.VEN_LOAD, R.VEN_E_STATUS, R.LFW_DUP_DISCARD, R.LFW_LOAD, R.LFW_Q_LOAD, R.WMC_LOAD
  , R.WMC_L_AIRTIME, R.WMC_L_TRIGGERS, R.WPH_LOAD, R.WPH_R_NOISE, R.WPH_R_CCA, R.WPH_R_OBSS_PD_TX, R.RAD_DIE_TEMP
  , R.RAD_C_BIAS, R.TMU_XO_MEAS, R.CAP_STAGING, R.CAP_LOAD, R.OTP_ECC_CORRECTED ]

/-- Whether a row's reading takes a free value. -/
def isMeasured (b : Nat) : Bool :=
  measuredRegs.contains b || between R.CAP_S_STATUS R.CAP_S_TAIL b

/-- The whole value of a row's instance at this moment, `m` standing for what is measured. -/
def rowValue (s : State) (r : RegRow) (i m : Nat) : Nat :=
  (viewReg s r.base i (rowSel s r i) m).getD (rgRaw s (rowKey s r i))

/-- The hottest of the sensors that report. -/
def hottest : List (Nat × Int) → Option Int
  | [] => none
  | e :: t => match hottest t with
    | some x => some (max x e.2)
    | none => some e.2

/-- A read of an RC register clears it (R8): a tracker of a quantity present at every moment takes its present value,
any other returns to its reset value. -/
def clearRc (r : RegRow) (i : Nat) (s : State) : State :=
  let sel := rowSel s r i
  let key := rowKey s r i
  if r.base = R.HLT_TJ_MAX then { s with health.tjMax := hottest s.health.temps }
  else if r.base = R.PKT_BUF_MIN_FREE then setRg key (bufFree s) s
  else if r.base = R.FLU_W_MAX_OCC then setRg key ((flueOf s sel).map Flue.occ |>.getD 0) s
  else if r.base = R.DSX_C_DEPTH_MAX then setRg key (coreOf s sel).ready.length s
  else if r.base = R.DSX_GRV_READY_MAX then setRg key (groveDepth s i) s
  else setRg key r.reset s

/-- A read of TMU_TIME_SEC_HI latches the three words after it. -/
def latchTime (s : State) : State :=
  let w := timeWords s.clock.tb
  setRg R.TMU_TIME_FRAC (w.getD 3 0) (setRg R.TMU_TIME_NS (w.getD 2 0) (setRg R.TMU_TIME_SEC (w.getD 1 0) s))

/-- A read of the first word of a row: the value of that word. The second word of a 64-bit register is latched (R9). -/
def readFirst (r : RegRow) (i : Nat) (s : State) : Nat × State :=
  let ms := if isMeasured r.base then takeFree s else (0, s)
  let v := rowValue ms.2 r i ms.1
  let s := ms.2
  let s := if r.words = 2 then { s with latches := Tbl.put s.latches (r.base + r.stride * i) (BitVec.ofNat 32 (v / 2 ^ 32)) } else s
  let s := if r.acc = .rc then clearRc r i s else s
  let s := if r.base = R.TMU_TIME_SEC_HI then latchTime s else s
  (v % 2 ^ 32, s)

/-- A read of BAR0 at an offset (R8, R9, R80): the 32-bit value, and the state after it. A word in no table reads zero (R4),
a write-only register too; the debug window reads its bank (R123). -/
def readReg (off : Nat) (s : State) : Nat × State :=
  if 0x08000000 ≤ off then
    (if off < 0x10000000 then debugRead s (off - 0x08000000) % 2 ^ 32 else 0, s)
  else
    match findReg off with
    | none => (0, s)
    | some (r, i, w) =>
      if r.acc = .wo then (0, s)
      else if w = 1 then ((Tbl.getD s.latches (r.base + r.stride * i) 0).toNat, s)
      else readFirst r i s

/-- A host's read of a register: its data goes out on the port. -/
def hostRead (off : Nat) (s : State) : State :=
  let a := readReg off s
  emit (.readData a.1) a.2

/-- RC_REGISTER_READ (R8, R80). -/
def execRcRegisterRead (offset : Nat) (s : State) : Out := .next (hostRead offset s)

/-- LATCHING_WORD_READ (R9). -/
def execLatchingWordRead (offset : Nat) (s : State) : Out := .next (hostRead offset s)

/-- The registers at a list of offsets are read in order. -/
def readMany : List Nat → State → List Byte × State
  | [], s => ([], s)
  | o :: t, s =>
    let a := readReg o s
    let b := readMany t a.2
    (leN a.1 4 ++ b.1, b.2)

/-- Whether an offset is that of a 32-bit word of BAR0. -/
def aligned (off : Nat) : Bool := decide (off % 4 = 0) && decide (off < 0x10000000)

/-- DEV_REG_READ (R81). -/
def devRegReadPlan (c : Cmd) (_ : State) : Plan :=
  let n := u16 c.params 0
  { op := 0x010B, priv := 0, safe := true, handleOk := handleDev c.handle
    len := some (up8 (8 + 4 * n))
    param := if n = 0 ∨ 1000 < n then some (badParam 0)
      else (List.range n).findSome? fun k => if aligned (u32 c.params (8 + 4 * k)) then none else some (badParam (8 + 4 * k))
    run := fun s =>
      let a := readMany ((List.range n).map fun k => u32 c.params (8 + 4 * k)) s
      .reply a.2 St.OK 0 n a.1 }

/-- DEV_REG_READ (R81). -/
def execDevRegRead (c : Cmd) (s : State) : Out := .next (hostCmd 0x010B devRegReadPlan c s)

/-! ### DEV_REG_WRITE (R81) -/

/-- The failure of entry `k`: a register of another access, or a sealed one. Every SL register is sealed before READY
(R329), so a command finds none unsealed. -/
def regWriteErr (c : Cmd) (k : Nat) : Option Err :=
  if ¬ aligned (u32 c.params (8 + 16 * k)) then some (badParam (8 + 16 * k))
  else match findReg (u32 c.params (8 + 16 * k)) with
  | some (r, _, _) =>
    match r.acc with
    | .rw => none
    | .sl => some ⟨St.NOT_PERMITTED, 3⟩
    | _ => some (badParam (8 + 16 * k))
  | none => some (badParam (8 + 16 * k))

/-- AUTO_SELECT was written: the domain followed is chosen again. -/
def autoChanged (s : State) : State :=
  match choiceNow s with
  | some d =>
    if s.time.intOsc ∨ s.time.state = .unset ∨ s.time.sel = some d then s
    else switchTo d (if autoSelect s then 0 else 1) s
  | none => s

/-- One register takes (reg and not MASK) or (VALUE and MASK); its reserved bits stay (R7). -/
def writeReg (off mask value : Nat) (s : State) : State :=
  match findReg off with
  | none => s
  | some (r, i, _) =>
    let key := rowKey s r i
    let m := Nat.land mask r.mask
    let new := maskedWrite (rgRaw s key) m value
    if r.base = R.HPI_RS_INT_MASK then intMaskWrite i (BitVec.ofNat 32 new) s
    else if r.base = R.TMU_CTRL ∧ rgRaw s key % 2 ≠ new % 2 then autoChanged (setRg key new s)
    else setRg key new s

/-- DEV_REG_WRITE (R81, Table 3-15): the whole packet is checked, then the entries are applied in order. -/
def devRegWritePlan (c : Cmd) (_ : State) : Plan :=
  let n := u16 c.params 0
  { op := 0x0102, priv := 2, safe := true, handleOk := handleDev c.handle, touches := [devH]
    len := some (8 + 16 * n)
    param :=
      if n = 0 ∨ 253 < n then some (badParam 0) else (List.range n).findSome? (regWriteErr c)
    run := fun s => .reply ((List.range n).foldl (fun s k =>
      writeReg (u32 c.params (8 + 16 * k)) (u32 c.params (12 + 16 * k)) (u32 c.params (16 + 16 * k)) s) s) St.OK 0 n [] }

/-- DEV_REG_WRITE (R81). -/
def execDevRegWrite (c : Cmd) (s : State) : Out := .next (hostCmd 0x0102 devRegWritePlan c s)

/-! ### DEV_INFO (R78) -/

/-- DEV_INFO: the part identity, the firmware versions, the port privileges and the floor figures in force; where each
stands in the result is not given. -/
def devInfoPlan (c : Cmd) (_ : State) : Plan :=
  Plan.query 0x0101 true (handleDev c.handle) 8 none fun s =>
    recordAnswer (Config.devInfo ((viewDEV s R.DEV_IDENT 0 0 0).getD 0) s.boot.version ([0, 1, 2, 3].map fun p => (portSt s p).priv)
      (scaleOf s))

/-- DEV_INFO (R78). -/
def execDevInfo (c : Cmd) (s : State) : Out := .next (hostCmd 0x0101 devInfoPlan c s)

/-! ### Write-1-to-clear registers in a window or a block -/

/-- DSX_C_HIST_CLEAR (R115): writing 1 clears the selected core's wait histogram. -/
def histClear (value : Word) (s : State) : State :=
  if bit value.toNat 0 then
    (List.range 16).foldl (fun s k => setRg (winKey (R.DSX_C_WAIT_HIST + 8 * k) (rgRaw s R.DSX_CORE_SEL)) 0 s) s
  else s

/-- DSX_C_HIST_CLEAR (R115). -/
def execDsxCHistClear (value : Word) (s : State) : Out := .next (histClear value s)

/-- TMU_Q_FLAGS_CLEAR (R354). -/
def execTmuQFlagsClear (queue : Nat) (value : Word) (s : State) : Out :=
  .next (if 10 < queue then s
    else setRg (tsqR R.TMU_Q_FLAGS queue) (w1c (rgRaw s (tsqR R.TMU_Q_FLAGS queue)) (value.toNat % 2)) s)

end Sys2Proof.Machine
end

