-- ==== Sys2Proof/Machine/Release.lean ====
section
/-! DEFINITION. Machine/Release.lean: the deadline-release registers of the edge domains (R24–R30). -/

namespace Sys2Proof.Machine

/-- Two entries for one output at one instant collide (R28). -/
def RelEntry.sameSlot (a b : RelEntry) : Bool := a.instant == b.instant && a.what == b.what && a.arg == b.arg && a.user == b.user

/-- The first entry of an edge domain for a user leaves its register; entries that collide with it are discarded and counted. -/
def takeEntry (edge user : Nat) (s : State) : Option RelEntry × State :=
  let l := Tbl.getD s.fab.release edge []
  match l.find? (fun e => e.user == user) with
  | none => (none, s)
  | some e =>
    let same := l.filter e.sameSlot
    let s := { s with fab.release := Tbl.put s.fab.release edge (l.filter fun x => !e.sameSlot x) }
    (some e, (same.drop 1).foldl (fun s x => deadlineMiss edge user 2 0 x.instant s) s)

/-- The radio of a transmit edge (67 + 2r receive, 68 + 2r transmit). -/
def edgeRadio (edge : Nat) : Option Nat := if 67 ≤ edge ∧ edge ≤ 72 ∧ edge % 2 = 0 then some ((edge - 68) / 2) else none

/-- The transmit taps of a radio see what it sends; its bytes are open. -/
def tapSent (r : Nat) (s : State) : State :=
  if s.cap.sessions = [] then s
  else
    let (v, s) := takeFree s
    let (body, s) := freeBytes (v % 2304) s
    let one := fun point (s : State) =>
      tap { rec_ := { kind := 3, point, port := r, time := nowFrac s, origLen := body.length, payload := body } } s
    one 0 (one 1 s)

/-- A radio's next request reaches its release instant; a replayed record that is refused there is late (R374). -/
def releaseRadio (r : Nat) (s : State) : State :=
  match (radioOf s r).requests.head?.map TxReq.what with
  | none => s
  | some (.replay i) =>
    let s := releaseTx r s
    if (radioOf s r).state = .transmit then s else replayLate i 1 (sesOf s i).next s
  | some _ =>
    let s := releaseTx r s
    if (radioOf s r).state = .transmit then tapSent r s else s

/-- The release at the instant, by user (Table 2-1). -/
def releaseUser (edge user : Nat) (e : Option RelEntry) (s : State) : State :=
  match user, e with
  | 1, some e => emit (.signal 0x12 e.arg e.what) s
  | 5, some e => if edge = 94 then emit (.signal 0x15 e.arg 1) s else s
  | _, _ => match edgeRadio edge with
    | some r => releaseRadio r s
    | none => s

/-- The request that a missed entry of a radio would have sent is dropped. -/
def dropRequest (r : Nat) (p : TxWhat → Bool) (s : State) : State :=
  modRadio r (fun x => { x with requests := x.requests.eraseP fun q => p q.what }) s

/-- The default action of a miss (Table 2-1). -/
def missAction (edge user : Nat) (e : Option RelEntry) (s : State) : State :=
  match user with
  | 0 => match edgeRadio edge with
    | some r => dropRequest r (· == .response) s
    | none => s
  | 1 => match e with
    | some e => emit (.signal 0x12 e.arg 1) s
    | none => s
  | 3 => if 51 ≤ edge ∧ edge ≤ 66 then bump (aspKey R.ASP_P_UNDERRUN ((edge - 51) / 2)) s else s
  | 4 =>
    if edge < 16 then
      let (v, s) := takeFree s
      tsInsert (edge / 2) (v % 65536) (4 * (edge / 2)) 1 s
    else s
  | 5 =>
    let late := fun i (s : State) => replayLate i 0 (sesOf s i).next s
    match edgeRadio edge, e with
    | some r, _ => match (radioOf s r).requests.findSome? (fun q => match q.what with | .replay i => some i | _ => none) with
      | some i => late i (dropRequest r (· == .replay i) s)
      | none => s
    | none, some e => if e.data = [] then s else late (u8 e.data 0) s
    | none, none => s
  | _ => s

/-- DEADLINE_RELEASE (R25–R29): while the clock is stopped entries wait; an entry complete at least 4 cycles before its instant is
released there; another gets the default action, and the miss is counted. -/
def deadlineRelease (v : Deadline) (s : State) : State :=
  if 96 ≤ v.edge ∨ v.stopped ∨ 5 < v.user then s
  else
    let (e, s) := takeEntry v.edge v.user s
    let s := match e with
      | some e => tickToNs e.instant s
      | none => s
    match v.lead with
    | some l =>
      if 4 ≤ l then
        releaseUser v.edge v.user e (trackMin (winKey R.FAB_EDGE_LEAD_MIN v.edge) ((l.toNat - 4) * v.periodPs / 1000) s)
      else missAction v.edge v.user e (deadlineMiss v.edge v.user 0 v.lateNs (nowNs s) s)
    | none => missAction v.edge v.user e (deadlineMiss v.edge v.user 1 0xFFFFFFFF (nowNs s) s)

def execDeadlineRelease (v : Deadline) (s : State) : Out := .next (deadlineRelease v s)

end Sys2Proof.Machine
end

