-- ==== Sys2Proof/Machine/Timed.lean ====
section
/-! DEFINITION. Machine/Timed.lean: the plan of every opcode, and the start of a waiting TIMED command (R60, R61, R384). -/

namespace Sys2Proof.Machine

/-- The plan of an opcode of Table 3-13 on a command. -/
def planOf (op : Nat) (c : Cmd) (s : State) : Option Plan :=
  match op with
  | 0x0101 => some (devInfoPlan c s)
  | 0x0102 => some (devRegWritePlan c s)
  | 0x0103 => some (devAbortPlan c s)
  | 0x0104 => some (queryProgressPlan c s)
  | 0x0105 => some (leaseAcquirePlan c s)
  | 0x0106 => some (leaseRenewPlan c s)
  | 0x0107 => some (leaseReleasePlan c s)
  | 0x0108 => some (leaseBreakPlan c s)
  | 0x0109 => some (eventRoutePlan c s)
  | 0x010A => some (portPrivPlan c s)
  | 0x010B => some (devRegReadPlan c s)
  | 0x010C => some (echoPlan c s)
  | 0x010D => some (devResetPlan c s)
  | 0x0201 => some (legCreatePlan c s)
  | 0x0202 => some (legStartPlan c s)
  | 0x0203 => some (legModifyPlan c s)
  | 0x0204 => some (legHoldPlan c s)
  | 0x0205 => some (legResumePlan c s)
  | 0x0206 => some (legClosePlan c s)
  | 0x0207 => some (legQueryPlan c s)
  | 0x0301 => some (confCreatePlan c s)
  | 0x0302 => some (confJoinPlan c s)
  | 0x0303 => some (confLeavePlan c s)
  | 0x0304 => some (confClosePlan c s)
  | 0x0305 => some (confQueryPlan c s)
  | 0x0310 => some (mixPlanPlan c s)
  | 0x0311 => some (mixRolePlan c s)
  | 0x0312 => some (mixRoutePlan c s)
  | 0x0313 => some (mixParamPlan c s)
  | 0x0314 => some (mixQueryPlan c s)
  | 0x0401 => some (aspConfigPlan c s)
  | 0x0402 => some (aspStartPlan c s)
  | 0x0403 => some (aspStopPlan c s)
  | 0x0404 => some (aspMaskPlan c s)
  | 0x0405 => some (aspArmPlan c s)
  | 0x0406 => some (aspQueryPlan c s)
  | 0x0501 => some (dspLoadPlan c s)
  | 0x0502 => some (taskCreatePlan c s)
  | 0x0503 => some (taskBindPlan c s)
  | 0x0504 => some (taskParamPlan c s)
  | 0x0505 => some (taskDeletePlan c s)
  | 0x0506 => some (dspQueryPlan c s)
  | 0x0601 => some (decCreatePlan c s)
  | 0x0602 => some (decModifyPlan c s)
  | 0x0603 => some (decDeletePlan c s)
  | 0x0604 => some (decQueryPlan c s)
  | 0x0701 => some (cmpCreatePlan c s)
  | 0x0702 => some (cmpLayoutPlan c s)
  | 0x0703 => some (cmpTilePlan c s)
  | 0x0704 => some (cmpOverlayPlan c s)
  | 0x0705 => some (cmpDeletePlan c s)
  | 0x0706 => some (cmpQueryPlan c s)
  | 0x0801 => some (encCreatePlan c s)
  | 0x0802 => some (encModifyPlan c s)
  | 0x0803 => some (encKeyPlan c s)
  | 0x0804 => some (encDeletePlan c s)
  | 0x0805 => some (encQueryPlan c s)
  | 0x0901 => some (fwdPolicyPlan c s)
  | 0x0902 => some (fwdSetPlan c s)
  | 0x0903 => some (fwdQueryPlan c s)
  | 0x0904 => some (bweQueryPlan c s)
  | 0x0A01 => some (portConfigPlan c s)
  | 0x0A02 => some (portQueryPlan c s)
  | 0x0A03 => some (flowInstallPlan c s)
  | 0x0A04 => some (flowModifyPlan c s)
  | 0x0A05 => some (flowRemovePlan c s)
  | 0x0A06 => some (flowQueryPlan c s)
  | 0x0A07 => some (routeSetPlan c s)
  | 0x0A08 => some (natSetPlan c s)
  | 0x0A09 => some (aclSetPlan c s)
  | 0x0B01 => some (keyWritePlan c s)
  | 0x0B02 => some (keyErasePlan c s)
  | 0x0B03 => some (keyQueryPlan c s)
  | 0x0B04 => some (macsecSaPlan c s)
  | 0x0B05 => some (cipQueryPlan c s)
  | 0x0C01 => some (wlanRolePlan c s)
  | 0x0C02 => some (bssCreatePlan c s)
  | 0x0C03 => some (bssDeletePlan c s)
  | 0x0C04 => some (staAdmitPlan c s)
  | 0x0C05 => some (staRemovePlan c s)
  | 0x0C06 => some (staQueryPlan c s)
  | 0x0C07 => some (twtSetPlan c s)
  | 0x0C08 => some (wurSetPlan c s)
  | 0x0C09 => some (scanStartPlan c s)
  | 0x0D01 => some (radioStatePlan c s)
  | 0x0D02 => some (radioChannelPlan c s)
  | 0x0D03 => some (radioPowerPlan c s)
  | 0x0D04 => some (radioCalPlan c s)
  | 0x0D05 => some (femConfigPlan c s)
  | 0x0D06 => some (radioQueryPlan c s)
  | 0x0E01 => some (timeDomainPlan c s)
  | 0x0E02 => some (timeSelectPlan c s)
  | 0x0E03 => some (timeStepPlan c s)
  | 0x0E04 => some (tsQueueReadPlan c s)
  | 0x0E05 => some (ppsConfigPlan c s)
  | 0x0E06 => some (timeQueryPlan c s)
  | 0x0F01 => some (capSessionPlan c s)
  | 0x0F02 => some (capFilterPlan c s)
  | 0x0F03 => some (capTriggerPlan c s)
  | 0x0F04 => some (capStartPlan c s)
  | 0x0F05 => some (capStopPlan c s)
  | 0x0F06 => some (capReadoutPlan c s)
  | 0x0F07 => some (replayLoadPlan c s)
  | 0x0F08 => some (replayStartPlan c s)
  | 0x0F09 => some (replayStopPlan c s)
  | 0x0F0A => some (capQueryPlan c s)
  | 0x1001 => some (pwrStatePlan c s)
  | 0x1002 => some (pwrWakePlan c s)
  | 0x1003 => some (pwrQueryPlan c s)
  | 0x1004 => some (hltQueryPlan c s)
  | 0x1005 => some (hltMarginPlan c s)
  | 0x1006 => some (hltSparePlan c s)
  | 0x1101 => some (fwLoadPlan c s)
  | 0x1102 => some (fwActivatePlan c s)
  | 0x1103 => some (fwAcceptPlan c s)
  | 0x1104 => some (fwQueryPlan c s)
  | 0x1105 => some (otpReadPlan c s)
  | 0x1106 => some (otpProgramPlan c s)
  | 0x1201 => some (memPoolAssignPlan c s)
  | 0x1202 => some (dramRegionCreatePlan c s)
  | 0x1203 => some (dramRegionDeletePlan c s)
  | 0x1204 => some (dramTrainPlan c s)
  | 0x1205 => some (dramQueryPlan c s)
  | 0x1206 => some (flueCreatePlan c s)
  | 0x1207 => some (flueDeletePlan c s)
  | 0x1208 => some (flueQueryPlan c s)
  | 0x1209 => some (dbgWindowPlan c s)
  | _ => none

/-- EXEC_AT as an instant in ns, the one nearest the present time (R60). -/
def timedNs (s : State) (e : OutCmd) : Nat := (nearestNs s e.cmd.execAt.toNat).toNat

/-- The waiting TIMED command that starts next: by EXEC_AT, in the order of fetching at an equal one (R60, R61). -/
def nextTimed (s : State) : Option OutCmd :=
  (s.host.cmds.filter fun e => e.phase == .waitingTime).foldl (fun m e =>
    match m with
    | none => some e
    | some x => if timedNs s e < timedNs s x ∨ (timedNs s e = timedNs s x ∧ e.seq < x.seq) then some e else some x) none

/-- Whether TIMED commands start now: they wait through EMBER (R384). -/
def timedRuns (s : State) : Bool :=
  s.boot.ready && (s.power.state == .active || (s.power.state == .entering && decide (s.power.step ≤ 2)))

/-- TIMED_COMMAND_START (R60): the timebase reaches EXEC_AT and the command starts, every check of R58 running again. -/
def timedStart (s : State) : State :=
  if ¬ timedRuns s then s
  else
    match nextTimed s with
    | none => s
    | some e =>
      let s := tick 1 (tickToNs (timedNs s e) s)
      match planOf e.opcode e.cmd s with
      | some p => runPlan p e s
      | none => s

/-- TIMED_COMMAND_START (R60). -/
def execTimedCommandStart (s : State) : Out := .next (timedStart s)

end Sys2Proof.Machine
end

