-- ==== Sys2Proof/Machine/Dispatch.lean ====
section
/-! DEFINITION. Machine/Dispatch.lean: one arm per command of the table, each a call of its meaning. -/

namespace Sys2Proof.Machine

def exec (i : Instr) (s : State) : Host.Outcome State Fault Refusal :=
  match i with
  | .commandFetch p => Sys2Proof.Machine.execCommandFetch p s
  | .timedCommandStart => Sys2Proof.Machine.execTimedCommandStart s
  | .devInfo c => Sys2Proof.Machine.execDevInfo c s
  | .devRegWrite c => Sys2Proof.Machine.execDevRegWrite c s
  | .devAbort c => Sys2Proof.Machine.execDevAbort c s
  | .queryProgress c => Sys2Proof.Machine.execQueryProgress c s
  | .leaseAcquire c => Sys2Proof.Machine.execLeaseAcquire c s
  | .leaseRenew c => Sys2Proof.Machine.execLeaseRenew c s
  | .leaseRelease c => Sys2Proof.Machine.execLeaseRelease c s
  | .leaseBreak c => Sys2Proof.Machine.execLeaseBreak c s
  | .devEventRoute c => Sys2Proof.Machine.execDevEventRoute c s
  | .devPortPriv c => Sys2Proof.Machine.execDevPortPriv c s
  | .devRegRead c => Sys2Proof.Machine.execDevRegRead c s
  | .devEcho c => Sys2Proof.Machine.execDevEcho c s
  | .devReset c => Sys2Proof.Machine.execDevReset c s
  | .commandResetStart => Sys2Proof.Machine.execCommandResetStart s
  | .ringSetEnable writer port addr d => Sys2Proof.Machine.execRingSetEnable writer port addr d s
  | .ringSetDisable writer port addr d => Sys2Proof.Machine.execRingSetDisable writer port addr d s
  | .ringSetDrained rs => Sys2Proof.Machine.execRingSetDrained rs s
  | .sqTailDoorbell port rs tail => Sys2Proof.Machine.execSqTailDoorbell port rs tail s
  | .rplHeadDoorbell port rs head => Sys2Proof.Machine.execRplHeadDoorbell port rs head s
  | .evtHeadDoorbell port rs head => Sys2Proof.Machine.execEvtHeadDoorbell port rs head s
  | .hpiRsIntMaskWrite rs value => Sys2Proof.Machine.execHpiRsIntMaskWrite rs value s
  | .hpiRsIntStatusClear rs value => Sys2Proof.Machine.execHpiRsIntStatusClear rs value s
  | .intHoldoffExpiry rs vec => Sys2Proof.Machine.execIntHoldoffExpiry rs vec s
  | .devAlarmClear value => Sys2Proof.Machine.execDevAlarmClear value s
  | .otpResetCauseClear value => Sys2Proof.Machine.execOtpResetCauseClear value s
  | .fabMissSumClear index value => Sys2Proof.Machine.execFabMissSumClear index value s
  | .dsxCHistClear value => Sys2Proof.Machine.execDsxCHistClear value s
  | .tmuQFlagsClear queue value => Sys2Proof.Machine.execTmuQFlagsClear queue value s
  | .selectRegisterWrite offset value => Sys2Proof.Machine.execSelectRegisterWrite offset value s
  | .ignoredDirectWrite port offset value => Sys2Proof.Machine.execIgnoredDirectWrite port offset value s
  | .rcRegisterRead offset => Sys2Proof.Machine.execRcRegisterRead offset s
  | .latchingWordRead offset => Sys2Proof.Machine.execLatchingWordRead offset s
  | .bar2Access port offset write data count => Sys2Proof.Machine.execBar2Access port offset write data count s
  | .bar2MapSwitch port => Sys2Proof.Machine.execBar2MapSwitch port s
  | .leaseExpired id => Sys2Proof.Machine.execLeaseExpired id s
  | .legCreate c => Sys2Proof.Machine.execLegCreate c s
  | .legStart c => Sys2Proof.Machine.execLegStart c s
  | .legModify c => Sys2Proof.Machine.execLegModify c s
  | .legHold c => Sys2Proof.Machine.execLegHold c s
  | .legResume c => Sys2Proof.Machine.execLegResume c s
  | .legClose c => Sys2Proof.Machine.execLegClose c s
  | .legDrainComplete leg => Sys2Proof.Machine.execLegDrainComplete leg s
  | .legQuery c => Sys2Proof.Machine.execLegQuery c s
  | .confCreate c => Sys2Proof.Machine.execConfCreate c s
  | .confJoin c => Sys2Proof.Machine.execConfJoin c s
  | .confLeave c => Sys2Proof.Machine.execConfLeave c s
  | .confClose c => Sys2Proof.Machine.execConfClose c s
  | .confQuery c => Sys2Proof.Machine.execConfQuery c s
  | .mixPlanSet c => Sys2Proof.Machine.execMixPlanSet c s
  | .mixRoleSet c => Sys2Proof.Machine.execMixRoleSet c s
  | .mixRouteSet c => Sys2Proof.Machine.execMixRouteSet c s
  | .mixParamLoad c => Sys2Proof.Machine.execMixParamLoad c s
  | .mixQuery c => Sys2Proof.Machine.execMixQuery c s
  | .blockBoundary inputs => Sys2Proof.Machine.execBlockBoundary inputs s
  | .jbRelease leg => Sys2Proof.Machine.execJbRelease leg s
  | .jbTargetRecompute leg => Sys2Proof.Machine.execJbTargetRecompute leg s
  | .voiceDecodeFrame v => Sys2Proof.Machine.execVoiceDecodeFrame v s
  | .voiceEncodeFrame conf cls member => Sys2Proof.Machine.execVoiceEncodeFrame conf cls member s
  | .aspConfig c => Sys2Proof.Machine.execAspConfig c s
  | .aspStart c => Sys2Proof.Machine.execAspStart c s
  | .aspStop c => Sys2Proof.Machine.execAspStop c s
  | .aspMaskSet c => Sys2Proof.Machine.execAspMaskSet c s
  | .aspTriggerArm c => Sys2Proof.Machine.execAspTriggerArm c s
  | .aspQuery c => Sys2Proof.Machine.execAspQuery c s
  | .aspStartInstant port => Sys2Proof.Machine.execAspStartInstant port s
  | .aspFrame f => Sys2Proof.Machine.execAspFrame f s
  | .aspClockLost port => Sys2Proof.Machine.execAspClockLost port s
  | .aspHoldFade port => Sys2Proof.Machine.execAspHoldFade port s
  | .aspRateChange port => Sys2Proof.Machine.execAspRateChange port s
  | .aspConverged port => Sys2Proof.Machine.execAspConverged port s
  | .aspNoClock port => Sys2Proof.Machine.execAspNoClock port s
  | .aspStopComplete port => Sys2Proof.Machine.execAspStopComplete port s
  | .aspPinFault port pin cause => Sys2Proof.Machine.execAspPinFault port pin cause s
  | .aspPinRetry port pin clear => Sys2Proof.Machine.execAspPinRetry port pin clear s
  | .trigInEdge input edge => Sys2Proof.Machine.execTrigInEdge input edge s
  | .dspLoad c => Sys2Proof.Machine.execDspLoad c s
  | .dspTaskCreate c => Sys2Proof.Machine.execDspTaskCreate c s
  | .dspTaskBind c => Sys2Proof.Machine.execDspTaskBind c s
  | .dspTaskParam c => Sys2Proof.Machine.execDspTaskParam c s
  | .dspTaskDelete c => Sys2Proof.Machine.execDspTaskDelete c s
  | .dspQuery c => Sys2Proof.Machine.execDspQuery c s
  | .taskDispatch target loads => Sys2Proof.Machine.execTaskDispatch target loads s
  | .bundleIssue core => Sys2Proof.Machine.execBundleIssue core s
  | .spGoPop core slot => Sys2Proof.Machine.execSpGoPop core slot s
  | .spGoPush core slot => Sys2Proof.Machine.execSpGoPush core slot s
  | .streamCommandComplete core => Sys2Proof.Machine.execStreamCommandComplete core s
  | .coreMigration core => Sys2Proof.Machine.execCoreMigration core s
  | .push flue producer item copyB => Sys2Proof.Machine.execPush flue producer item copyB s
  | .abandon flue producer copyB => Sys2Proof.Machine.execAbandon flue producer copyB s
  | .pop flue consumer copyB => Sys2Proof.Machine.execPop flue consumer copyB s
  | .peek flue consumer copyB => Sys2Proof.Machine.execPeek flue consumer copyB s
  | .dropRemainder flue consumer copyB => Sys2Proof.Machine.execDropRemainder flue consumer copyB s
  | .commit flue consumer copyB => Sys2Proof.Machine.execCommit flue consumer copyB s
  | .rewind flue consumer copyB => Sys2Proof.Machine.execRewind flue consumer copyB s
  | .flueResetComplete flue => Sys2Proof.Machine.execFlueResetComplete flue s
  | .flueOpenTimeout flue => Sys2Proof.Machine.execFlueOpenTimeout flue s
  | .flueCreate c => Sys2Proof.Machine.execFlueCreate c s
  | .flueDelete c => Sys2Proof.Machine.execFlueDelete c s
  | .flueQuery c => Sys2Proof.Machine.execFlueQuery c s
  | .memPoolAssign c => Sys2Proof.Machine.execMemPoolAssign c s
  | .dramRegionCreate c => Sys2Proof.Machine.execDramRegionCreate c s
  | .dramRegionDelete c => Sys2Proof.Machine.execDramRegionDelete c s
  | .dramTrain c => Sys2Proof.Machine.execDramTrain c s
  | .dramQuery c => Sys2Proof.Machine.execDramQuery c s
  | .dbgWindowSet c => Sys2Proof.Machine.execDbgWindowSet c s
  | .sramWordAccess bank offset write badBits => Sys2Proof.Machine.execSramWordAccess bank offset write badBits s
  | .sramScrub bank row corrected uncorrectable => Sys2Proof.Machine.execSramScrub bank row corrected uncorrectable s
  | .dramRequest r => Sys2Proof.Machine.execDramRequest r s
  | .rowIdleClose ch bank => Sys2Proof.Machine.execRowIdleClose ch bank s
  | .perBankRefresh ch bank burst => Sys2Proof.Machine.execPerBankRefresh ch bank burst s
  | .patrolScrub ch region offset ecc => Sys2Proof.Machine.execPatrolScrub ch region offset ecc s
  | .wckTracking ch drift temp linkEcc => Sys2Proof.Machine.execWckTracking ch drift temp linkEcc s
  | .retrainSlice ch last caOk readEye writeEye => Sys2Proof.Machine.execRetrainSlice ch last caOk readEye writeEye s
  | .dramSetpoint ch sp stallNs => Sys2Proof.Machine.execDramSetpoint ch sp stallNs s
  | .dramMirrorRestored region slot copyMs => Sys2Proof.Machine.execDramMirrorRestored region slot copyMs s
  | .portConfig c => Sys2Proof.Machine.execPortConfig c s
  | .portQuery c => Sys2Proof.Machine.execPortQuery c s
  | .flowInstall c => Sys2Proof.Machine.execFlowInstall c s
  | .flowModify c => Sys2Proof.Machine.execFlowModify c s
  | .flowRemove c => Sys2Proof.Machine.execFlowRemove c s
  | .flowQuery c => Sys2Proof.Machine.execFlowQuery c s
  | .routeSet c => Sys2Proof.Machine.execRouteSet c s
  | .natSet c => Sys2Proof.Machine.execNatSet c s
  | .aclSet c => Sys2Proof.Machine.execAclSet c s
  | .flowRehashEnd => Sys2Proof.Machine.execFlowRehashEnd s
  | .routeChangeDrain flow => Sys2Proof.Machine.execRouteChangeDrain flow s
  | .ethFrameReceive f => Sys2Proof.Machine.execEthFrameReceive f s
  | .connExpiry flow => Sys2Proof.Machine.execConnExpiry flow s
  | .ethLink iface up cause lanes => Sys2Proof.Machine.execEthLink iface up cause lanes s
  | .keyWrite c => Sys2Proof.Machine.execKeyWrite c s
  | .keyErase c => Sys2Proof.Machine.execKeyErase c s
  | .keyQuery c => Sys2Proof.Machine.execKeyQuery c s
  | .macsecSaSet c => Sys2Proof.Machine.execMacsecSaSet c s
  | .cipQuery c => Sys2Proof.Machine.execCipQuery c s
  | .keyGenerationZeroise slot gen => Sys2Proof.Machine.execKeyGenerationZeroise slot gen s
  | .keyHoldEnd slot => Sys2Proof.Machine.execKeyHoldEnd slot s
  | .cipherOperation o => Sys2Proof.Machine.execCipherOperation o s
  | .decCreate c => Sys2Proof.Machine.execDecCreate c s
  | .decModify c => Sys2Proof.Machine.execDecModify c s
  | .decDelete c => Sys2Proof.Machine.execDecDelete c s
  | .decQuery c => Sys2Proof.Machine.execDecQuery c s
  | .pictureDecode v => Sys2Proof.Machine.execPictureDecode v s
  | .reorderTimeout stream => Sys2Proof.Machine.execReorderTimeout stream s
  | .keyRequestSend leg slot => Sys2Proof.Machine.execKeyRequestSend leg slot s
  | .firRepeat stream => Sys2Proof.Machine.execFirRepeat stream s
  | .decNoKey stream => Sys2Proof.Machine.execDecNoKey stream s
  | .cmpCreate c => Sys2Proof.Machine.execCmpCreate c s
  | .cmpLayoutSet c => Sys2Proof.Machine.execCmpLayoutSet c s
  | .cmpTileSet c => Sys2Proof.Machine.execCmpTileSet c s
  | .cmpOverlaySet c => Sys2Proof.Machine.execCmpOverlaySet c s
  | .cmpDelete c => Sys2Proof.Machine.execCmpDelete c s
  | .cmpQuery c => Sys2Proof.Machine.execCmpQuery c s
  | .compositionInstant comp takesUs => Sys2Proof.Machine.execCompositionInstant comp takesUs s
  | .cmpSourceLost comp tile => Sys2Proof.Machine.execCmpSourceLost comp tile s
  | .encCreate c => Sys2Proof.Machine.execEncCreate c s
  | .encModify c => Sys2Proof.Machine.execEncModify c s
  | .encKeyPicture c => Sys2Proof.Machine.execEncKeyPicture c s
  | .encDelete c => Sys2Proof.Machine.execEncDelete c s
  | .encQuery c => Sys2Proof.Machine.execEncQuery c s
  | .encodePicture v => Sys2Proof.Machine.execEncodePicture v s
  | .fwdPolicySet c => Sys2Proof.Machine.execFwdPolicySet c s
  | .fwdSetModify c => Sys2Proof.Machine.execFwdSetModify c s
  | .fwdQuery c => Sys2Proof.Machine.execFwdQuery c s
  | .bweQuery c => Sys2Proof.Machine.execBweQuery c s
  | .bweEvaluation => Sys2Proof.Machine.execBweEvaluation s
  | .layerSwitch leg entry p => Sys2Proof.Machine.execLayerSwitch leg entry p s
  | .pacingSend leg => Sys2Proof.Machine.execPacingSend leg s
  | .fwdBacklog leg => Sys2Proof.Machine.execFwdBacklog leg s
  | .fwdWaitKey leg entry => Sys2Proof.Machine.execFwdWaitKey leg entry s
  | .senderReport leg => Sys2Proof.Machine.execSenderReport leg s
  | .wlanRoleSet c => Sys2Proof.Machine.execWlanRoleSet c s
  | .bssCreate c => Sys2Proof.Machine.execBssCreate c s
  | .bssDelete c => Sys2Proof.Machine.execBssDelete c s
  | .staAdmit c => Sys2Proof.Machine.execStaAdmit c s
  | .staRemove c => Sys2Proof.Machine.execStaRemove c s
  | .staQuery c => Sys2Proof.Machine.execStaQuery c s
  | .twtSet c => Sys2Proof.Machine.execTwtSet c s
  | .wurSet c => Sys2Proof.Machine.execWurSet c s
  | .scanStart c => Sys2Proof.Machine.execScanStart c s
  | .wlanPpduReceive p => Sys2Proof.Machine.execWlanPpduReceive p s
  | .reorderHoldTimeout sta tid => Sys2Proof.Machine.execReorderHoldTimeout sta tid s
  | .staProgressTimeout sta => Sys2Proof.Machine.execStaProgressTimeout sta s
  | .staRequestTimeout sta => Sys2Proof.Machine.execStaRequestTimeout sta s
  | .staIdleProbe sta acked => Sys2Proof.Machine.execStaIdleProbe sta acked s
  | .staLeave sta => Sys2Proof.Machine.execStaLeave sta s
  | .dlTxopSchedule radio ac served => Sys2Proof.Machine.execDlTxopSchedule radio ac served s
  | .twtServicePeriod sta id frame => Sys2Proof.Machine.execTwtServicePeriod sta id frame s
  | .unreachHoldExpiry sta => Sys2Proof.Machine.execUnreachHoldExpiry sta s
  | .channelSwitchMove radio => Sys2Proof.Machine.execChannelSwitchMove radio s
  | .bssColourChange bss radio colour => Sys2Proof.Machine.execBssColourChange bss radio colour s
  | .handshakeRetry sta => Sys2Proof.Machine.execHandshakeRetry sta s
  | .gtkRekey bss => Sys2Proof.Machine.execGtkRekey bss s
  | .beaconTransmit bss radio => Sys2Proof.Machine.execBeaconTransmit bss radio s
  | .wurBeacon => Sys2Proof.Machine.execWurBeacon s
  | .wurWakeSend sta answered => Sys2Proof.Machine.execWurWakeSend sta answered s
  | .wurWakeFail sta => Sys2Proof.Machine.execWurWakeFail sta s
  | .beaconLoss sta radio => Sys2Proof.Machine.execBeaconLoss sta radio s
  | .radioStateSet c => Sys2Proof.Machine.execRadioStateSet c s
  | .radioChannelSet c => Sys2Proof.Machine.execRadioChannelSet c s
  | .radioPowerSet c => Sys2Proof.Machine.execRadioPowerSet c s
  | .radioCal c => Sys2Proof.Machine.execRadioCal c s
  | .femConfig c => Sys2Proof.Machine.execFemConfig c s
  | .radioQuery c => Sys2Proof.Machine.execRadioQuery c s
  | .synthLock radio v => Sys2Proof.Machine.execSynthLock radio v s
  | .transmitRequest radio earliest latest kind index => Sys2Proof.Machine.execTransmitRequest radio earliest latest kind index s
  | .transmitEnd radio m => Sys2Proof.Machine.execTransmitEnd radio m s
  | .synthUnlock radio => Sys2Proof.Machine.execSynthUnlock radio s
  | .clearing radio free temp => Sys2Proof.Machine.execClearing radio free temp s
  | .calibrationComplete radio v => Sys2Proof.Machine.execCalibrationComplete radio v s
  | .aerialProbe chain rl => Sys2Proof.Machine.execAerialProbe chain rl s
  | .biasFault chain => Sys2Proof.Machine.execBiasFault chain s
  | .biasRetry chain ok => Sys2Proof.Machine.execBiasRetry chain ok s
  | .wurFrameAccept fcsOk id rssi => Sys2Proof.Machine.execWurFrameAccept fcsOk id rssi s
  | .timeDomainSet c => Sys2Proof.Machine.execTimeDomainSet c s
  | .timeSelect c => Sys2Proof.Machine.execTimeSelect c s
  | .timeStep c => Sys2Proof.Machine.execTimeStep c s
  | .tsQueueRead c => Sys2Proof.Machine.execTsQueueRead c s
  | .ppsConfig c => Sys2Proof.Machine.execPpsConfig c s
  | .timeQuery c => Sys2Proof.Machine.execTimeQuery c s
  | .domainTimeout dom announce => Sys2Proof.Machine.execDomainTimeout dom announce s
  | .domainTakeover dom => Sys2Proof.Machine.execDomainTakeover dom s
  | .slewComplete => Sys2Proof.Machine.execSlewComplete s
  | .refclkLost cause => Sys2Proof.Machine.execRefclkLost cause s
  | .refclkRestored => Sys2Proof.Machine.execRefclkRestored s
  | .ppsOutEdge => Sys2Proof.Machine.execPpsOutEdge s
  | .ppsInEdge => Sys2Proof.Machine.execPpsInEdge s
  | .tsQueueInsert queue id port flags => Sys2Proof.Machine.execTsQueueInsert queue id port flags s
  | .capSessionCreate c => Sys2Proof.Machine.execCapSessionCreate c s
  | .capFilterSet c => Sys2Proof.Machine.execCapFilterSet c s
  | .capTriggerSet c => Sys2Proof.Machine.execCapTriggerSet c s
  | .capStart c => Sys2Proof.Machine.execCapStart c s
  | .capStop c => Sys2Proof.Machine.execCapStop c s
  | .capReadout c => Sys2Proof.Machine.execCapReadout c s
  | .replayLoad c => Sys2Proof.Machine.execReplayLoad c s
  | .replayStart c => Sys2Proof.Machine.execReplayStart c s
  | .replayStop c => Sys2Proof.Machine.execReplayStop c s
  | .capQuery c => Sys2Proof.Machine.execCapQuery c s
  | .captureTriggerInstant session => Sys2Proof.Machine.execCaptureTriggerInstant session s
  | .replayPrefetch session => Sys2Proof.Machine.execReplayPrefetch session s
  | .replayRecordSend session missed radioRefused delayUs => Sys2Proof.Machine.execReplayRecordSend session missed radioRefused delayUs s
  | .fwLoad c => Sys2Proof.Machine.execFwLoad c s
  | .fwActivate c => Sys2Proof.Machine.execFwActivate c s
  | .fwAcceptUntested c => Sys2Proof.Machine.execFwAcceptUntested c s
  | .fwQuery c => Sys2Proof.Machine.execFwQuery c s
  | .otpRead c => Sys2Proof.Machine.execOtpRead c s
  | .otpProgram c => Sys2Proof.Machine.execOtpProgram c s
  | .resetPin lowNs => Sys2Proof.Machine.execResetPin lowNs s
  | .powerOn => Sys2Proof.Machine.execPowerOn s
  | .brownOut rail us => Sys2Proof.Machine.execBrownOut rail us s
  | .watchdog stuckMs => Sys2Proof.Machine.execWatchdog stuckMs s
  | .kindlingBoot v => Sys2Proof.Machine.execKindlingBoot v s
  | .supplyRecheck vmon => Sys2Proof.Machine.execSupplyRecheck vmon s
  | .portLink port up lanes gen => Sys2Proof.Machine.execPortLink port up lanes gen s
  | .deadlineRelease d => Sys2Proof.Machine.execDeadlineRelease d s
  | .fabLinkFault junction dir link cause => Sys2Proof.Machine.execFabLinkFault junction dir link cause s
  | .fabJunctionFault junction => Sys2Proof.Machine.execFabJunctionFault junction s
  | .fabRerouteDone junctions ns => Sys2Proof.Machine.execFabRerouteDone junctions ns s
  | .fabDamperLong junction vc => Sys2Proof.Machine.execFabDamperLong junction vc s
  | .pwrStateSet c => Sys2Proof.Machine.execPwrStateSet c s
  | .pwrWakeSet c => Sys2Proof.Machine.execPwrWakeSet c s
  | .pwrQuery c => Sys2Proof.Machine.execPwrQuery c s
  | .hltQuery c => Sys2Proof.Machine.execHltQuery c s
  | .hltMarginQuery c => Sys2Proof.Machine.execHltMarginQuery c s
  | .hltSpareQuery c => Sys2Proof.Machine.execHltSpareQuery c s
  | .entryStepComplete fault => Sys2Proof.Machine.execEntryStepComplete fault s
  | .drainTimeout => Sys2Proof.Machine.execDrainTimeout s
  | .pwrWakeEvent source => Sys2Proof.Machine.execPwrWakeEvent source s
  | .wakeStepReady lostBanks memTemp => Sys2Proof.Machine.execWakeStepReady lostBanks memTemp s
  | .wakeStepTimeout => Sys2Proof.Machine.execWakeStepTimeout s
  | .thermalHigh sensor reading => Sys2Proof.Machine.execThermalHigh sensor reading s
  | .thermalTrip sensor reading => Sys2Proof.Machine.execThermalTrip sensor reading s
  | .marginPlan rates floorRate headroom => Sys2Proof.Machine.execMarginPlan rates floorRate headroom s
  | .canaryMeasure rates => Sys2Proof.Machine.execCanaryMeasure rates s
  | .engineSelftest subsys engine pass => Sys2Proof.Machine.execEngineSelftest subsys engine pass s
  | .engineMigrated subsys engine cause takeoverUs => Sys2Proof.Machine.execEngineMigrated subsys engine cause takeoverUs s
  | .supplyFault rail mv us => Sys2Proof.Machine.execSupplyFault rail mv us s
  | .synthRelockTimeout radio => Sys2Proof.Machine.execSynthRelockTimeout radio s
  | .scanDone radio found => Sys2Proof.Machine.execScanDone radio found s

end Sys2Proof.Machine
end

