-- ==== Sys2Proof/Machine/Idle.lean ====
section
/-! DEFINITION. Machine/Idle.lean: what a step does on an empty queue: one cycle of the 307.2 MHz edge clock passes. -/

namespace Sys2Proof.Machine

/-- One cycle passes with no command waiting; a PORT_CONFIG whose 2 s end is answered. -/
def idle (s : State) : State := portTimeouts (tick 1 s)

end Sys2Proof.Machine
end

