-- ==== Sys2Proof/Safety.lean ====
section
/-! DEFINITION. Safety.lean: the terms in which statements speak of a run: when a host command runs now,
the state it leaves, what a command that is turned away may still change, and the fuse store that
only grows. -/

namespace Sys2Proof.Machine

/-! ### A host command that runs now -/

/-- The state in which a command row finds its packet: fetched, or fetched now where R52 allows. -/
def fetchedFor (op : Nat) (c : Cmd) (s : State) : State :=
  if (queuedEntry op c s).isNone && fetchAllowed s c.rs then addEntry op c s else s

/-- The state at which a fetched command starts: its cycle has passed and it counts as RUNNING. -/
def startedAs (p : Plan) (e : OutCmd) (s : State) : State :=
  modEntry e.seq (fun e => { e with phase := .running, total := unitsOf p.op e.cmd.params }) (tick 1 s)

/-- The command is among the outstanding ones, is not held behind earlier commands (R59), is not TIMED
and comes up to start now; `e` is its entry. -/
def ComesUp (op : Nat) (c : Cmd) (s : State) (e : OutCmd) : Prop :=
  queuedEntry op c (fetchedFor op c s) = some e ∧ heldBack e (fetchedFor op c s) = false ∧ Cmd.timed e.cmd = false

/-- What the checks of R58 and R409 answer for the command that comes up as `e`. -/
def checksOf (op : Nat) (plan : Cmd → State → Plan) (c : Cmd) (s : State) (e : OutCmd) : Option Fail :=
  let p := plan c (tick 1 (fetchedFor op c s))
  checkAll p e (startedAs p e (fetchedFor op c s))

/-- The command comes up now, is no dry run, and every check of R58 and R409 passes. -/
def RunsNow (op : Nat) (plan : Cmd → State → Plan) (c : Cmd) (s : State) (e : OutCmd) : Prop :=
  ComesUp op c s e ∧ Cmd.dryRun e.cmd = false ∧ (checksOf op plan c s e).isNone = true

/-- What a command that runs now does, from the state at which it starts. -/
def doneOf (op : Nat) (plan : Cmd → State → Plan) (c : Cmd) (s : State) (e : OutCmd) : Done :=
  let p := plan c (tick 1 (fetchedFor op c s))
  p.run (startedAs p e (fetchedFor op c s))

/-- The state a command leaves: its effect, and its reply where it is answered now (R55). -/
def Done.after (e : OutCmd) : Done → State
  | .reply s status detail progress result => finishEntry e status detail progress result s
  | .defer s => s

/-- The state of a `Done`, before the reply. -/
def Done.st : Done → State
  | .reply s _ _ _ _ => s
  | .defer s => s

/-! ### What host bookkeeping may change -/

/-- The device without what host bookkeeping may change: the host interface, the clock, the registers with a home of
their own (the counters of commands and lost events are among them), the output, the free-value counter, the DOZE bits of
the power domains and the mark of a severity-4 event. What is left holds every object, table, mode and memory. -/
def State.device (s : State) : State :=
  { s with host := {}, clock := {}, regs := [], out := [], free := 0, power.domains := [], boot.fatal := false }

/-- The host interface without ring sets, the MP ring memory and the boot log: ports, leases, outstanding commands and
waiting DEV_ABORTs, which raising an event or handing over a reply leaves as they are. -/
def State.desk (s : State) : HostIf :=
  { s.host with rings := [], mpRing := [], bootLog := [], bootLost := 0, bootLostAt := 0 }

/-- `t` is `s` but for host bookkeeping. -/
def Same (s t : State) : Prop := t.device = s.device

/-! ### What a row of the command table does when its command runs now -/

/-- The state at which a command that runs now starts: fetched, its cycle passed, RUNNING. -/
def begunAt (op : Nat) (plan : Cmd → State → Plan) (c : Cmd) (s : State) (e : OutCmd) : State :=
  startedAs (plan c (tick 1 (fetchedFor op c s))) e (fetchedFor op c s)

/-- The row completes: whenever its command runs now, exec answers the next state in which an effect `u` stands and the command
is answered OK; `P` says what `u` holds, beside the state at which the command started. -/
def Commits (row : Cmd → Instr) (op : Nat) (plan : Cmd → State → Plan) (P : Cmd → State → State → Prop) : Prop :=
  ∀ (c : Cmd) (s : State) (e : OutCmd), RunsNow op plan c s e → ∃ (u : State) (progress : Nat) (result : List Byte),
    exec (row c) s = .next (finishEntry e St.OK 0 progress result u) ∧ P c (begunAt op plan c s e) u

/-- The row starts work that a later event answers: whenever its command runs now, exec answers a next state `u` in which no
command has ended, its own stands RUNNING, and `P` says what else `u` holds. -/
def Begins (row : Cmd → Instr) (op : Nat) (plan : Cmd → State → Plan) (P : Cmd → State → State → Prop) : Prop :=
  ∀ (c : Cmd) (s : State) (e : OutCmd), RunsNow op plan c s e → ∃ u : State,
    exec (row c) s = .next u ∧ u.host.cmds = (begunAt op plan c s e).host.cmds ∧ P c (begunAt op plan c s e) u

/-- The row only answers: whenever its command runs now, exec answers the next state in which the command is answered OK or
OK_PARTIAL from a state `u` that is the one at its start, but that free values may have been taken, and all but host bookkeeping
is as before. -/
def OnlyAnswers (row : Cmd → Instr) (op : Nat) (plan : Cmd → State → Plan) : Prop :=
  ∀ (c : Cmd) (s : State) (e : OutCmd), RunsNow op plan c s e → ∃ (u : State) (status progress : Nat) (result : List Byte),
    u = { begunAt op plan c s e with free := u.free } ∧ (status = St.OK ∨ status = St.OK_PARTIAL) ∧
    exec (row c) s = .next (finishEntry e status 0 progress result u) ∧ Same s (finishEntry e status 0 progress result u)

/-- The command or event completes: exec answers a next state, of which `Q` holds. -/
def Happens (i : Instr) (s : State) (Q : State → Prop) : Prop := ∃ t : State, exec i s = .next t ∧ Q t

/-- The command or event completes as work that has ended: exec answers the next state in which an effect `u`, of which `Q`
holds, stands and the RUNNING command named by ring set and tag is answered. -/
def Ends (i : Instr) (s : State) (rs : Nat) (tag : Word) (status detail progress : Nat) (result : List Byte) (Q : State → Prop) : Prop :=
  ∃ u : State, exec i s = .next (finishRunning rs tag status detail progress result u) ∧ u.host.cmds = s.host.cmds ∧ Q u

/-- The table `new` is `old` with `a` under `k`, every other number as before. -/
def Tbl.PutAt {α : Type} (old new : Tbl α) (k : Nat) (a : α) : Prop :=
  Tbl.get? new k = some a ∧ ∀ j, j ≠ k → Tbl.get? new j = Tbl.get? old j

/-! ### The fuse store -/

/-- No anti-rollback counter of `t` is below that of `s` (R89). -/
def CountersKept (s t : State) : Prop := ∀ i, s.fuses.arb.getD i 0 ≤ t.fuses.arb.getD i 0

/-- Every generation of every record in `s` is in `t`, in its place and unchanged (R94). -/
def RecordsKept (s t : State) : Prop := ∀ type, recGens s type <+: recGens t type

end Sys2Proof.Machine
end

