-- ==== Sys2Proof/Certificates/Slice0/Obligations.lean ====
section
/-! DEFINITION. Certificates/Slice0/Obligations.lean: the statements about the UH-9648, for the provers. -/

open Sys2Proof Sys2Proof.Machine


/-- A step takes the command at the front of the queue and runs it with the queue's rest. (spec/03_edham_command_protocol.md, R52) -/
def Obligations.StepTakesTheFrontCommand : Prop :=
  ∀ (c : Instr) (rest : List Instr) (s : State), s.pending = c :: rest → step s = exec c { s with pending := rest }

/-- On an empty queue one cycle of the 307.2 MHz edge clock passes and nothing else happens (log entry 5). (spec/15_time.md, R344) -/
def Obligations.IdleStepLetsOneCyclePass : Prop :=
  ∀ s : State, s.pending = [] → s.pkt.portCmds = [] →
    ∃ t, step s = .next t ∧ t.clock.cycles = s.clock.cycles + 1 ∧ t = { s with clock := t.clock }

/-- After reset every register with a home of its own holds the reset value of its table row. (R82, spec/03_edham_command_protocol.md Table 3-17, spec/02_hierarchy_and_fabric.md Table 2-6, spec/06_memory.md Table 6-9) -/
def Obligations.ResetRegistersReadTheirTableValue : Prop :=
  (∀ off r i w, findReg off = some (r, i, w) → off < 2 ^ 28 → rgRaw State.reset off = r.reset) ∧
  rgRaw State.reset R.FAB_CTRL = 0x31 ∧ rgRaw State.reset R.MEM_CTRL = 0x00040118 ∧
  rgRaw State.reset R.DMC_CTRL = 0x01140100 ∧ ∀ rs < 13, rgRaw State.reset (R.HPI_RS_INT_MASK + 0x30 * rs) = 0xF

/-- After reset no ring set is enabled, no command waits, no object exists and the device is not READY. (R82, R50, R13, spec/03_edham_command_protocol.md Table 3-17) -/
def Obligations.ResetLeavesNothingBehind : Prop :=
  (∀ rs, (ringOf State.reset rs).phase = .disabled) ∧ State.reset.host.cmds = [] ∧ State.reset.host.leases = [] ∧
  State.reset.legs = [] ∧ State.reset.confs = [] ∧ State.reset.dsp.tasks = [] ∧ State.reset.pkt.flows = [] ∧ State.reset.keys = [] ∧
  State.reset.dram.regions = [] ∧ State.reset.wlan.stas = [] ∧ State.reset.cap.sessions = [] ∧
  (∀ r, (radioOf State.reset r).state = .off) ∧ (∀ p, (portAt State.reset p).phase = .disabled) ∧ State.reset.boot.ready = false

/-- A command that a check refuses is answered with the check's status and changes nothing. (R58) -/
def Obligations.ARefusedCommandChangesNothing : Prop :=
  ∀ (op : Nat) (plan : Cmd → State → Plan) (c : Cmd) (s : State) (e : OutCmd) (f : Fail),
    ComesUp op c s e → checksOf op plan c s e = some f →
      hostCmd op plan c s = finishEntry e f.err.status f.err.detail 0 f.result
        (startedAs (plan c (tick 1 (fetchedFor op c s))) e (fetchedFor op c s)) ∧ Same s (hostCmd op plan c s)

/-- The first failing check decides: version, SAFE_HOLD, privilege, handle, lease, state, header, parameters, resources. (R58, R63, R78, R409) -/
def Obligations.ChecksRunInTheOrderOfR58 : Prop :=
  ∀ (p : Plan) (e : OutCmd) (s : State), (Cmd.dryRun e.cmd && Cmd.timed e.cmd) = false →
    let lease := leaseCheck s (Cmd.port e.cmd) e.cmd.leaseId p.touches <|> othersLease s (Cmd.port e.cmd) p.claims
      <|> p.leaseErr.map (fun x => ⟨x, []⟩)
    let state := checkRetained p e.cmd s <|> p.state
    checkAll p e s =
      if e.cmd.version ≠ 3 then some ⟨⟨St.BAD_OPCODE, 1⟩, []⟩
      else if s.boot.safeHold = true ∧ p.safe = false then some ⟨⟨St.SAFE_HOLD, 0⟩, []⟩
      else if Cmd.dryRun e.cmd = false ∧ privOf s e.cmd < p.priv then some ⟨⟨St.NOT_PERMITTED, 1⟩, []⟩
      else if p.handleOk = false then some ⟨⟨St.BAD_HANDLE, 0⟩, []⟩
      else lease <|> state.map (fun x => ⟨x, []⟩) <|> (checkHeader p e s).map (fun x => ⟨x, []⟩)
        <|> p.param.map (fun x => ⟨x, []⟩) <|> p.res.map (fun x => ⟨x, []⟩)

/-- DRY_RUN changes and reserves nothing, whatever the command would do. (R62) -/
def Obligations.ADryRunChangesNothing : Prop :=
  ∀ (op : Nat) (plan : Cmd → State → Plan) (c : Cmd) (s : State) (e : OutCmd), ComesUp op c s e → Cmd.dryRun e.cmd = true →
    Same s (hostCmd op plan c s) ∧
    ∀ t status detail progress result, checksOf op plan c s e = none → doneOf op plan c s e = .reply t status detail progress result →
      status < 0x100 →
      let start := startedAs (plan c (tick 1 (fetchedFor op c s))) e (fetchedFor op c s)
      let lacks := privOf start e.cmd < (plan c (tick 1 (fetchedFor op c s))).priv
      hostCmd op plan c s = finishEntry e status (if lacks then 1 else 0) progress result start

/-- A command held behind earlier ones of its ring set does not start, and only DEV_ABORT and QUERY_PROGRESS are never held. (R59) -/
def Obligations.AHeldCommandWaits : Prop :=
  (∀ (op : Nat) (plan : Cmd → State → Plan) (c : Cmd) (s : State) (e : OutCmd), queuedEntry op c (fetchedFor op c s) = some e →
    heldBack e (fetchedFor op c s) = true → hostCmd op plan c s = fetchedFor op c s) ∧
  (∀ (e : OutCmd) (s : State), heldBack e s = true ↔
    e.opcode ≠ 0x0103 ∧ e.opcode ≠ 0x0104 ∧ ∃ x ∈ s.host.cmds, x.cmd.rs = e.cmd.rs ∧ x.seq < e.seq ∧
      (Cmd.ordered e.cmd = true ∨ Cmd.ordered x.cmd = true ∨ (x.cmd.handle = e.cmd.handle ∧ x.phase = .queued)))

/-- A command's completion writes a reply where WANT_REPLY is set or its status asks for one, and keeps the final status. (R55, R73) -/
def Obligations.RepliesFollowWantReply : Prop :=
  ∀ (e : OutCmd) (status detail progress : Nat) (result : List Byte) (s : State),
    let t := finishOne e status detail progress result s
    (∃ k rest, (ringOf t e.cmd.rs).kept = k :: rest ∧ k.tag = e.cmd.tag ∧ k.status = status ∧ k.detail = detail ∧ k.progress = progress)
    ∧ (ringOf t e.cmd.rs).kept.length ≤ 256 ∧ (∀ x ∈ t.host.cmds, x.seq ≠ e.seq)
    ∧ (Cmd.wantReply e.cmd = false → (status = St.OK ∨ status = St.OK_PARTIAL ∨ status = St.FAULT_MIGRATED) →
        (ringOf t e.cmd.rs).replies = (ringOf s e.cmd.rs).replies ∧ (ringOf t e.cmd.rs).waiting = (ringOf s e.cmd.rs).waiting)

/-- Whatever the device does, its fuse store changes only at FW_ACTIVATE, OTP_PROGRAM and the start of a TIMED command. (R89, R94, R95, R93) -/
def Obligations.OnlyThreeRowsWriteTheFuseStore : Prop :=
  ∀ (i : Instr) (s t : State), exec i s = .next t →
    (∀ c, i ≠ .fwActivate c) → (∀ c, i ≠ .otpProgram c) → i ≠ .timedCommandStart → t.fuses = s.fuses

/-- No step lowers an anti-rollback counter or takes back or alters a generation of a fuse record. (R89, R94) -/
def Obligations.RollbackCountersNeverDecrease : Prop :=
  ∀ s t : State, step s = .next t → CountersKept s t ∧ RecordsKept s t

/-- At reset the three anti-rollback counters are zero and no record is programmed (log entry 37). (R89, R94) -/
def Obligations.TheFuseStoreIsUnprogrammedAtReset : Prop :=
  (∀ t, 1 ≤ t → t ≤ 3 → arbCounter State.reset t = 0) ∧ ∀ t, recGens State.reset t = []

/-- Answering a command changes host bookkeeping only: no object, table, mode, memory, lease or privilege. (R55, R73) -/
def Obligations.AnsweringChangesOnlyBookkeeping : Prop :=
  ∀ (e : OutCmd) (status detail progress : Nat) (result : List Byte) (s : State),
    let t := finishEntry e status detail progress result s
    Same s t ∧ t.host.leases = s.host.leases ∧ t.host.ports = s.host.ports ∧ t.host.fetched = s.host.fetched ∧
    ((∀ a ∈ s.host.aborts, a.1 ≠ e.seq) → t = finishOne e status detail progress result s)

/-- A query that passes its checks completes with its results and changes nothing (1 of 2). (R56, R58, R78) -/
def Obligations.QueriesOnlyAnswerA : Prop :=
  OnlyAnswers .devInfo 0x0101 devInfoPlan ∧
  OnlyAnswers .queryProgress 0x0104 queryProgressPlan ∧
  OnlyAnswers .devEcho 0x010C echoPlan ∧
  OnlyAnswers .legQuery 0x0207 legQueryPlan ∧
  OnlyAnswers .confQuery 0x0305 confQueryPlan ∧
  OnlyAnswers .mixQuery 0x0314 mixQueryPlan ∧
  OnlyAnswers .aspQuery 0x0406 aspQueryPlan ∧
  OnlyAnswers .dspQuery 0x0506 dspQueryPlan ∧
  OnlyAnswers .decQuery 0x0604 decQueryPlan ∧
  OnlyAnswers .cmpQuery 0x0706 cmpQueryPlan ∧
  OnlyAnswers .encQuery 0x0805 encQueryPlan ∧
  OnlyAnswers .fwdQuery 0x0903 fwdQueryPlan ∧
  OnlyAnswers .bweQuery 0x0904 bweQueryPlan ∧
  OnlyAnswers .portQuery 0x0A02 portQueryPlan ∧
  OnlyAnswers .flowQuery 0x0A06 flowQueryPlan

/-- A query that passes its checks completes with its results and changes nothing (2 of 2). (R56, R58, R78) -/
def Obligations.QueriesOnlyAnswerB : Prop :=
  OnlyAnswers .keyQuery 0x0B03 keyQueryPlan ∧
  OnlyAnswers .cipQuery 0x0B05 cipQueryPlan ∧
  OnlyAnswers .staQuery 0x0C06 staQueryPlan ∧
  OnlyAnswers .radioQuery 0x0D06 radioQueryPlan ∧
  OnlyAnswers .timeQuery 0x0E06 timeQueryPlan ∧
  OnlyAnswers .capQuery 0x0F0A capQueryPlan ∧
  OnlyAnswers .pwrQuery 0x1003 pwrQueryPlan ∧
  OnlyAnswers .hltQuery 0x1004 hltQueryPlan ∧
  OnlyAnswers .hltMarginQuery 0x1005 hltMarginPlan ∧
  OnlyAnswers .hltSpareQuery 0x1006 hltSparePlan ∧
  OnlyAnswers .fwQuery 0x1104 fwQueryPlan ∧
  OnlyAnswers .otpRead 0x1105 otpReadPlan ∧
  OnlyAnswers .dramQuery 0x1205 dramQueryPlan ∧
  OnlyAnswers .flueQuery 0x1208 flueQueryPlan

/-- DEV_ECHO returns its parameters unchanged. (R78, R410, spec/03_edham_command_protocol.md Table 3-13b) -/
def Obligations.EchoReturnsItsParameters : Prop :=
  ∀ (c : Cmd) (s : State) (e : OutCmd), RunsNow 0x010C echoPlan c s e → c.params.length ≤ 4056 →
    exec (.devEcho c) s = .next (finishEntry e St.OK 0 c.params.length c.params (begunAt 0x010C echoPlan c s e))

/-- LEASE_ACQUIRE, LEASE_RENEW, LEASE_RELEASE and LEASE_BREAK: what each leaves of the leases. (R65, R66, R67, R68, R417, spec/03_edham_command_protocol.md Table 3-8) -/
def Obligations.LeaseCommandsComplete : Prop :=
  Commits .leaseAcquire 0x0105 leaseAcquirePlan (fun c s u => Same s u ∧ ∃ id l, Tbl.PutAt s.host.leases u.host.leases id l ∧
      (u16 c.params 0 ≠ 0 → id = u16 c.params 0) ∧ l.port = Cmd.port c ∧ c.handle ∈ l.objs ∧ l.term = u32 c.params 4 ∧
      l.ends = s.clock.cycles + 307200 * u32 c.params 4) ∧
  Commits .leaseRenew 0x0106 leaseRenewPlan (fun c s u => Same s u ∧ ∃ l, ownLease s (Cmd.port c) (u16 c.params 0) = some l ∧
      Tbl.PutAt s.host.leases u.host.leases (u16 c.params 0)
        { l with term := u32 c.params 4, ends := s.clock.cycles + 307200 * u32 c.params 4 }) ∧
  Commits .leaseRelease 0x0107 leaseReleasePlan (fun c s u => Same s u ∧
      ∃ l, ownLease s (Cmd.port c) (u16 c.params 0) = some l ∧
        if c.handle = devH ∨ (∀ h ∈ l.objs, h = c.handle) then u.host.leases = Tbl.del s.host.leases (u16 c.params 0)
        else Tbl.PutAt s.host.leases u.host.leases (u16 c.params 0) { l with objs := l.objs.filter (· != c.handle) }) ∧
  Commits .leaseBreak 0x0108 leaseBreakPlan (fun c s u => Same s u ∧ Tbl.has s.host.leases (u16 c.params 0) = true ∧
      u.host.leases = Tbl.del s.host.leases (u16 c.params 0))

/-- DEV_EVENT_ROUTE, DEV_PORT_PRIV, DEV_REG_WRITE, DEV_REG_READ, DEV_RESET and DEV_ABORT: what each does. (R64, R71, R72, R75, R81, R83, spec/03_edham_command_protocol.md Table 3-15) -/
def Obligations.DeviceCommandsComplete : Prop :=
  Commits .devEventRoute 0x0109 eventRoutePlan (fun c s u => Same s u ∧
      (ringOf u (u8 c.params 0)).minSev = u8 c.params 1 ∧ (ringOf u (u8 c.params 0)).mask = BitVec.ofNat 32 (u32 c.params 4) ∧
      ∀ rs, rs ≠ u8 c.params 0 → ringOf u rs = ringOf s rs) ∧
  Commits .devPortPriv 0x010A portPrivPlan (fun c s u => Same s u ∧ (portSt u (u8 c.params 0)).priv = u8 c.params 1 ∧
      ∀ p, p ≠ u8 c.params 0 → portSt u p = portSt s p) ∧
  Commits .devRegWrite 0x0102 devRegWritePlan (fun c s u => ∀ r i w, u16 c.params 0 = 1 → findReg (u32 c.params 8) = some (r, i, w) →
      r.sel = 0 → r.base ≠ R.HPI_RS_INT_MASK → r.base ≠ R.TMU_CTRL →
      u = { s with regs := u.regs } ∧ Tbl.PutAt s.regs u.regs (r.base + r.stride * i)
        (BitVec.ofNat 64 (maskedWrite (rgRaw s (r.base + r.stride * i)) (Nat.land (u32 c.params 12) r.mask) (u32 c.params 16)))) ∧
  (∀ (c : Cmd) (s : State) (e : OutCmd), RunsNow 0x010B devRegReadPlan c s e → u16 c.params 0 = 1 →
    let a := readReg (u32 c.params 8) (begunAt 0x010B devRegReadPlan c s e)
    exec (.devRegRead c) s = .next (finishEntry e St.OK 0 1 (leN a.1 4) a.2)) ∧
  Commits .devReset 0x010D devResetPlan (fun c s u => u = { s with
      boot.resetAt := some (s.clock.cycles + 3072000), boot.resetSlot := u8 c.params 0 }) ∧
  (∀ (c : Cmd) (s : State) (e x : OutCmd), RunsNow 0x0103 devAbortPlan c s e → outTarget (begunAt 0x0103 devAbortPlan c s e) c = some x →
    x.phase ≠ .running → exec (.devAbort c) s = .next (finishEntry e St.OK 0 1 (leN St.ABORTED 2 ++ leN 0 2 ++ leN 0 4)
      (finishEntry x St.ABORTED 0 0 [] (begunAt 0x0103 devAbortPlan c s e))))

/-- The last 256 final statuses of each ring set are kept, and naming a tag neither outstanding nor kept is BAD_PARAM 5. (R73) -/
def Obligations.FinalStatusesAreKept : Prop :=
  (∀ (e : OutCmd) (status detail progress : Nat) (result : List Byte) (s : State),
    let t := finishOne e status detail progress result s
    (∃ total, (ringOf t e.cmd.rs).kept = (⟨e.cmd.tag, status, detail, progress, total⟩ :: (ringOf s e.cmd.rs).kept).take 256) ∧
    ∀ rs, rs ≠ e.cmd.rs → (ringOf t rs).kept = (ringOf s rs).kept) ∧
  (∀ (c : Cmd) (s : State), u8 c.params 0 ≤ 12 →
    (∀ x ∈ s.host.cmds, x.cmd.rs = u8 c.params 0 → x.cmd.tag.toNat ≠ u32 c.params 4) →
    (∀ k ∈ (ringOf s (u8 c.params 0)).kept, k.tag.toNat ≠ u32 c.params 4) →
    (devAbortPlan c s).param = some ⟨0x0101, 5⟩ ∧ (queryProgressPlan c s).param = some ⟨0x0101, 5⟩)

/-- Enable takes a DISABLED ring set to ENABLED with heads and tails zero and ERR clear; disable drains an ENABLED or ERROR one. (R50) -/
def Obligations.RingSetsEnableAndDisable : Prop :=
  (∀ (p addr : Nat) (d : RingDesc) (s : State), p < 3 → s.boot.ready = true → d.set ≤ 3 → d.op = 1 → descOk d = true →
    let rs := 4 * p + d.set
    ((ringOf s rs).phase = .disabled → ∃ t, exec (.ringSetEnable p p addr d) s = .next t ∧ (ringOf t rs).phase = .enabled ∧
      (ringOf t rs).err = 0 ∧ (ringOf t rs).sqHead = 0 ∧ (ringOf t rs).sqTail = 0 ∧ (ringOf t rs).rplHead = 0 ∧
      (ringOf t rs).rplTail = 0 ∧ (ringOf t rs).evtHead = 0 ∧
      ((ringOf s rs).logged = true ∨ rs % 4 ≠ 0 ∨ (s.host.bootLog = [] ∧ s.host.bootLost = 0) → (ringOf t rs).evtTail = 0) ∧
      bit (rgRaw t (R.HPI_RS_INT_STATUS + 0x30 * rs)) 3 = true) ∧
    ((ringOf s rs).phase ≠ .disabled → ∃ t, exec (.ringSetEnable p p addr d) s = .next t ∧ (ringOf t rs).phase = (ringOf s rs).phase ∧
      (ringOf t rs).sqHead = (ringOf s rs).sqHead ∧ (ringOf t rs).sqTail = (ringOf s rs).sqTail ∧
      (ringOf t rs).rplTail = (ringOf s rs).rplTail ∧ (ringOf t rs).evtTail = (ringOf s rs).evtTail ∧
      bit (rgRaw t (R.HPI_RS_INT_STATUS + 0x30 * rs)) 3 = true)) ∧
  (∀ (p addr : Nat) (d : RingDesc) (s : State), p < 3 → s.boot.ready = true → d.set ≤ 3 → d.op = 2 →
    let rs := 4 * p + d.set
    ∃ t, exec (.ringSetDisable p p addr d) s = .next t ∧
      (ringOf t rs).phase = (if (ringOf s rs).phase = .enabled ∨ (ringOf s rs).phase = .error then .draining else (ringOf s rs).phase) ∧
      bit (rgRaw t (R.HPI_RS_INT_STATUS + 0x30 * rs)) 3 = true) ∧
  (∀ (rs : Nat) (s : State), (ringOf s rs).phase = .draining → outstanding s rs = 0 → (ringOf s rs).waiting = [] →
    ∃ t, exec (.ringSetDrained rs) s = .next t ∧ (ringOf t rs).phase = .disabled ∧ (∀ q, q ≠ rs → ringOf t q = ringOf s q) ∧ Same s t)

/-- The tail and head doorbells, the mask and status of the vectors, the end of a holdoff, and the fetch of a packet. (R48, R49, R52, R53, R54, R412) -/
def Obligations.DoorbellsAndFetching : Prop :=
  (∀ port rs tail s, rs ≤ 12 → doorbellIgnored port rs s = false → tail < (ringOf s rs).sqSlots → tail < 65536 →
    ∃ t, exec (.sqTailDoorbell port rs tail) s = .next t ∧ ringOf t rs = { ringOf s rs with sqTail := tail } ∧
      (∀ q, q ≠ rs → ringOf t q = ringOf s q) ∧ Same s t) ∧
  (∀ port rs head s, rs ≤ 12 → doorbellIgnored port rs s = false → head < 65536 →
    headOk (ringOf s rs).rplSlots (ringOf s rs).rplHead (ringOf s rs).rplTail head = true →
    ∃ t, exec (.rplHeadDoorbell port rs head) s = .next t ∧ (ringOf t rs).rplHead = head ∧ (ringOf t rs).evtHead = (ringOf s rs).evtHead ∧
      (ringOf t rs).sqHead = (ringOf s rs).sqHead ∧ (ringOf t rs).sqTail = (ringOf s rs).sqTail ∧ Same s t) ∧
  (∀ port rs head s, rs ≤ 12 → doorbellIgnored port rs s = false → head < 65536 →
    headOk (ringOf s rs).evtSlots (ringOf s rs).evtHead (ringOf s rs).evtTail head = true →
    ∃ t, exec (.evtHeadDoorbell port rs head) s = .next t ∧ (ringOf t rs).evtHead = head ∧ (ringOf t rs).rplHead = (ringOf s rs).rplHead ∧
      (ringOf t rs).sqHead = (ringOf s rs).sqHead ∧ (ringOf t rs).sqTail = (ringOf s rs).sqTail ∧ Same s t) ∧
  (∀ rs value s, rs ≤ 12 → ∃ t, exec (.hpiRsIntMaskWrite rs value) s = .next t ∧
      rgRaw t (R.HPI_RS_INT_MASK + 0x30 * rs) = value.toNat % 16 ∧ Same s t) ∧
  (∀ rs value s, rs ≤ 12 → ∃ t, exec (.hpiRsIntStatusClear rs value) s = .next t ∧ t = { s with regs := t.regs } ∧
      (∀ n, n < 4 → bit (rgRaw t (R.HPI_RS_INT_STATUS + 0x30 * rs)) n =
        (bit (rgRaw s (R.HPI_RS_INT_STATUS + 0x30 * rs)) n && !bit value.toNat n)) ∧
      ∀ k, k ≠ R.HPI_RS_INT_STATUS + 0x30 * rs → rgRaw t k = rgRaw s k) ∧
  (∀ rs vec s, rs ≤ 11 → vec < 2 → (ringOf s rs).owed.getD vec false = true → bit (rgRaw s (R.HPI_RS_INT_STATUS + 0x30 * rs)) vec = true →
    bit (rgRaw s (R.HPI_RS_INT_MASK + 0x30 * rs)) vec = false →
    ∃ t, exec (.intHoldoffExpiry rs vec) s = .next t ∧ t.out = s.out ++ [.vector rs vec] ∧ (ringOf t rs).owed.getD vec false = false ∧
      (ringOf s rs).hold.getD vec 0 ≤ t.clock.cycles ∧ Same s t) ∧
  (∀ p s rs, nextRing s = some rs → p.dmaFault = false → p.cmd.paramLen % 8 = 0 → 32 + p.cmd.paramLen ≤ 4096 → knownOpcode p.opcode = true →
    let n := slotsOf (32 + p.cmd.paramLen)
    let r := ringOf s rs
    r.sqHead + n ≤ r.sqSlots → n ≤ (r.sqTail + r.sqSlots - r.sqHead) % max 1 r.sqSlots →
    ∃ t, exec (.commandFetch p) s = .next t ∧
      t.host.cmds = s.host.cmds ++ [{ seq := s.host.fetched, opcode := p.opcode, cmd := { p.cmd with rs := rs } }] ∧
      (ringOf t rs).sqHead = (r.sqHead + n) % max 1 r.sqSlots ∧ t.host.fetched = s.host.fetched + 1 ∧ Same s t) ∧
  (∀ port offset value s, ∃ t, exec (.ignoredDirectWrite port offset value) s = .next t ∧ t = { s with regs := t.regs } ∧
      rgRaw t R.DEV_LAST_IGNORED = offset % 2 ^ 28 + 2 ^ 28 * (port % 4) ∧
      rgRaw t R.DEV_IGNORED_WRITES = satAdd 64 (rgRaw s R.DEV_IGNORED_WRITES) 1)

/-- Direct writes clear the W1C bits written 1 or select a window; reads clear RC registers and latch second words. (R8, R9, R27, R77, R80, R82, R115, R142, R354) -/
def Obligations.DirectWritesAndReads : Prop :=
  (∀ value s, bit value.toNat 0 = true → exec (.devAlarmClear value) s = .next { s with boot.fatal := false }) ∧
  (∀ value s, ∃ t, exec (.otpResetCauseClear value) s = .next t ∧ t = { s with boot.cause := t.boot.cause } ∧
      ∀ n, n < 5 → bit t.boot.cause n = (bit s.boot.cause n && !bit value.toNat n)) ∧
  (∀ index value s, index < 3 → ∃ t, exec (.fabMissSumClear index value) s = .next t ∧ t = { s with regs := t.regs } ∧
      (∀ n, n < 32 → bit (rgRaw t (R.FAB_MISS_SUM + 4 * index)) n = (bit (rgRaw s (R.FAB_MISS_SUM + 4 * index)) n && !bit value.toNat n)) ∧
      ∀ k, k ≠ R.FAB_MISS_SUM + 4 * index → rgRaw t k = rgRaw s k) ∧
  (∀ value s, bit value.toNat 0 = true → ∃ t, exec (.dsxCHistClear value) s = .next t ∧ t = { s with regs := t.regs } ∧
      ∀ k, k < 16 → rgRaw t (winKey (R.DSX_C_WAIT_HIST + 8 * k) (rgRaw s R.DSX_CORE_SEL)) = 0) ∧
  (∀ queue value s, queue ≤ 10 → ∃ t, exec (.tmuQFlagsClear queue value) s = .next t ∧ t = { s with regs := t.regs } ∧
      bit (rgRaw t (tsqR R.TMU_Q_FLAGS queue)) 0 = (bit (rgRaw s (tsqR R.TMU_Q_FLAGS queue)) 0 && !bit value.toNat 0)) ∧
  (∀ offset value s r i w, findReg offset = some (r, i, w) → r.base ∈ selectRegs →
    ∃ t, exec (.selectRegisterWrite offset value) s = .next t ∧ t = { s with regs := t.regs } ∧
      Tbl.PutAt s.regs t.regs offset (BitVec.ofNat 64 (Nat.land value.toNat r.mask))) ∧
  (∀ offset s r i, offset < 0x08000000 → findReg offset = some (r, i, 0) → r.acc = .rc → r.sel = 0 → isMeasured r.base = false →
    r.base ≠ R.TMU_TIME_SEC_HI → r.base ∉ [R.HLT_TJ_MAX, R.PKT_BUF_MIN_FREE, R.FLU_W_MAX_OCC, R.DSX_C_DEPTH_MAX, R.DSX_GRV_READY_MAX] →
    ∃ t, exec (.rcRegisterRead offset) s = .next t ∧ t.out = s.out ++ [.readData (rowValue s r i 0 % 2 ^ 32)] ∧
      Tbl.PutAt s.regs t.regs (r.base + r.stride * i) (BitVec.ofNat 64 r.reset)) ∧
  (∀ offset s r i, offset < 0x08000000 → findReg offset = some (r, i, 0) → r.words = 2 → r.acc = .ro → isMeasured r.base = false →
    r.base ≠ R.TMU_TIME_SEC_HI →
    ∃ t, exec (.latchingWordRead offset) s = .next t ∧ t = { s with out := t.out, latches := t.latches } ∧
      t.out = s.out ++ [.readData (rowValue s r i 0 % 2 ^ 32)] ∧
      Tbl.PutAt s.latches t.latches (r.base + r.stride * i) (BitVec.ofNat 32 (rowValue s r i 0 / 2 ^ 32))) ∧
  (∀ port s, port < 3 → ∃ t, exec (.bar2MapSwitch port) s = .next t ∧ t = { s with dram.bar2 := t.dram.bar2 } ∧
      Tbl.PutAt s.dram.bar2 t.dram.bar2 port (rgRaw s (R.DMC_BAR2_MAP + 4 * port)))

/-- Every reset source ends everything but the fuse store, the boot flash and the reset cause. (R82, R83) -/
def Obligations.ResetSourcesAndTheirFullReset : Prop :=
  let after := fun (n : Nat) (s t : State) =>
    t = { State.reset with pending := s.pending, free := s.free, out := s.out, fuses := s.fuses, flash := s.flash
                           boot.cause := t.boot.cause, boot.force := t.boot.force } ∧
    ∀ k, bit t.boot.cause k = (bit s.boot.cause k || k == n)
  (∀ s, ∃ t, exec .powerOn s = .next t ∧ after 0 s t ∧ t.boot.force = 0) ∧
  (∀ ns s, 1000 ≤ ns → ∃ t, exec (.resetPin ns) s = .next t ∧ after 1 s t ∧ t.boot.force = 0) ∧
  (∀ ns s, ns < 50 → exec (.resetPin ns) s = .next s) ∧
  (∀ s at_, s.boot.resetAt = some at_ → ∃ t, exec .commandResetStart s = .next t ∧ after 2 s t ∧ t.boot.force = s.boot.resetSlot) ∧
  (∀ ms s, bit (rgRaw s R.OTP_WDT) 31 = false → s.boot.beatFrom ≠ none → bits (rgRaw s R.OTP_WDT) 15 0 ≤ ms →
    ∃ t, exec (.watchdog ms) s = .next t ∧ after 3 s t ∧ t.boot.force = 0) ∧
  (∀ rail us s, rail ≤ 1 → 10 ≤ us → ∃ t, exec (.brownOut rail us) s = .next t ∧ after 4 s t ∧ t.boot.force = 0)

/-- LEG_CREATE, START, HOLD, RESUME, CLOSE and MODIFY: the leg each leaves, and every other leg as before. (R12, R13, R14, R15, R16, R17, spec/01_legs_and_conferences.md Table 1-3, spec/01_legs_and_conferences.md Table 1-5) -/
def Obligations.LegCommandsComplete : Prop :=
  let keep := fun (s u : State) => Same { s with legs := u.legs, confs := u.confs, audio := u.audio, video.fwd := u.video.fwd } u
  Commits .legCreate 0x0201 legCreatePlan (fun c s u => keep s u ∧ ∃ i, newIndex s.legs c.handle 0 16384 = some i ∧
      Tbl.PutAt s.legs u.legs i (legWith {} c.params)) ∧
  Commits .legStart 0x0202 legStartPlan (fun c s u => keep s u ∧ ∃ l, Tbl.get? s.legs (hIdx c.handle) = some l ∧ l.state = .ready ∧
      attached s l = true ∧ Tbl.PutAt s.legs u.legs (hIdx c.handle) { l with state := .active }) ∧
  Commits .legHold 0x0204 legHoldPlan (fun c s u => keep s u ∧ ∃ l, Tbl.get? s.legs (hIdx c.handle) = some l ∧ l.state = .active ∧
      Tbl.PutAt s.legs u.legs (hIdx c.handle) { l with state := .held }) ∧
  Commits .legResume 0x0205 legResumePlan (fun c s u => keep s u ∧ ∃ l, Tbl.get? s.legs (hIdx c.handle) = some l ∧ l.state = .held ∧
      attached s l = true ∧ Tbl.PutAt s.legs u.legs (hIdx c.handle) { l with state := .active }) ∧
  Commits .legModify 0x0203 legModifyPlan (fun c s u => keep s u ∧ ∃ l, Tbl.get? s.legs (hIdx c.handle) = some l ∧
      Tbl.PutAt s.legs u.legs (hIdx c.handle)
        (if (List.range 24).all (fun k => k == 0 || !bit (u64 c.params 24) k) then l
         else legWith l (maskedBytes (legBytes l) c.params (u64 c.params 24)))) ∧
  (∀ (c : Cmd) (s : State) (e : OutCmd), RunsNow 0x0206 legClosePlan c s e → ∃ t l, exec (.legClose c) s = .next t ∧
      Tbl.get? s.legs (hIdx c.handle) = some l ∧ l.state ≠ .closing ∧
      Tbl.PutAt s.legs t.legs (hIdx c.handle) { l with state := .closing, closer := some (c.rs, c.tag) }) ∧
  (∀ (leg : Nat) (s : State), legDrained s leg = true → ∃ t, exec (.legDrainComplete leg) s = .next t ∧ t.legs = Tbl.del s.legs leg)

/-- CONF_CREATE, JOIN, LEAVE, CLOSE and the MIX commands: members, plan, role, routes and shadow sets they leave. (R13, R16, R18, R193, R202, R203, R204, R414, spec/08_audio_mixing_and_voice_codecs.md Table 8-8, spec/08_audio_mixing_and_voice_codecs.md Table 8-9) -/
def Obligations.ConferenceCommandsComplete : Prop :=
  let keep := fun (s u : State) => Same { s with legs := u.legs, confs := u.confs, audio := u.audio } u
  Commits .confCreate 0x0301 confCreatePlan (fun c s u => keep s u ∧ ∃ i f, newIndex s.confs c.handle 0 4096 = some i ∧
      freeBuses s (1 + u8 c.params 1) = some f ∧ Tbl.PutAt s.confs u.confs i { k := u8 c.params 0, aux := u8 c.params 1, hold := if u16 c.params 2 = 0 then 200 else u16 c.params 2, firstBus := f } ∧
      ∀ b, b ≤ u8 c.params 1 → Tbl.get? u.audio.buses (f + b) = some { conf := i, num := b }) ∧
  Commits .confJoin 0x0302 confJoinPlan (fun c s u => keep s u ∧ memberLeg c ∈ (confOf u (hIdx c.handle)).members ∧
      ∃ l, Tbl.get? s.legs (memberLeg c) = some l ∧ l.conf = none ∧
        Tbl.PutAt s.legs u.legs (memberLeg c) { l with conf := some (hIdx c.handle), role := u8 c.params 4 }) ∧
  Commits .confLeave 0x0303 confLeavePlan (fun c s u => keep s u ∧
      (confOf u (hIdx c.handle)).members = (confOf s (hIdx c.handle)).members.filter (· != memberLeg c) ∧
      ∃ l, Tbl.get? s.legs (memberLeg c) = some l ∧ l.conf = some (hIdx c.handle) ∧
        Tbl.PutAt s.legs u.legs (memberLeg c) { l with conf := none }) ∧
  Commits .confClose 0x0304 confClosePlan (fun c s u => u.confs = Tbl.del s.confs (hIdx c.handle) ∧
      ∀ i ∈ (confOf s (hIdx c.handle)).members, (Tbl.get? u.legs i).bind Leg.conf = none) ∧
  Commits .mixPlanSet 0x0310 mixPlanPlan (fun c s u => u = { s with confs := u.confs } ∧ ∃ cf, Tbl.get? s.confs (hIdx c.handle) = some cf ∧
      Tbl.PutAt s.confs u.confs (hIdx c.handle) { cf with k := u8 c.params 0, pflags := u8 c.params 1, hold := u16 c.params 2, thresh := i16 c.params 4, crossfade := u16 c.params 6, hyst := u8 c.params 8 }) ∧
  Commits .mixRoleSet 0x0311 mixRolePlan (fun c s u => keep s u ∧ (mixOf u (hIdx c.handle)).forced = bit (u8 c.params 1) 0 ∧
      (mixOf u (hIdx c.handle)).muted = bit (u8 c.params 1) 1 ∧ (mixOf u (hIdx c.handle)).trim = i16 c.params 2 ∧
      (mixOf u (hIdx c.handle)).bus = u8 c.params 4 ∧ ∃ l, Tbl.get? s.legs (hIdx c.handle) = some l ∧
        Tbl.PutAt s.legs u.legs (hIdx c.handle) { l with role := u8 c.params 0 }) ∧
  (∀ (c : Cmd) (s : State) (e : OutCmd) (b : Bus), RunsNow 0x0312 mixRoutePlan c s e → u16 c.params 0 = 1 → (routeAt c.params 0).op = 3 →
    let r := routeAt c.params 0
    let i := hIdx c.handle
    routeWalk s i (confOf s i).aux [r] 0 (routesNow s i) = none → Tbl.get? s.audio.buses (busOf s i r.bus) = some b →
    ∃ u x, exec (.mixRouteSet c) s = .next (finishEntry e St.OK 0 1 [] u) ∧ x.port = r.object ∧ x.channel = r.channel ∧ x.width = r.width ∧
      Tbl.PutAt s.audio.buses u.audio.buses (busOf s i r.bus) { b with outs := b.outs ++ [x] } ∧
      Same { s with audio.buses := u.audio.buses } u) ∧
  Begins .mixParamLoad 0x0313 mixParamPlan (fun c s u => Same { s with audio.buses := u.audio.buses } u ∧
      ∀ b, Tbl.get? s.audio.buses (busOf s (hIdx c.handle) (u8 c.params 0)) = some b →
        ∃ x, x.rs = c.rs ∧ x.tag = c.tag ∧ x.set = { gain := i16 c.params 8, gainAuto := bit (u8 c.params 10) 0, limitEn := bit (u8 c.params 10) 1, ceiling := i16 c.params 12, knee := u16 c.params 14 } ∧
          Tbl.PutAt s.audio.buses u.audio.buses (busOf s (hIdx c.handle) (u8 c.params 0)) { b with shadows := b.shadows ++ [x] })

/-- The block boundary, the jitter buffer and the voice frames: what each leaves of the leg and the block count. (R177, R182, R183, R184, R186, R187, R195, R204) -/
def Obligations.BlocksAndVoiceFramesComplete : Prop :=
  (∀ (inputs : List LegInput) (s : State),
    let n := if nowBlock s = 0 ∨ s.audio.lastBlock = some (nowBlock s - 1) then nowBlock s else nowBlock s - 1
    ∃ t, exec (.blockBoundary inputs) s = .next t ∧ t.audio.lastBlock = some n ∧
      ∀ b bus w, Tbl.get? s.audio.buses b = some bus → bus.shadows = [w] → w.at_.getD (n + 1) ≤ n + 1 →
        ∃ bus', Tbl.get? t.audio.buses b = some bus' ∧ bus'.active = w.set ∧ bus'.shadows = []) ∧
  (∀ (leg : Nat) (s : State) (l : Leg) (p : JbPkt), Tbl.get? s.legs leg = some l → l.state = .active → (jitOf s leg).phase ≠ .idle →
    (jitOf s leg).released = [] → (jitOf s leg).pkts.find? (fun q => q.ts == (jitOf s leg).nextTs) = some p →
    ∃ t, exec (.jbRelease leg) s = .next t ∧ (jitOf t leg).released = [p] ∧ p ∉ (jitOf t leg).pkts ∧ p.seq ∈ (jitOf t leg).played ∧
      Same { s with audio.jitter := t.audio.jitter } t) ∧
  (∀ (leg : Nat) (s : State) (l : Leg), Tbl.get? s.legs leg = some l → l.coded = true → (jitOf s leg).phase ≠ .idle →
    ∃ t, exec (.jbTargetRecompute leg) s = .next t ∧ (jitOf t leg).target = jbTarget l (jitOf s leg) (nowNs s) ∧ Same { s with audio := t.audio } t) ∧
  (∀ (v : VoiceFrame) (s : State) (l : Leg), Tbl.get? s.legs v.leg = some l → l.state = .active → (jitOf s v.leg).phase ≠ .idle →
    (jitOf s v.leg).released ≠ [] → l.frame ≤ v.length → ∃ t, exec (.voiceDecodeFrame v) s = .next t ∧ (jitOf t v.leg).phase = .playing ∧
      (jitOf t v.leg).conceal = 0 ∧ (jitOf t v.leg).released = [] ∧ (jitOf t v.leg).nextTs = (jitOf s v.leg).nextTs + 24 * v.length ∧
      Same { s with audio := t.audio } t) ∧
  (∀ (v : VoiceFrame) (s : State) (l : Leg), Tbl.get? s.legs v.leg = some l → l.state = .active → (jitOf s v.leg).phase ≠ .idle →
    (jitOf s v.leg).released = [] → v.dtx = false → dtxGap (jitOf s v.leg) = false →
    ∃ t, exec (.voiceDecodeFrame v) s = .next t ∧ (jitOf t v.leg).phase = .concealing ∧
      (jitOf t v.leg).concealed = satAdd 64 (jitOf s v.leg).concealed 1 ∧ (jitOf t v.leg).nextTs = (jitOf s v.leg).nextTs + 24 * l.frame ∧
      Same { s with audio := t.audio } t) ∧
  (∀ (c k : Nat) (s : State) (m : MixClass), Tbl.get? (confOf s c).classes k = some m → classUsers s c k ≠ [] →
    ∃ t, exec (.voiceEncodeFrame c k none) s = .next t ∧ (Tbl.get? (confOf t c).classes k).map MixClass.start = some (m.start + 24 * m.frame)) ∧
  (∀ (c k i : Nat) (s : State) (l : Leg), Tbl.get? s.legs i = some l → l.state = .active → bit l.flags 3 = false → (egressOf s i 0xFF).isSome = true →
    i ∈ (confOf s c).members → (mixOf s i).cls = some k → (mixOf s i).phase = .talker →
    ∃ t, exec (.voiceEncodeFrame c k (some i)) s = .next t ∧ Tbl.PutAt s.legs t.legs i { l with txPackets := satAdd 64 l.txPackets 1 })

/-- ASP_CONFIG, START, STOP, MASK_SET and TRIGGER_ARM: the port each leaves, and every other port as before. (R230, R233, R236, R237, R239, R242, spec/10_audio_serial_ports.md Table 10-1, spec/10_audio_serial_ports.md Table 10-4, spec/10_audio_serial_ports.md Table 10-5, spec/10_audio_serial_ports.md Table 10-6) -/
def Obligations.AudioPortCommandsComplete : Prop :=
  Commits .aspConfig 0x0401 aspConfigPlan (fun c s u => u = { s with asp.ports := u.asp.ports } ∧
      Tbl.PutAt s.asp.ports u.asp.ports (hIdx c.handle) { portAt s (hIdx c.handle) with
        phase := .idle, mode := u8 c.params 0, format := u8 c.params 1, lines := u8 c.params 2, slots := u8 c.params 3
        slotBits := u8 c.params 4, sampleBits := u8 c.params 5, offset := u8 c.params 6, cflags := u8 c.params 7
        rate := u32 c.params 8, mclkDiv := u8 c.params 12, holdMs := if u16 c.params 14 = 0 then 10 else u16 c.params 14
        rxMask := (portAt u (hIdx c.handle)).rxMask, txMask := (portAt u (hIdx c.handle)).txMask } ∧
      ∀ ch, ch < 128 →
        (slotOn (portAt u (hIdx c.handle)).rxMask ch = (decide (ch / 32 < u8 c.params 2) && decide (ch % 32 < u8 c.params 3) &&
          (decide ((portAt s (hIdx c.handle)).phase = .disabled) || slotOn (portAt s (hIdx c.handle)).rxMask ch))) ∧
        (slotOn (portAt u (hIdx c.handle)).txMask ch = (decide (ch / 32 < u8 c.params 2) && decide (ch % 32 < u8 c.params 3) &&
          (decide ((portAt s (hIdx c.handle)).phase = .disabled) || slotOn (portAt s (hIdx c.handle)).txMask ch)))) ∧
  Begins .aspStart 0x0402 aspStartPlan (fun c s u => u = { s with asp.ports := u.asp.ports } ∧
      Tbl.PutAt s.asp.ports u.asp.ports (hIdx c.handle) { portAt s (hIdx c.handle) with
        startAt := some (blockFrom (nowNs s + 100000)), starter := some (c.rs, c.tag), trig := none }) ∧
  (∀ (c : Cmd) (s : State) (e : OutCmd), RunsNow 0x0403 aspStopPlan c s e → (portAt s (hIdx c.handle)).phase = .armed →
    ∃ u progress result, exec (.aspStop c) s = .next (finishEntry e St.OK 0 progress result u) ∧ Same { s with asp := u.asp } u ∧
      Tbl.PutAt s.asp.ports u.asp.ports (hIdx c.handle) { portAt s (hIdx c.handle) with phase := .idle, startAt := none, starter := none }) ∧
  (∀ (c : Cmd) (s : State) (e : OutCmd), RunsNow 0x0403 aspStopPlan c s e → (portAt s (hIdx c.handle)).phase ≠ .armed →
    Happens (.aspStop c) s (fun t => Same { s with asp.ports := t.asp.ports, audio := t.audio } t ∧ ∃ at_,
      Tbl.PutAt s.asp.ports t.asp.ports (hIdx c.handle) { portAt s (hIdx c.handle) with
        stopping := some (c.rs, c.tag, at_), starter := none
        txFade := (portAt s (hIdx c.handle)).txFade.moveTo 0 ((portAt s (hIdx c.handle)).rate / 500) 0 })) ∧
  Begins .aspMaskSet 0x0404 aspMaskPlan (fun c s u => u = { s with asp.ports := u.asp.ports } ∧
      Tbl.PutAt s.asp.ports u.asp.ports (hIdx c.handle) { portAt s (hIdx c.handle) with
        pendMask := (portAt s (hIdx c.handle)).pendMask ++ [{ tx := u8 c.params 0 == 1, rs := c.rs, tag := c.tag
                                                              masks := [u32 c.params 8, u32 c.params 12, u32 c.params 16, u32 c.params 20] }] }) ∧
  Begins .aspTriggerArm 0x0405 aspArmPlan (fun c s u => u = { s with asp := u.asp } ∧
      (∀ n, n < 8 → (portAt u n).phase = if bit (u8 c.params 0) n then .armed else (portAt s n).phase) ∧
      (∀ n, (8 ≤ n ∨ bit (u8 c.params 0) n = false) → Tbl.get? u.asp.ports n = Tbl.get? s.asp.ports n) ∧
      ∃ m, u.asp.arm = some m ∧ m.ports = u8 c.params 0 ∧ m.source = u8 c.params 1 ∧ m.edge = u8 c.params 2 ∧ m.rs = c.rs ∧ m.tag = c.tag ∧
        m.start = if u8 c.params 1 = 4 then some (blockFrom ((nearestNs s (u64 c.params 8)).toNat + 100000)) else none)

/-- Start instants, frames, lost and restored clocks, pin faults and trigger edges: the port that each leaves. (R231, R236, R237, R238, R239, R240, R242, R244, R245, R246, R247, spec/10_audio_serial_ports.md Table 10-1) -/
def Obligations.AudioPortEventsComplete : Prop :=
  let others := fun (n : Nat) (s t : State) => ∀ m, m ≠ n → Tbl.get? t.asp.ports m = Tbl.get? s.asp.ports m
  (∀ n s b, (portAt s n).startAt = some b → Happens (.aspStartInstant n) s (fun t => others n s t ∧
    (portAt t n).phase = (if (portAt s n).mode = 1 then .running else .relock) ∧ (portAt t n).startAt = none ∧
    (portAt t n).startBlock = b % 2 ^ 32 ∧ (portAt t n).frame = 0 ∧ (portAt t n).lockRate = (portAt s n).rate * 1000 ∧
    Same { s with asp := t.asp, audio := t.audio } t)) ∧
  (∀ n s rs tag, (portAt s n).phase = .relock → (portAt s n).starter = some (rs, tag) →
    Ends (.aspNoClock n) s rs tag St.ASP_NO_CLOCK n 0 [] (fun u => u = { s with asp := u.asp, clock := u.clock } ∧
      Tbl.PutAt s.asp.ports u.asp.ports n { portAt s n with starter := none })) ∧
  (∀ n s rs tag at_, (portAt s n).stopping = some (rs, tag, at_) →
    Ends (.aspStopComplete n) s rs tag St.OK 0 1 (leN (portAt s n).frame 4 ++ leN 0 4) (fun u => Same { s with asp := u.asp, fab := u.fab } u ∧
      Tbl.PutAt s.asp.ports u.asp.ports n { portAt s n with phase := .idle, stopping := none, faded := false, byPin := false
                                                            started := false, periods := [], unread := 0, rxRing := [], txRing := []
                                                            lastRx := [], lastTx := [] })) ∧
  (∀ (f : AudioFrame) s, f.port < 8 → ((portAt s f.port).phase = .running ∨ (portAt s f.port).phase = .relock) →
    ((portAt s f.port).mode = 0 → (portAt s f.port).started = true → (portAt s f.port).phase = .running →
      isGlitch (portAt s f.port) (framePeriod (portAt s f.port) f) = false) →
    Happens (.aspFrame f) s (fun t => others f.port s t ∧ (portAt t f.port).phase = (portAt s f.port).phase ∧
      (portAt t f.port).frame = ((portAt s f.port).frame + 1) % 2 ^ 32 ∧ (portAt t f.port).started = true ∧ (portAt t f.port).pendMask = [] ∧
      (portAt t f.port).txMask = ((((portAt s f.port).pendMask.filter MaskSet.tx).getLast?).map MaskSet.masks).getD (portAt s f.port).txMask ∧
      (portAt t f.port).rxMask = ((((portAt s f.port).pendMask.filter (fun m => !m.tx)).getLast?).map MaskSet.masks).getD (portAt s f.port).rxMask ∧
      Same { s with asp := t.asp, audio := t.audio, fab := t.fab } t)) ∧
  (∀ n s, n < 8 → (portAt s n).mode ≠ 1 → ((portAt s n).phase = .running ∨ (portAt s n).phase = .relock) → (portAt s n).started = true →
    Happens (.aspClockLost n) s (fun t => others n s t ∧ (portAt t n).phase = .hold ∧ (portAt t n).byPin = false ∧
      (portAt t n).lockRate = (portAt s n).lockRate ∧ Same { s with asp := t.asp, fab := t.fab } t)) ∧
  (∀ n s, n < 8 → (portAt s n).phase = .hold → (portAt s n).faded = false → Happens (.aspHoldFade n) s (fun t => others n s t ∧
    (portAt t n).phase = .hold ∧ (portAt t n).faded = true ∧ (∀ i ∈ portLegs s n, (mixOf t i).fade.goal = 0) ∧
    Same { s with asp := t.asp, audio := t.audio } t)) ∧
  (∀ n s, n < 8 → (portAt s n).mode ≠ 1 → stableClock (portAt s n) = true → (nearRate (measRate (portAt s n))).isSome = true →
    ((portAt s n).phase = .hold ∨ ((portAt s n).phase = .running ∧ rateDiffers (portAt s n) (measRate (portAt s n)) = true)) →
    Happens (.aspRateChange n) s (fun t => others n s t ∧ (portAt t n).phase = .relock ∧
      (portAt t n).lockRate = measRate (portAt s n) ∧ Same { s with asp := t.asp } t)) ∧
  (∀ n s, n < 8 → (portAt s n).phase = .relock → (portAt s n).started = true → (portAt s n).stopping = none →
    Happens (.aspConverged n) s (fun t => others n s t ∧ (portAt t n).phase = .running ∧ (portAt t n).faded = false ∧
      (portAt t n).txFade.goal = 1 ∧ Same { s with asp := t.asp, audio := t.audio } t)) ∧
  (∀ n pin cause s, n < 8 → pinDriven (portAt s n) pin = true → Tbl.get? (portAt s n).pins pin = none →
    Happens (.aspPinFault n pin cause) s (fun t => others n s t ∧
      (∃ at_, Tbl.PutAt (portAt s n).pins (portAt t n).pins pin (cause % 2, 0, at_)) ∧
      (portAt t n).phase = (if pin < 2 ∧ (portAt s n).phase = .running then .hold else (portAt s n).phase) ∧
      Same { s with asp := t.asp, fab := t.fab } t)) ∧
  (∀ n pin clear s cause fails at_, n < 8 → Tbl.get? (portAt s n).pins pin = some (cause, fails, at_) →
    Happens (.aspPinRetry n pin clear) s (fun t => others n s t ∧ Same { s with asp := t.asp } t ∧
      if clear then (portAt t n).pins = Tbl.del (portAt s n).pins pin
      else ∃ again, Tbl.PutAt (portAt s n).pins (portAt t n).pins pin (cause, fails + 1, again))) ∧
  (∀ input edge s (a : AspArm), input < 4 → edge < 2 → s.asp.arm = some a → a.source = input → a.edge = edge → a.start = none →
    Happens (.trigInEdge input edge) s (fun t => (t.asp.arm.map AspArm.start) = some (some (blockFrom (nowNs s + 100000))) ∧
      ∀ n, n < 8 → if bit a.ports n then (portAt t n).startAt = some (blockFrom (nowNs s + 100000)) ∧ (portAt t n).starter = some (a.rs, a.tag)
        else Tbl.get? t.asp.ports n = Tbl.get? s.asp.ports n))
end

