-- ==== Sys2Proof/Laws/State.lean ====
section
/-! SUPPORT. Laws/State.lean: one lemma for each field that an update of Machine/ leaves, so that no proof
unfolds a record update. The fuse store's lemmas stand in Laws/FuseFrame1.lean. -/

set_option linter.all false

namespace Sys2Proof.Machine

@[simp] theorem tick_pending (n : ℕ) (s : State) : (tick n s).pending = s.pending := (rfl)
@[simp] theorem tick_free (n : ℕ) (s : State) : (tick n s).free = s.free := (rfl)
@[simp] theorem tick_out (n : ℕ) (s : State) : (tick n s).out = s.out := (rfl)
@[simp] theorem tick_regs (n : ℕ) (s : State) : (tick n s).regs = s.regs := (rfl)
@[simp] theorem tick_latches (n : ℕ) (s : State) : (tick n s).latches = s.latches := (rfl)
@[simp] theorem tick_host (n : ℕ) (s : State) : (tick n s).host = s.host := (rfl)
@[simp] theorem tick_boot (n : ℕ) (s : State) : (tick n s).boot = s.boot := (rfl)
@[simp] theorem tick_flash (n : ℕ) (s : State) : (tick n s).flash = s.flash := (rfl)
@[simp] theorem tick_fab (n : ℕ) (s : State) : (tick n s).fab = s.fab := (rfl)
@[simp] theorem tick_legs (n : ℕ) (s : State) : (tick n s).legs = s.legs := (rfl)
@[simp] theorem tick_confs (n : ℕ) (s : State) : (tick n s).confs = s.confs := (rfl)
@[simp] theorem tick_flues (n : ℕ) (s : State) : (tick n s).flues = s.flues := (rfl)
@[simp] theorem tick_sram (n : ℕ) (s : State) : (tick n s).sram = s.sram := (rfl)
@[simp] theorem tick_dram (n : ℕ) (s : State) : (tick n s).dram = s.dram := (rfl)
@[simp] theorem tick_pkt (n : ℕ) (s : State) : (tick n s).pkt = s.pkt := (rfl)
@[simp] theorem tick_keys (n : ℕ) (s : State) : (tick n s).keys = s.keys := (rfl)
@[simp] theorem tick_audio (n : ℕ) (s : State) : (tick n s).audio = s.audio := (rfl)
@[simp] theorem tick_dsp (n : ℕ) (s : State) : (tick n s).dsp = s.dsp := (rfl)
@[simp] theorem tick_asp (n : ℕ) (s : State) : (tick n s).asp = s.asp := (rfl)
@[simp] theorem tick_video (n : ℕ) (s : State) : (tick n s).video = s.video := (rfl)
@[simp] theorem tick_wlan (n : ℕ) (s : State) : (tick n s).wlan = s.wlan := (rfl)
@[simp] theorem tick_radio (n : ℕ) (s : State) : (tick n s).radio = s.radio := (rfl)
@[simp] theorem tick_time (n : ℕ) (s : State) : (tick n s).time = s.time := (rfl)
@[simp] theorem tick_cap (n : ℕ) (s : State) : (tick n s).cap = s.cap := (rfl)
@[simp] theorem tick_health (n : ℕ) (s : State) : (tick n s).health = s.health := (rfl)
@[simp] theorem tick_power (n : ℕ) (s : State) : (tick n s).power = s.power := (rfl)
@[simp] theorem takeFree_pending (s : State) : (takeFree s).2.pending = s.pending := (rfl)
@[simp] theorem takeFree_out (s : State) : (takeFree s).2.out = s.out := (rfl)
@[simp] theorem takeFree_clock (s : State) : (takeFree s).2.clock = s.clock := (rfl)
@[simp] theorem takeFree_regs (s : State) : (takeFree s).2.regs = s.regs := (rfl)
@[simp] theorem takeFree_latches (s : State) : (takeFree s).2.latches = s.latches := (rfl)
@[simp] theorem takeFree_host (s : State) : (takeFree s).2.host = s.host := (rfl)
@[simp] theorem takeFree_boot (s : State) : (takeFree s).2.boot = s.boot := (rfl)
@[simp] theorem takeFree_flash (s : State) : (takeFree s).2.flash = s.flash := (rfl)
@[simp] theorem takeFree_fab (s : State) : (takeFree s).2.fab = s.fab := (rfl)
@[simp] theorem takeFree_legs (s : State) : (takeFree s).2.legs = s.legs := (rfl)
@[simp] theorem takeFree_confs (s : State) : (takeFree s).2.confs = s.confs := (rfl)
@[simp] theorem takeFree_flues (s : State) : (takeFree s).2.flues = s.flues := (rfl)
@[simp] theorem takeFree_sram (s : State) : (takeFree s).2.sram = s.sram := (rfl)
@[simp] theorem takeFree_dram (s : State) : (takeFree s).2.dram = s.dram := (rfl)
@[simp] theorem takeFree_pkt (s : State) : (takeFree s).2.pkt = s.pkt := (rfl)
@[simp] theorem takeFree_keys (s : State) : (takeFree s).2.keys = s.keys := (rfl)
@[simp] theorem takeFree_audio (s : State) : (takeFree s).2.audio = s.audio := (rfl)
@[simp] theorem takeFree_dsp (s : State) : (takeFree s).2.dsp = s.dsp := (rfl)
@[simp] theorem takeFree_asp (s : State) : (takeFree s).2.asp = s.asp := (rfl)
@[simp] theorem takeFree_video (s : State) : (takeFree s).2.video = s.video := (rfl)
@[simp] theorem takeFree_wlan (s : State) : (takeFree s).2.wlan = s.wlan := (rfl)
@[simp] theorem takeFree_radio (s : State) : (takeFree s).2.radio = s.radio := (rfl)
@[simp] theorem takeFree_time (s : State) : (takeFree s).2.time = s.time := (rfl)
@[simp] theorem takeFree_cap (s : State) : (takeFree s).2.cap = s.cap := (rfl)
@[simp] theorem takeFree_health (s : State) : (takeFree s).2.health = s.health := (rfl)
@[simp] theorem takeFree_power (s : State) : (takeFree s).2.power = s.power := (rfl)
@[simp] theorem emit_pending (o : Output) (s : State) : (emit o s).pending = s.pending := (rfl)
@[simp] theorem emit_free (o : Output) (s : State) : (emit o s).free = s.free := (rfl)
@[simp] theorem emit_clock (o : Output) (s : State) : (emit o s).clock = s.clock := (rfl)
@[simp] theorem emit_regs (o : Output) (s : State) : (emit o s).regs = s.regs := (rfl)
@[simp] theorem emit_latches (o : Output) (s : State) : (emit o s).latches = s.latches := (rfl)
@[simp] theorem emit_host (o : Output) (s : State) : (emit o s).host = s.host := (rfl)
@[simp] theorem emit_boot (o : Output) (s : State) : (emit o s).boot = s.boot := (rfl)
@[simp] theorem emit_flash (o : Output) (s : State) : (emit o s).flash = s.flash := (rfl)
@[simp] theorem emit_fab (o : Output) (s : State) : (emit o s).fab = s.fab := (rfl)
@[simp] theorem emit_legs (o : Output) (s : State) : (emit o s).legs = s.legs := (rfl)
@[simp] theorem emit_confs (o : Output) (s : State) : (emit o s).confs = s.confs := (rfl)
@[simp] theorem emit_flues (o : Output) (s : State) : (emit o s).flues = s.flues := (rfl)
@[simp] theorem emit_sram (o : Output) (s : State) : (emit o s).sram = s.sram := (rfl)
@[simp] theorem emit_dram (o : Output) (s : State) : (emit o s).dram = s.dram := (rfl)
@[simp] theorem emit_pkt (o : Output) (s : State) : (emit o s).pkt = s.pkt := (rfl)
@[simp] theorem emit_keys (o : Output) (s : State) : (emit o s).keys = s.keys := (rfl)
@[simp] theorem emit_audio (o : Output) (s : State) : (emit o s).audio = s.audio := (rfl)
@[simp] theorem emit_dsp (o : Output) (s : State) : (emit o s).dsp = s.dsp := (rfl)
@[simp] theorem emit_asp (o : Output) (s : State) : (emit o s).asp = s.asp := (rfl)
@[simp] theorem emit_video (o : Output) (s : State) : (emit o s).video = s.video := (rfl)
@[simp] theorem emit_wlan (o : Output) (s : State) : (emit o s).wlan = s.wlan := (rfl)
@[simp] theorem emit_radio (o : Output) (s : State) : (emit o s).radio = s.radio := (rfl)
@[simp] theorem emit_time (o : Output) (s : State) : (emit o s).time = s.time := (rfl)
@[simp] theorem emit_cap (o : Output) (s : State) : (emit o s).cap = s.cap := (rfl)
@[simp] theorem emit_health (o : Output) (s : State) : (emit o s).health = s.health := (rfl)
@[simp] theorem emit_power (o : Output) (s : State) : (emit o s).power = s.power := (rfl)
@[simp] theorem setRg_pending (key : ℕ) (value : ℕ) (s : State) : (setRg key value s).pending = s.pending := (rfl)
@[simp] theorem setRg_free (key : ℕ) (value : ℕ) (s : State) : (setRg key value s).free = s.free := (rfl)
@[simp] theorem setRg_out (key : ℕ) (value : ℕ) (s : State) : (setRg key value s).out = s.out := (rfl)
@[simp] theorem setRg_clock (key : ℕ) (value : ℕ) (s : State) : (setRg key value s).clock = s.clock := (rfl)
@[simp] theorem setRg_latches (key : ℕ) (value : ℕ) (s : State) : (setRg key value s).latches = s.latches := (rfl)
@[simp] theorem setRg_host (key : ℕ) (value : ℕ) (s : State) : (setRg key value s).host = s.host := (rfl)
@[simp] theorem setRg_boot (key : ℕ) (value : ℕ) (s : State) : (setRg key value s).boot = s.boot := (rfl)
@[simp] theorem setRg_flash (key : ℕ) (value : ℕ) (s : State) : (setRg key value s).flash = s.flash := (rfl)
@[simp] theorem setRg_fab (key : ℕ) (value : ℕ) (s : State) : (setRg key value s).fab = s.fab := (rfl)
@[simp] theorem setRg_legs (key : ℕ) (value : ℕ) (s : State) : (setRg key value s).legs = s.legs := (rfl)
@[simp] theorem setRg_confs (key : ℕ) (value : ℕ) (s : State) : (setRg key value s).confs = s.confs := (rfl)
@[simp] theorem setRg_flues (key : ℕ) (value : ℕ) (s : State) : (setRg key value s).flues = s.flues := (rfl)
@[simp] theorem setRg_sram (key : ℕ) (value : ℕ) (s : State) : (setRg key value s).sram = s.sram := (rfl)
@[simp] theorem setRg_dram (key : ℕ) (value : ℕ) (s : State) : (setRg key value s).dram = s.dram := (rfl)
@[simp] theorem setRg_pkt (key : ℕ) (value : ℕ) (s : State) : (setRg key value s).pkt = s.pkt := (rfl)
@[simp] theorem setRg_keys (key : ℕ) (value : ℕ) (s : State) : (setRg key value s).keys = s.keys := (rfl)
@[simp] theorem setRg_audio (key : ℕ) (value : ℕ) (s : State) : (setRg key value s).audio = s.audio := (rfl)
@[simp] theorem setRg_dsp (key : ℕ) (value : ℕ) (s : State) : (setRg key value s).dsp = s.dsp := (rfl)
@[simp] theorem setRg_asp (key : ℕ) (value : ℕ) (s : State) : (setRg key value s).asp = s.asp := (rfl)
@[simp] theorem setRg_video (key : ℕ) (value : ℕ) (s : State) : (setRg key value s).video = s.video := (rfl)
@[simp] theorem setRg_wlan (key : ℕ) (value : ℕ) (s : State) : (setRg key value s).wlan = s.wlan := (rfl)
@[simp] theorem setRg_radio (key : ℕ) (value : ℕ) (s : State) : (setRg key value s).radio = s.radio := (rfl)
@[simp] theorem setRg_time (key : ℕ) (value : ℕ) (s : State) : (setRg key value s).time = s.time := (rfl)
@[simp] theorem setRg_cap (key : ℕ) (value : ℕ) (s : State) : (setRg key value s).cap = s.cap := (rfl)
@[simp] theorem setRg_health (key : ℕ) (value : ℕ) (s : State) : (setRg key value s).health = s.health := (rfl)
@[simp] theorem setRg_power (key : ℕ) (value : ℕ) (s : State) : (setRg key value s).power = s.power := (rfl)
@[simp] theorem bumpBy_pending (key : ℕ) (n : ℕ) (s : State) : (bumpBy key n s).pending = s.pending := (rfl)
@[simp] theorem bumpBy_free (key : ℕ) (n : ℕ) (s : State) : (bumpBy key n s).free = s.free := (rfl)
@[simp] theorem bumpBy_out (key : ℕ) (n : ℕ) (s : State) : (bumpBy key n s).out = s.out := (rfl)
@[simp] theorem bumpBy_clock (key : ℕ) (n : ℕ) (s : State) : (bumpBy key n s).clock = s.clock := (rfl)
@[simp] theorem bumpBy_latches (key : ℕ) (n : ℕ) (s : State) : (bumpBy key n s).latches = s.latches := (rfl)
@[simp] theorem bumpBy_host (key : ℕ) (n : ℕ) (s : State) : (bumpBy key n s).host = s.host := (rfl)
@[simp] theorem bumpBy_boot (key : ℕ) (n : ℕ) (s : State) : (bumpBy key n s).boot = s.boot := (rfl)
@[simp] theorem bumpBy_flash (key : ℕ) (n : ℕ) (s : State) : (bumpBy key n s).flash = s.flash := (rfl)
@[simp] theorem bumpBy_fab (key : ℕ) (n : ℕ) (s : State) : (bumpBy key n s).fab = s.fab := (rfl)
@[simp] theorem bumpBy_legs (key : ℕ) (n : ℕ) (s : State) : (bumpBy key n s).legs = s.legs := (rfl)
@[simp] theorem bumpBy_confs (key : ℕ) (n : ℕ) (s : State) : (bumpBy key n s).confs = s.confs := (rfl)
@[simp] theorem bumpBy_flues (key : ℕ) (n : ℕ) (s : State) : (bumpBy key n s).flues = s.flues := (rfl)
@[simp] theorem bumpBy_sram (key : ℕ) (n : ℕ) (s : State) : (bumpBy key n s).sram = s.sram := (rfl)
@[simp] theorem bumpBy_dram (key : ℕ) (n : ℕ) (s : State) : (bumpBy key n s).dram = s.dram := (rfl)
@[simp] theorem bumpBy_pkt (key : ℕ) (n : ℕ) (s : State) : (bumpBy key n s).pkt = s.pkt := (rfl)
@[simp] theorem bumpBy_keys (key : ℕ) (n : ℕ) (s : State) : (bumpBy key n s).keys = s.keys := (rfl)
@[simp] theorem bumpBy_audio (key : ℕ) (n : ℕ) (s : State) : (bumpBy key n s).audio = s.audio := (rfl)
@[simp] theorem bumpBy_dsp (key : ℕ) (n : ℕ) (s : State) : (bumpBy key n s).dsp = s.dsp := (rfl)
@[simp] theorem bumpBy_asp (key : ℕ) (n : ℕ) (s : State) : (bumpBy key n s).asp = s.asp := (rfl)
@[simp] theorem bumpBy_video (key : ℕ) (n : ℕ) (s : State) : (bumpBy key n s).video = s.video := (rfl)
@[simp] theorem bumpBy_wlan (key : ℕ) (n : ℕ) (s : State) : (bumpBy key n s).wlan = s.wlan := (rfl)
@[simp] theorem bumpBy_radio (key : ℕ) (n : ℕ) (s : State) : (bumpBy key n s).radio = s.radio := (rfl)
@[simp] theorem bumpBy_time (key : ℕ) (n : ℕ) (s : State) : (bumpBy key n s).time = s.time := (rfl)
@[simp] theorem bumpBy_cap (key : ℕ) (n : ℕ) (s : State) : (bumpBy key n s).cap = s.cap := (rfl)
@[simp] theorem bumpBy_health (key : ℕ) (n : ℕ) (s : State) : (bumpBy key n s).health = s.health := (rfl)
@[simp] theorem bumpBy_power (key : ℕ) (n : ℕ) (s : State) : (bumpBy key n s).power = s.power := (rfl)
@[simp] theorem bump_pending (key : ℕ) (s : State) : (bump key s).pending = s.pending := (rfl)
@[simp] theorem bump_free (key : ℕ) (s : State) : (bump key s).free = s.free := (rfl)
@[simp] theorem bump_out (key : ℕ) (s : State) : (bump key s).out = s.out := (rfl)
@[simp] theorem bump_clock (key : ℕ) (s : State) : (bump key s).clock = s.clock := (rfl)
@[simp] theorem bump_latches (key : ℕ) (s : State) : (bump key s).latches = s.latches := (rfl)
@[simp] theorem bump_host (key : ℕ) (s : State) : (bump key s).host = s.host := (rfl)
@[simp] theorem bump_boot (key : ℕ) (s : State) : (bump key s).boot = s.boot := (rfl)
@[simp] theorem bump_flash (key : ℕ) (s : State) : (bump key s).flash = s.flash := (rfl)
@[simp] theorem bump_fab (key : ℕ) (s : State) : (bump key s).fab = s.fab := (rfl)
@[simp] theorem bump_legs (key : ℕ) (s : State) : (bump key s).legs = s.legs := (rfl)
@[simp] theorem bump_confs (key : ℕ) (s : State) : (bump key s).confs = s.confs := (rfl)
@[simp] theorem bump_flues (key : ℕ) (s : State) : (bump key s).flues = s.flues := (rfl)
@[simp] theorem bump_sram (key : ℕ) (s : State) : (bump key s).sram = s.sram := (rfl)
@[simp] theorem bump_dram (key : ℕ) (s : State) : (bump key s).dram = s.dram := (rfl)
@[simp] theorem bump_pkt (key : ℕ) (s : State) : (bump key s).pkt = s.pkt := (rfl)
@[simp] theorem bump_keys (key : ℕ) (s : State) : (bump key s).keys = s.keys := (rfl)
@[simp] theorem bump_audio (key : ℕ) (s : State) : (bump key s).audio = s.audio := (rfl)
@[simp] theorem bump_dsp (key : ℕ) (s : State) : (bump key s).dsp = s.dsp := (rfl)
@[simp] theorem bump_asp (key : ℕ) (s : State) : (bump key s).asp = s.asp := (rfl)
@[simp] theorem bump_video (key : ℕ) (s : State) : (bump key s).video = s.video := (rfl)
@[simp] theorem bump_wlan (key : ℕ) (s : State) : (bump key s).wlan = s.wlan := (rfl)
@[simp] theorem bump_radio (key : ℕ) (s : State) : (bump key s).radio = s.radio := (rfl)
@[simp] theorem bump_time (key : ℕ) (s : State) : (bump key s).time = s.time := (rfl)
@[simp] theorem bump_cap (key : ℕ) (s : State) : (bump key s).cap = s.cap := (rfl)
@[simp] theorem bump_health (key : ℕ) (s : State) : (bump key s).health = s.health := (rfl)
@[simp] theorem bump_power (key : ℕ) (s : State) : (bump key s).power = s.power := (rfl)
@[simp] theorem trackMax_pending (key : ℕ) (v : ℕ) (s : State) : (trackMax key v s).pending = s.pending := (rfl)
@[simp] theorem trackMax_free (key : ℕ) (v : ℕ) (s : State) : (trackMax key v s).free = s.free := (rfl)
@[simp] theorem trackMax_out (key : ℕ) (v : ℕ) (s : State) : (trackMax key v s).out = s.out := (rfl)
@[simp] theorem trackMax_clock (key : ℕ) (v : ℕ) (s : State) : (trackMax key v s).clock = s.clock := (rfl)
@[simp] theorem trackMax_latches (key : ℕ) (v : ℕ) (s : State) : (trackMax key v s).latches = s.latches := (rfl)
@[simp] theorem trackMax_host (key : ℕ) (v : ℕ) (s : State) : (trackMax key v s).host = s.host := (rfl)
@[simp] theorem trackMax_boot (key : ℕ) (v : ℕ) (s : State) : (trackMax key v s).boot = s.boot := (rfl)
@[simp] theorem trackMax_flash (key : ℕ) (v : ℕ) (s : State) : (trackMax key v s).flash = s.flash := (rfl)
@[simp] theorem trackMax_fab (key : ℕ) (v : ℕ) (s : State) : (trackMax key v s).fab = s.fab := (rfl)
@[simp] theorem trackMax_legs (key : ℕ) (v : ℕ) (s : State) : (trackMax key v s).legs = s.legs := (rfl)
@[simp] theorem trackMax_confs (key : ℕ) (v : ℕ) (s : State) : (trackMax key v s).confs = s.confs := (rfl)
@[simp] theorem trackMax_flues (key : ℕ) (v : ℕ) (s : State) : (trackMax key v s).flues = s.flues := (rfl)
@[simp] theorem trackMax_sram (key : ℕ) (v : ℕ) (s : State) : (trackMax key v s).sram = s.sram := (rfl)
@[simp] theorem trackMax_dram (key : ℕ) (v : ℕ) (s : State) : (trackMax key v s).dram = s.dram := (rfl)
@[simp] theorem trackMax_pkt (key : ℕ) (v : ℕ) (s : State) : (trackMax key v s).pkt = s.pkt := (rfl)
@[simp] theorem trackMax_keys (key : ℕ) (v : ℕ) (s : State) : (trackMax key v s).keys = s.keys := (rfl)
@[simp] theorem trackMax_audio (key : ℕ) (v : ℕ) (s : State) : (trackMax key v s).audio = s.audio := (rfl)
@[simp] theorem trackMax_dsp (key : ℕ) (v : ℕ) (s : State) : (trackMax key v s).dsp = s.dsp := (rfl)
@[simp] theorem trackMax_asp (key : ℕ) (v : ℕ) (s : State) : (trackMax key v s).asp = s.asp := (rfl)
@[simp] theorem trackMax_video (key : ℕ) (v : ℕ) (s : State) : (trackMax key v s).video = s.video := (rfl)
@[simp] theorem trackMax_wlan (key : ℕ) (v : ℕ) (s : State) : (trackMax key v s).wlan = s.wlan := (rfl)
@[simp] theorem trackMax_radio (key : ℕ) (v : ℕ) (s : State) : (trackMax key v s).radio = s.radio := (rfl)
@[simp] theorem trackMax_time (key : ℕ) (v : ℕ) (s : State) : (trackMax key v s).time = s.time := (rfl)
@[simp] theorem trackMax_cap (key : ℕ) (v : ℕ) (s : State) : (trackMax key v s).cap = s.cap := (rfl)
@[simp] theorem trackMax_health (key : ℕ) (v : ℕ) (s : State) : (trackMax key v s).health = s.health := (rfl)
@[simp] theorem trackMax_power (key : ℕ) (v : ℕ) (s : State) : (trackMax key v s).power = s.power := (rfl)
@[simp] theorem modRing_pending (rs : ℕ) (f : RingSet → RingSet) (s : State) : (modRing rs f s).pending = s.pending := (rfl)
@[simp] theorem modRing_free (rs : ℕ) (f : RingSet → RingSet) (s : State) : (modRing rs f s).free = s.free := (rfl)
@[simp] theorem modRing_out (rs : ℕ) (f : RingSet → RingSet) (s : State) : (modRing rs f s).out = s.out := (rfl)
@[simp] theorem modRing_clock (rs : ℕ) (f : RingSet → RingSet) (s : State) : (modRing rs f s).clock = s.clock := (rfl)
@[simp] theorem modRing_regs (rs : ℕ) (f : RingSet → RingSet) (s : State) : (modRing rs f s).regs = s.regs := (rfl)
@[simp] theorem modRing_latches (rs : ℕ) (f : RingSet → RingSet) (s : State) : (modRing rs f s).latches = s.latches := (rfl)
@[simp] theorem modRing_boot (rs : ℕ) (f : RingSet → RingSet) (s : State) : (modRing rs f s).boot = s.boot := (rfl)
@[simp] theorem modRing_flash (rs : ℕ) (f : RingSet → RingSet) (s : State) : (modRing rs f s).flash = s.flash := (rfl)
@[simp] theorem modRing_fab (rs : ℕ) (f : RingSet → RingSet) (s : State) : (modRing rs f s).fab = s.fab := (rfl)
@[simp] theorem modRing_legs (rs : ℕ) (f : RingSet → RingSet) (s : State) : (modRing rs f s).legs = s.legs := (rfl)
@[simp] theorem modRing_confs (rs : ℕ) (f : RingSet → RingSet) (s : State) : (modRing rs f s).confs = s.confs := (rfl)
@[simp] theorem modRing_flues (rs : ℕ) (f : RingSet → RingSet) (s : State) : (modRing rs f s).flues = s.flues := (rfl)
@[simp] theorem modRing_sram (rs : ℕ) (f : RingSet → RingSet) (s : State) : (modRing rs f s).sram = s.sram := (rfl)
@[simp] theorem modRing_dram (rs : ℕ) (f : RingSet → RingSet) (s : State) : (modRing rs f s).dram = s.dram := (rfl)
@[simp] theorem modRing_pkt (rs : ℕ) (f : RingSet → RingSet) (s : State) : (modRing rs f s).pkt = s.pkt := (rfl)
@[simp] theorem modRing_keys (rs : ℕ) (f : RingSet → RingSet) (s : State) : (modRing rs f s).keys = s.keys := (rfl)
@[simp] theorem modRing_audio (rs : ℕ) (f : RingSet → RingSet) (s : State) : (modRing rs f s).audio = s.audio := (rfl)
@[simp] theorem modRing_dsp (rs : ℕ) (f : RingSet → RingSet) (s : State) : (modRing rs f s).dsp = s.dsp := (rfl)
@[simp] theorem modRing_asp (rs : ℕ) (f : RingSet → RingSet) (s : State) : (modRing rs f s).asp = s.asp := (rfl)
@[simp] theorem modRing_video (rs : ℕ) (f : RingSet → RingSet) (s : State) : (modRing rs f s).video = s.video := (rfl)
@[simp] theorem modRing_wlan (rs : ℕ) (f : RingSet → RingSet) (s : State) : (modRing rs f s).wlan = s.wlan := (rfl)
@[simp] theorem modRing_radio (rs : ℕ) (f : RingSet → RingSet) (s : State) : (modRing rs f s).radio = s.radio := (rfl)
@[simp] theorem modRing_time (rs : ℕ) (f : RingSet → RingSet) (s : State) : (modRing rs f s).time = s.time := (rfl)
@[simp] theorem modRing_cap (rs : ℕ) (f : RingSet → RingSet) (s : State) : (modRing rs f s).cap = s.cap := (rfl)
@[simp] theorem modRing_health (rs : ℕ) (f : RingSet → RingSet) (s : State) : (modRing rs f s).health = s.health := (rfl)
@[simp] theorem modRing_power (rs : ℕ) (f : RingSet → RingSet) (s : State) : (modRing rs f s).power = s.power := (rfl)
@[simp] theorem modPort_pending (p : ℕ) (f : Port → Port) (s : State) : (modPort p f s).pending = s.pending := (rfl)
@[simp] theorem modPort_free (p : ℕ) (f : Port → Port) (s : State) : (modPort p f s).free = s.free := (rfl)
@[simp] theorem modPort_out (p : ℕ) (f : Port → Port) (s : State) : (modPort p f s).out = s.out := (rfl)
@[simp] theorem modPort_clock (p : ℕ) (f : Port → Port) (s : State) : (modPort p f s).clock = s.clock := (rfl)
@[simp] theorem modPort_regs (p : ℕ) (f : Port → Port) (s : State) : (modPort p f s).regs = s.regs := (rfl)
@[simp] theorem modPort_latches (p : ℕ) (f : Port → Port) (s : State) : (modPort p f s).latches = s.latches := (rfl)
@[simp] theorem modPort_boot (p : ℕ) (f : Port → Port) (s : State) : (modPort p f s).boot = s.boot := (rfl)
@[simp] theorem modPort_flash (p : ℕ) (f : Port → Port) (s : State) : (modPort p f s).flash = s.flash := (rfl)
@[simp] theorem modPort_fab (p : ℕ) (f : Port → Port) (s : State) : (modPort p f s).fab = s.fab := (rfl)
@[simp] theorem modPort_legs (p : ℕ) (f : Port → Port) (s : State) : (modPort p f s).legs = s.legs := (rfl)
@[simp] theorem modPort_confs (p : ℕ) (f : Port → Port) (s : State) : (modPort p f s).confs = s.confs := (rfl)
@[simp] theorem modPort_flues (p : ℕ) (f : Port → Port) (s : State) : (modPort p f s).flues = s.flues := (rfl)
@[simp] theorem modPort_sram (p : ℕ) (f : Port → Port) (s : State) : (modPort p f s).sram = s.sram := (rfl)
@[simp] theorem modPort_dram (p : ℕ) (f : Port → Port) (s : State) : (modPort p f s).dram = s.dram := (rfl)
@[simp] theorem modPort_pkt (p : ℕ) (f : Port → Port) (s : State) : (modPort p f s).pkt = s.pkt := (rfl)
@[simp] theorem modPort_keys (p : ℕ) (f : Port → Port) (s : State) : (modPort p f s).keys = s.keys := (rfl)
@[simp] theorem modPort_audio (p : ℕ) (f : Port → Port) (s : State) : (modPort p f s).audio = s.audio := (rfl)
@[simp] theorem modPort_dsp (p : ℕ) (f : Port → Port) (s : State) : (modPort p f s).dsp = s.dsp := (rfl)
@[simp] theorem modPort_asp (p : ℕ) (f : Port → Port) (s : State) : (modPort p f s).asp = s.asp := (rfl)
@[simp] theorem modPort_video (p : ℕ) (f : Port → Port) (s : State) : (modPort p f s).video = s.video := (rfl)
@[simp] theorem modPort_wlan (p : ℕ) (f : Port → Port) (s : State) : (modPort p f s).wlan = s.wlan := (rfl)
@[simp] theorem modPort_radio (p : ℕ) (f : Port → Port) (s : State) : (modPort p f s).radio = s.radio := (rfl)
@[simp] theorem modPort_time (p : ℕ) (f : Port → Port) (s : State) : (modPort p f s).time = s.time := (rfl)
@[simp] theorem modPort_cap (p : ℕ) (f : Port → Port) (s : State) : (modPort p f s).cap = s.cap := (rfl)
@[simp] theorem modPort_health (p : ℕ) (f : Port → Port) (s : State) : (modPort p f s).health = s.health := (rfl)
@[simp] theorem modPort_power (p : ℕ) (f : Port → Port) (s : State) : (modPort p f s).power = s.power := (rfl)
@[simp] theorem modEntry_pending (seq : ℕ) (f : OutCmd → OutCmd) (s : State) : (modEntry seq f s).pending = s.pending := (rfl)
@[simp] theorem modEntry_free (seq : ℕ) (f : OutCmd → OutCmd) (s : State) : (modEntry seq f s).free = s.free := (rfl)
@[simp] theorem modEntry_out (seq : ℕ) (f : OutCmd → OutCmd) (s : State) : (modEntry seq f s).out = s.out := (rfl)
@[simp] theorem modEntry_clock (seq : ℕ) (f : OutCmd → OutCmd) (s : State) : (modEntry seq f s).clock = s.clock := (rfl)
@[simp] theorem modEntry_regs (seq : ℕ) (f : OutCmd → OutCmd) (s : State) : (modEntry seq f s).regs = s.regs := (rfl)
@[simp] theorem modEntry_latches (seq : ℕ) (f : OutCmd → OutCmd) (s : State) : (modEntry seq f s).latches = s.latches := (rfl)
@[simp] theorem modEntry_boot (seq : ℕ) (f : OutCmd → OutCmd) (s : State) : (modEntry seq f s).boot = s.boot := (rfl)
@[simp] theorem modEntry_flash (seq : ℕ) (f : OutCmd → OutCmd) (s : State) : (modEntry seq f s).flash = s.flash := (rfl)
@[simp] theorem modEntry_fab (seq : ℕ) (f : OutCmd → OutCmd) (s : State) : (modEntry seq f s).fab = s.fab := (rfl)
@[simp] theorem modEntry_legs (seq : ℕ) (f : OutCmd → OutCmd) (s : State) : (modEntry seq f s).legs = s.legs := (rfl)
@[simp] theorem modEntry_confs (seq : ℕ) (f : OutCmd → OutCmd) (s : State) : (modEntry seq f s).confs = s.confs := (rfl)
@[simp] theorem modEntry_flues (seq : ℕ) (f : OutCmd → OutCmd) (s : State) : (modEntry seq f s).flues = s.flues := (rfl)
@[simp] theorem modEntry_sram (seq : ℕ) (f : OutCmd → OutCmd) (s : State) : (modEntry seq f s).sram = s.sram := (rfl)
@[simp] theorem modEntry_dram (seq : ℕ) (f : OutCmd → OutCmd) (s : State) : (modEntry seq f s).dram = s.dram := (rfl)
@[simp] theorem modEntry_pkt (seq : ℕ) (f : OutCmd → OutCmd) (s : State) : (modEntry seq f s).pkt = s.pkt := (rfl)
@[simp] theorem modEntry_keys (seq : ℕ) (f : OutCmd → OutCmd) (s : State) : (modEntry seq f s).keys = s.keys := (rfl)
@[simp] theorem modEntry_audio (seq : ℕ) (f : OutCmd → OutCmd) (s : State) : (modEntry seq f s).audio = s.audio := (rfl)
@[simp] theorem modEntry_dsp (seq : ℕ) (f : OutCmd → OutCmd) (s : State) : (modEntry seq f s).dsp = s.dsp := (rfl)
@[simp] theorem modEntry_asp (seq : ℕ) (f : OutCmd → OutCmd) (s : State) : (modEntry seq f s).asp = s.asp := (rfl)
@[simp] theorem modEntry_video (seq : ℕ) (f : OutCmd → OutCmd) (s : State) : (modEntry seq f s).video = s.video := (rfl)
@[simp] theorem modEntry_wlan (seq : ℕ) (f : OutCmd → OutCmd) (s : State) : (modEntry seq f s).wlan = s.wlan := (rfl)
@[simp] theorem modEntry_radio (seq : ℕ) (f : OutCmd → OutCmd) (s : State) : (modEntry seq f s).radio = s.radio := (rfl)
@[simp] theorem modEntry_time (seq : ℕ) (f : OutCmd → OutCmd) (s : State) : (modEntry seq f s).time = s.time := (rfl)
@[simp] theorem modEntry_cap (seq : ℕ) (f : OutCmd → OutCmd) (s : State) : (modEntry seq f s).cap = s.cap := (rfl)
@[simp] theorem modEntry_health (seq : ℕ) (f : OutCmd → OutCmd) (s : State) : (modEntry seq f s).health = s.health := (rfl)
@[simp] theorem modEntry_power (seq : ℕ) (f : OutCmd → OutCmd) (s : State) : (modEntry seq f s).power = s.power := (rfl)
@[simp] theorem addEntry_pending (op : ℕ) (c : Cmd) (s : State) : (addEntry op c s).pending = s.pending := (rfl)
@[simp] theorem addEntry_free (op : ℕ) (c : Cmd) (s : State) : (addEntry op c s).free = s.free := (rfl)
@[simp] theorem addEntry_out (op : ℕ) (c : Cmd) (s : State) : (addEntry op c s).out = s.out := (rfl)
@[simp] theorem addEntry_clock (op : ℕ) (c : Cmd) (s : State) : (addEntry op c s).clock = s.clock := (rfl)
@[simp] theorem addEntry_latches (op : ℕ) (c : Cmd) (s : State) : (addEntry op c s).latches = s.latches := (rfl)
@[simp] theorem addEntry_boot (op : ℕ) (c : Cmd) (s : State) : (addEntry op c s).boot = s.boot := (rfl)
@[simp] theorem addEntry_flash (op : ℕ) (c : Cmd) (s : State) : (addEntry op c s).flash = s.flash := (rfl)
@[simp] theorem addEntry_fab (op : ℕ) (c : Cmd) (s : State) : (addEntry op c s).fab = s.fab := (rfl)
@[simp] theorem addEntry_legs (op : ℕ) (c : Cmd) (s : State) : (addEntry op c s).legs = s.legs := (rfl)
@[simp] theorem addEntry_confs (op : ℕ) (c : Cmd) (s : State) : (addEntry op c s).confs = s.confs := (rfl)
@[simp] theorem addEntry_flues (op : ℕ) (c : Cmd) (s : State) : (addEntry op c s).flues = s.flues := (rfl)
@[simp] theorem addEntry_sram (op : ℕ) (c : Cmd) (s : State) : (addEntry op c s).sram = s.sram := (rfl)
@[simp] theorem addEntry_dram (op : ℕ) (c : Cmd) (s : State) : (addEntry op c s).dram = s.dram := (rfl)
@[simp] theorem addEntry_pkt (op : ℕ) (c : Cmd) (s : State) : (addEntry op c s).pkt = s.pkt := (rfl)
@[simp] theorem addEntry_keys (op : ℕ) (c : Cmd) (s : State) : (addEntry op c s).keys = s.keys := (rfl)
@[simp] theorem addEntry_audio (op : ℕ) (c : Cmd) (s : State) : (addEntry op c s).audio = s.audio := (rfl)
@[simp] theorem addEntry_dsp (op : ℕ) (c : Cmd) (s : State) : (addEntry op c s).dsp = s.dsp := (rfl)
@[simp] theorem addEntry_asp (op : ℕ) (c : Cmd) (s : State) : (addEntry op c s).asp = s.asp := (rfl)
@[simp] theorem addEntry_video (op : ℕ) (c : Cmd) (s : State) : (addEntry op c s).video = s.video := (rfl)
@[simp] theorem addEntry_wlan (op : ℕ) (c : Cmd) (s : State) : (addEntry op c s).wlan = s.wlan := (rfl)
@[simp] theorem addEntry_radio (op : ℕ) (c : Cmd) (s : State) : (addEntry op c s).radio = s.radio := (rfl)
@[simp] theorem addEntry_time (op : ℕ) (c : Cmd) (s : State) : (addEntry op c s).time = s.time := (rfl)
@[simp] theorem addEntry_cap (op : ℕ) (c : Cmd) (s : State) : (addEntry op c s).cap = s.cap := (rfl)
@[simp] theorem addEntry_health (op : ℕ) (c : Cmd) (s : State) : (addEntry op c s).health = s.health := (rfl)
@[simp] theorem addEntry_power (op : ℕ) (c : Cmd) (s : State) : (addEntry op c s).power = s.power := (rfl)
@[simp] theorem modAsp_pending (n : ℕ) (f : AspPort → AspPort) (s : State) : (modAsp n f s).pending = s.pending := (rfl)
@[simp] theorem modAsp_free (n : ℕ) (f : AspPort → AspPort) (s : State) : (modAsp n f s).free = s.free := (rfl)
@[simp] theorem modAsp_out (n : ℕ) (f : AspPort → AspPort) (s : State) : (modAsp n f s).out = s.out := (rfl)
@[simp] theorem modAsp_clock (n : ℕ) (f : AspPort → AspPort) (s : State) : (modAsp n f s).clock = s.clock := (rfl)
@[simp] theorem modAsp_regs (n : ℕ) (f : AspPort → AspPort) (s : State) : (modAsp n f s).regs = s.regs := (rfl)
@[simp] theorem modAsp_latches (n : ℕ) (f : AspPort → AspPort) (s : State) : (modAsp n f s).latches = s.latches := (rfl)
@[simp] theorem modAsp_host (n : ℕ) (f : AspPort → AspPort) (s : State) : (modAsp n f s).host = s.host := (rfl)
@[simp] theorem modAsp_boot (n : ℕ) (f : AspPort → AspPort) (s : State) : (modAsp n f s).boot = s.boot := (rfl)
@[simp] theorem modAsp_flash (n : ℕ) (f : AspPort → AspPort) (s : State) : (modAsp n f s).flash = s.flash := (rfl)
@[simp] theorem modAsp_fab (n : ℕ) (f : AspPort → AspPort) (s : State) : (modAsp n f s).fab = s.fab := (rfl)
@[simp] theorem modAsp_legs (n : ℕ) (f : AspPort → AspPort) (s : State) : (modAsp n f s).legs = s.legs := (rfl)
@[simp] theorem modAsp_confs (n : ℕ) (f : AspPort → AspPort) (s : State) : (modAsp n f s).confs = s.confs := (rfl)
@[simp] theorem modAsp_flues (n : ℕ) (f : AspPort → AspPort) (s : State) : (modAsp n f s).flues = s.flues := (rfl)
@[simp] theorem modAsp_sram (n : ℕ) (f : AspPort → AspPort) (s : State) : (modAsp n f s).sram = s.sram := (rfl)
@[simp] theorem modAsp_dram (n : ℕ) (f : AspPort → AspPort) (s : State) : (modAsp n f s).dram = s.dram := (rfl)
@[simp] theorem modAsp_pkt (n : ℕ) (f : AspPort → AspPort) (s : State) : (modAsp n f s).pkt = s.pkt := (rfl)
@[simp] theorem modAsp_keys (n : ℕ) (f : AspPort → AspPort) (s : State) : (modAsp n f s).keys = s.keys := (rfl)
@[simp] theorem modAsp_audio (n : ℕ) (f : AspPort → AspPort) (s : State) : (modAsp n f s).audio = s.audio := (rfl)
@[simp] theorem modAsp_dsp (n : ℕ) (f : AspPort → AspPort) (s : State) : (modAsp n f s).dsp = s.dsp := (rfl)
@[simp] theorem modAsp_video (n : ℕ) (f : AspPort → AspPort) (s : State) : (modAsp n f s).video = s.video := (rfl)
@[simp] theorem modAsp_wlan (n : ℕ) (f : AspPort → AspPort) (s : State) : (modAsp n f s).wlan = s.wlan := (rfl)
@[simp] theorem modAsp_radio (n : ℕ) (f : AspPort → AspPort) (s : State) : (modAsp n f s).radio = s.radio := (rfl)
@[simp] theorem modAsp_time (n : ℕ) (f : AspPort → AspPort) (s : State) : (modAsp n f s).time = s.time := (rfl)
@[simp] theorem modAsp_cap (n : ℕ) (f : AspPort → AspPort) (s : State) : (modAsp n f s).cap = s.cap := (rfl)
@[simp] theorem modAsp_health (n : ℕ) (f : AspPort → AspPort) (s : State) : (modAsp n f s).health = s.health := (rfl)
@[simp] theorem modAsp_power (n : ℕ) (f : AspPort → AspPort) (s : State) : (modAsp n f s).power = s.power := (rfl)
@[simp] theorem modBoard_pending (i : ℕ) (tid : ℕ) (f : Scoreboard → Scoreboard) (s : State) : (modBoard i tid f s).pending = s.pending := (rfl)
@[simp] theorem modBoard_free (i : ℕ) (tid : ℕ) (f : Scoreboard → Scoreboard) (s : State) : (modBoard i tid f s).free = s.free := (rfl)
@[simp] theorem modBoard_out (i : ℕ) (tid : ℕ) (f : Scoreboard → Scoreboard) (s : State) : (modBoard i tid f s).out = s.out := (rfl)
@[simp] theorem modBoard_clock (i : ℕ) (tid : ℕ) (f : Scoreboard → Scoreboard) (s : State) : (modBoard i tid f s).clock = s.clock := (rfl)
@[simp] theorem modBoard_regs (i : ℕ) (tid : ℕ) (f : Scoreboard → Scoreboard) (s : State) : (modBoard i tid f s).regs = s.regs := (rfl)
@[simp] theorem modBoard_latches (i : ℕ) (tid : ℕ) (f : Scoreboard → Scoreboard) (s : State) : (modBoard i tid f s).latches = s.latches := (rfl)
@[simp] theorem modBoard_host (i : ℕ) (tid : ℕ) (f : Scoreboard → Scoreboard) (s : State) : (modBoard i tid f s).host = s.host := (rfl)
@[simp] theorem modBoard_boot (i : ℕ) (tid : ℕ) (f : Scoreboard → Scoreboard) (s : State) : (modBoard i tid f s).boot = s.boot := (rfl)
@[simp] theorem modBoard_flash (i : ℕ) (tid : ℕ) (f : Scoreboard → Scoreboard) (s : State) : (modBoard i tid f s).flash = s.flash := (rfl)
@[simp] theorem modBoard_fab (i : ℕ) (tid : ℕ) (f : Scoreboard → Scoreboard) (s : State) : (modBoard i tid f s).fab = s.fab := (rfl)
@[simp] theorem modBoard_legs (i : ℕ) (tid : ℕ) (f : Scoreboard → Scoreboard) (s : State) : (modBoard i tid f s).legs = s.legs := (rfl)
@[simp] theorem modBoard_confs (i : ℕ) (tid : ℕ) (f : Scoreboard → Scoreboard) (s : State) : (modBoard i tid f s).confs = s.confs := (rfl)
@[simp] theorem modBoard_flues (i : ℕ) (tid : ℕ) (f : Scoreboard → Scoreboard) (s : State) : (modBoard i tid f s).flues = s.flues := (rfl)
@[simp] theorem modBoard_sram (i : ℕ) (tid : ℕ) (f : Scoreboard → Scoreboard) (s : State) : (modBoard i tid f s).sram = s.sram := (rfl)
@[simp] theorem modBoard_dram (i : ℕ) (tid : ℕ) (f : Scoreboard → Scoreboard) (s : State) : (modBoard i tid f s).dram = s.dram := (rfl)
@[simp] theorem modBoard_pkt (i : ℕ) (tid : ℕ) (f : Scoreboard → Scoreboard) (s : State) : (modBoard i tid f s).pkt = s.pkt := (rfl)
@[simp] theorem modBoard_keys (i : ℕ) (tid : ℕ) (f : Scoreboard → Scoreboard) (s : State) : (modBoard i tid f s).keys = s.keys := (rfl)
@[simp] theorem modBoard_audio (i : ℕ) (tid : ℕ) (f : Scoreboard → Scoreboard) (s : State) : (modBoard i tid f s).audio = s.audio := (rfl)
@[simp] theorem modBoard_dsp (i : ℕ) (tid : ℕ) (f : Scoreboard → Scoreboard) (s : State) : (modBoard i tid f s).dsp = s.dsp := (rfl)
@[simp] theorem modBoard_asp (i : ℕ) (tid : ℕ) (f : Scoreboard → Scoreboard) (s : State) : (modBoard i tid f s).asp = s.asp := (rfl)
@[simp] theorem modBoard_video (i : ℕ) (tid : ℕ) (f : Scoreboard → Scoreboard) (s : State) : (modBoard i tid f s).video = s.video := (rfl)
@[simp] theorem modBoard_radio (i : ℕ) (tid : ℕ) (f : Scoreboard → Scoreboard) (s : State) : (modBoard i tid f s).radio = s.radio := (rfl)
@[simp] theorem modBoard_time (i : ℕ) (tid : ℕ) (f : Scoreboard → Scoreboard) (s : State) : (modBoard i tid f s).time = s.time := (rfl)
@[simp] theorem modBoard_cap (i : ℕ) (tid : ℕ) (f : Scoreboard → Scoreboard) (s : State) : (modBoard i tid f s).cap = s.cap := (rfl)
@[simp] theorem modBoard_health (i : ℕ) (tid : ℕ) (f : Scoreboard → Scoreboard) (s : State) : (modBoard i tid f s).health = s.health := (rfl)
@[simp] theorem modBoard_power (i : ℕ) (tid : ℕ) (f : Scoreboard → Scoreboard) (s : State) : (modBoard i tid f s).power = s.power := (rfl)
@[simp] theorem modBss_pending (b : ℕ) (f : Bss → Bss) (s : State) : (modBss b f s).pending = s.pending := (rfl)
@[simp] theorem modBss_free (b : ℕ) (f : Bss → Bss) (s : State) : (modBss b f s).free = s.free := (rfl)
@[simp] theorem modBss_out (b : ℕ) (f : Bss → Bss) (s : State) : (modBss b f s).out = s.out := (rfl)
@[simp] theorem modBss_clock (b : ℕ) (f : Bss → Bss) (s : State) : (modBss b f s).clock = s.clock := (rfl)
@[simp] theorem modBss_regs (b : ℕ) (f : Bss → Bss) (s : State) : (modBss b f s).regs = s.regs := (rfl)
@[simp] theorem modBss_latches (b : ℕ) (f : Bss → Bss) (s : State) : (modBss b f s).latches = s.latches := (rfl)
@[simp] theorem modBss_host (b : ℕ) (f : Bss → Bss) (s : State) : (modBss b f s).host = s.host := (rfl)
@[simp] theorem modBss_boot (b : ℕ) (f : Bss → Bss) (s : State) : (modBss b f s).boot = s.boot := (rfl)
@[simp] theorem modBss_flash (b : ℕ) (f : Bss → Bss) (s : State) : (modBss b f s).flash = s.flash := (rfl)
@[simp] theorem modBss_fab (b : ℕ) (f : Bss → Bss) (s : State) : (modBss b f s).fab = s.fab := (rfl)
@[simp] theorem modBss_legs (b : ℕ) (f : Bss → Bss) (s : State) : (modBss b f s).legs = s.legs := (rfl)
@[simp] theorem modBss_confs (b : ℕ) (f : Bss → Bss) (s : State) : (modBss b f s).confs = s.confs := (rfl)
@[simp] theorem modBss_flues (b : ℕ) (f : Bss → Bss) (s : State) : (modBss b f s).flues = s.flues := (rfl)
@[simp] theorem modBss_sram (b : ℕ) (f : Bss → Bss) (s : State) : (modBss b f s).sram = s.sram := (rfl)
@[simp] theorem modBss_dram (b : ℕ) (f : Bss → Bss) (s : State) : (modBss b f s).dram = s.dram := (rfl)
@[simp] theorem modBss_pkt (b : ℕ) (f : Bss → Bss) (s : State) : (modBss b f s).pkt = s.pkt := (rfl)
@[simp] theorem modBss_keys (b : ℕ) (f : Bss → Bss) (s : State) : (modBss b f s).keys = s.keys := (rfl)
@[simp] theorem modBss_audio (b : ℕ) (f : Bss → Bss) (s : State) : (modBss b f s).audio = s.audio := (rfl)
@[simp] theorem modBss_dsp (b : ℕ) (f : Bss → Bss) (s : State) : (modBss b f s).dsp = s.dsp := (rfl)
@[simp] theorem modBss_asp (b : ℕ) (f : Bss → Bss) (s : State) : (modBss b f s).asp = s.asp := (rfl)
@[simp] theorem modBss_video (b : ℕ) (f : Bss → Bss) (s : State) : (modBss b f s).video = s.video := (rfl)
@[simp] theorem modBss_radio (b : ℕ) (f : Bss → Bss) (s : State) : (modBss b f s).radio = s.radio := (rfl)
@[simp] theorem modBss_time (b : ℕ) (f : Bss → Bss) (s : State) : (modBss b f s).time = s.time := (rfl)
@[simp] theorem modBss_cap (b : ℕ) (f : Bss → Bss) (s : State) : (modBss b f s).cap = s.cap := (rfl)
@[simp] theorem modBss_health (b : ℕ) (f : Bss → Bss) (s : State) : (modBss b f s).health = s.health := (rfl)
@[simp] theorem modBss_power (b : ℕ) (f : Bss → Bss) (s : State) : (modBss b f s).power = s.power := (rfl)
@[simp] theorem modBus_pending (b : ℕ) (f : Bus → Bus) (s : State) : (modBus b f s).pending = s.pending := (rfl)
@[simp] theorem modBus_free (b : ℕ) (f : Bus → Bus) (s : State) : (modBus b f s).free = s.free := (rfl)
@[simp] theorem modBus_out (b : ℕ) (f : Bus → Bus) (s : State) : (modBus b f s).out = s.out := (rfl)
@[simp] theorem modBus_clock (b : ℕ) (f : Bus → Bus) (s : State) : (modBus b f s).clock = s.clock := (rfl)
@[simp] theorem modBus_regs (b : ℕ) (f : Bus → Bus) (s : State) : (modBus b f s).regs = s.regs := (rfl)
@[simp] theorem modBus_latches (b : ℕ) (f : Bus → Bus) (s : State) : (modBus b f s).latches = s.latches := (rfl)
@[simp] theorem modBus_host (b : ℕ) (f : Bus → Bus) (s : State) : (modBus b f s).host = s.host := (rfl)
@[simp] theorem modBus_boot (b : ℕ) (f : Bus → Bus) (s : State) : (modBus b f s).boot = s.boot := (rfl)
@[simp] theorem modBus_flash (b : ℕ) (f : Bus → Bus) (s : State) : (modBus b f s).flash = s.flash := (rfl)
@[simp] theorem modBus_fab (b : ℕ) (f : Bus → Bus) (s : State) : (modBus b f s).fab = s.fab := (rfl)
@[simp] theorem modBus_legs (b : ℕ) (f : Bus → Bus) (s : State) : (modBus b f s).legs = s.legs := (rfl)
@[simp] theorem modBus_confs (b : ℕ) (f : Bus → Bus) (s : State) : (modBus b f s).confs = s.confs := (rfl)
@[simp] theorem modBus_flues (b : ℕ) (f : Bus → Bus) (s : State) : (modBus b f s).flues = s.flues := (rfl)
@[simp] theorem modBus_sram (b : ℕ) (f : Bus → Bus) (s : State) : (modBus b f s).sram = s.sram := (rfl)
@[simp] theorem modBus_dram (b : ℕ) (f : Bus → Bus) (s : State) : (modBus b f s).dram = s.dram := (rfl)
@[simp] theorem modBus_pkt (b : ℕ) (f : Bus → Bus) (s : State) : (modBus b f s).pkt = s.pkt := (rfl)
@[simp] theorem modBus_keys (b : ℕ) (f : Bus → Bus) (s : State) : (modBus b f s).keys = s.keys := (rfl)
@[simp] theorem modBus_dsp (b : ℕ) (f : Bus → Bus) (s : State) : (modBus b f s).dsp = s.dsp := (rfl)
@[simp] theorem modBus_asp (b : ℕ) (f : Bus → Bus) (s : State) : (modBus b f s).asp = s.asp := (rfl)
@[simp] theorem modBus_video (b : ℕ) (f : Bus → Bus) (s : State) : (modBus b f s).video = s.video := (rfl)
@[simp] theorem modBus_wlan (b : ℕ) (f : Bus → Bus) (s : State) : (modBus b f s).wlan = s.wlan := (rfl)
@[simp] theorem modBus_radio (b : ℕ) (f : Bus → Bus) (s : State) : (modBus b f s).radio = s.radio := (rfl)
@[simp] theorem modBus_time (b : ℕ) (f : Bus → Bus) (s : State) : (modBus b f s).time = s.time := (rfl)
@[simp] theorem modBus_cap (b : ℕ) (f : Bus → Bus) (s : State) : (modBus b f s).cap = s.cap := (rfl)
@[simp] theorem modBus_health (b : ℕ) (f : Bus → Bus) (s : State) : (modBus b f s).health = s.health := (rfl)
@[simp] theorem modBus_power (b : ℕ) (f : Bus → Bus) (s : State) : (modBus b f s).power = s.power := (rfl)
@[simp] theorem modChain_pending (c : ℕ) (f : Chain → Chain) (s : State) : (modChain c f s).pending = s.pending := (rfl)
@[simp] theorem modChain_free (c : ℕ) (f : Chain → Chain) (s : State) : (modChain c f s).free = s.free := (rfl)
@[simp] theorem modChain_out (c : ℕ) (f : Chain → Chain) (s : State) : (modChain c f s).out = s.out := (rfl)
@[simp] theorem modChain_clock (c : ℕ) (f : Chain → Chain) (s : State) : (modChain c f s).clock = s.clock := (rfl)
@[simp] theorem modChain_regs (c : ℕ) (f : Chain → Chain) (s : State) : (modChain c f s).regs = s.regs := (rfl)
@[simp] theorem modChain_latches (c : ℕ) (f : Chain → Chain) (s : State) : (modChain c f s).latches = s.latches := (rfl)
@[simp] theorem modChain_host (c : ℕ) (f : Chain → Chain) (s : State) : (modChain c f s).host = s.host := (rfl)
@[simp] theorem modChain_boot (c : ℕ) (f : Chain → Chain) (s : State) : (modChain c f s).boot = s.boot := (rfl)
@[simp] theorem modChain_flash (c : ℕ) (f : Chain → Chain) (s : State) : (modChain c f s).flash = s.flash := (rfl)
@[simp] theorem modChain_fab (c : ℕ) (f : Chain → Chain) (s : State) : (modChain c f s).fab = s.fab := (rfl)
@[simp] theorem modChain_legs (c : ℕ) (f : Chain → Chain) (s : State) : (modChain c f s).legs = s.legs := (rfl)
@[simp] theorem modChain_confs (c : ℕ) (f : Chain → Chain) (s : State) : (modChain c f s).confs = s.confs := (rfl)
@[simp] theorem modChain_flues (c : ℕ) (f : Chain → Chain) (s : State) : (modChain c f s).flues = s.flues := (rfl)
@[simp] theorem modChain_sram (c : ℕ) (f : Chain → Chain) (s : State) : (modChain c f s).sram = s.sram := (rfl)
@[simp] theorem modChain_dram (c : ℕ) (f : Chain → Chain) (s : State) : (modChain c f s).dram = s.dram := (rfl)
@[simp] theorem modChain_pkt (c : ℕ) (f : Chain → Chain) (s : State) : (modChain c f s).pkt = s.pkt := (rfl)
@[simp] theorem modChain_keys (c : ℕ) (f : Chain → Chain) (s : State) : (modChain c f s).keys = s.keys := (rfl)
@[simp] theorem modChain_audio (c : ℕ) (f : Chain → Chain) (s : State) : (modChain c f s).audio = s.audio := (rfl)
@[simp] theorem modChain_dsp (c : ℕ) (f : Chain → Chain) (s : State) : (modChain c f s).dsp = s.dsp := (rfl)
@[simp] theorem modChain_asp (c : ℕ) (f : Chain → Chain) (s : State) : (modChain c f s).asp = s.asp := (rfl)
@[simp] theorem modChain_video (c : ℕ) (f : Chain → Chain) (s : State) : (modChain c f s).video = s.video := (rfl)
@[simp] theorem modChain_wlan (c : ℕ) (f : Chain → Chain) (s : State) : (modChain c f s).wlan = s.wlan := (rfl)
@[simp] theorem modChain_time (c : ℕ) (f : Chain → Chain) (s : State) : (modChain c f s).time = s.time := (rfl)
@[simp] theorem modChain_cap (c : ℕ) (f : Chain → Chain) (s : State) : (modChain c f s).cap = s.cap := (rfl)
@[simp] theorem modChain_health (c : ℕ) (f : Chain → Chain) (s : State) : (modChain c f s).health = s.health := (rfl)
@[simp] theorem modChain_power (c : ℕ) (f : Chain → Chain) (s : State) : (modChain c f s).power = s.power := (rfl)
@[simp] theorem modChan_pending (c : ℕ) (f : Channel → Channel) (s : State) : (modChan c f s).pending = s.pending := (rfl)
@[simp] theorem modChan_free (c : ℕ) (f : Channel → Channel) (s : State) : (modChan c f s).free = s.free := (rfl)
@[simp] theorem modChan_out (c : ℕ) (f : Channel → Channel) (s : State) : (modChan c f s).out = s.out := (rfl)
@[simp] theorem modChan_clock (c : ℕ) (f : Channel → Channel) (s : State) : (modChan c f s).clock = s.clock := (rfl)
@[simp] theorem modChan_regs (c : ℕ) (f : Channel → Channel) (s : State) : (modChan c f s).regs = s.regs := (rfl)
@[simp] theorem modChan_latches (c : ℕ) (f : Channel → Channel) (s : State) : (modChan c f s).latches = s.latches := (rfl)
@[simp] theorem modChan_host (c : ℕ) (f : Channel → Channel) (s : State) : (modChan c f s).host = s.host := (rfl)
@[simp] theorem modChan_boot (c : ℕ) (f : Channel → Channel) (s : State) : (modChan c f s).boot = s.boot := (rfl)
@[simp] theorem modChan_flash (c : ℕ) (f : Channel → Channel) (s : State) : (modChan c f s).flash = s.flash := (rfl)
@[simp] theorem modChan_fab (c : ℕ) (f : Channel → Channel) (s : State) : (modChan c f s).fab = s.fab := (rfl)
@[simp] theorem modChan_legs (c : ℕ) (f : Channel → Channel) (s : State) : (modChan c f s).legs = s.legs := (rfl)
@[simp] theorem modChan_confs (c : ℕ) (f : Channel → Channel) (s : State) : (modChan c f s).confs = s.confs := (rfl)
@[simp] theorem modChan_flues (c : ℕ) (f : Channel → Channel) (s : State) : (modChan c f s).flues = s.flues := (rfl)
@[simp] theorem modChan_sram (c : ℕ) (f : Channel → Channel) (s : State) : (modChan c f s).sram = s.sram := (rfl)
@[simp] theorem modChan_pkt (c : ℕ) (f : Channel → Channel) (s : State) : (modChan c f s).pkt = s.pkt := (rfl)
@[simp] theorem modChan_keys (c : ℕ) (f : Channel → Channel) (s : State) : (modChan c f s).keys = s.keys := (rfl)
@[simp] theorem modChan_audio (c : ℕ) (f : Channel → Channel) (s : State) : (modChan c f s).audio = s.audio := (rfl)
@[simp] theorem modChan_dsp (c : ℕ) (f : Channel → Channel) (s : State) : (modChan c f s).dsp = s.dsp := (rfl)
@[simp] theorem modChan_asp (c : ℕ) (f : Channel → Channel) (s : State) : (modChan c f s).asp = s.asp := (rfl)
@[simp] theorem modChan_video (c : ℕ) (f : Channel → Channel) (s : State) : (modChan c f s).video = s.video := (rfl)
@[simp] theorem modChan_wlan (c : ℕ) (f : Channel → Channel) (s : State) : (modChan c f s).wlan = s.wlan := (rfl)
@[simp] theorem modChan_radio (c : ℕ) (f : Channel → Channel) (s : State) : (modChan c f s).radio = s.radio := (rfl)
@[simp] theorem modChan_time (c : ℕ) (f : Channel → Channel) (s : State) : (modChan c f s).time = s.time := (rfl)
@[simp] theorem modChan_cap (c : ℕ) (f : Channel → Channel) (s : State) : (modChan c f s).cap = s.cap := (rfl)
@[simp] theorem modChan_health (c : ℕ) (f : Channel → Channel) (s : State) : (modChan c f s).health = s.health := (rfl)
@[simp] theorem modChan_power (c : ℕ) (f : Channel → Channel) (s : State) : (modChan c f s).power = s.power := (rfl)
@[simp] theorem modComp_pending (i : ℕ) (f : Comp → Comp) (s : State) : (modComp i f s).pending = s.pending := (rfl)
@[simp] theorem modComp_free (i : ℕ) (f : Comp → Comp) (s : State) : (modComp i f s).free = s.free := (rfl)
@[simp] theorem modComp_out (i : ℕ) (f : Comp → Comp) (s : State) : (modComp i f s).out = s.out := (rfl)
@[simp] theorem modComp_clock (i : ℕ) (f : Comp → Comp) (s : State) : (modComp i f s).clock = s.clock := (rfl)
@[simp] theorem modComp_regs (i : ℕ) (f : Comp → Comp) (s : State) : (modComp i f s).regs = s.regs := (rfl)
@[simp] theorem modComp_latches (i : ℕ) (f : Comp → Comp) (s : State) : (modComp i f s).latches = s.latches := (rfl)
@[simp] theorem modComp_host (i : ℕ) (f : Comp → Comp) (s : State) : (modComp i f s).host = s.host := (rfl)
@[simp] theorem modComp_boot (i : ℕ) (f : Comp → Comp) (s : State) : (modComp i f s).boot = s.boot := (rfl)
@[simp] theorem modComp_flash (i : ℕ) (f : Comp → Comp) (s : State) : (modComp i f s).flash = s.flash := (rfl)
@[simp] theorem modComp_fab (i : ℕ) (f : Comp → Comp) (s : State) : (modComp i f s).fab = s.fab := (rfl)
@[simp] theorem modComp_legs (i : ℕ) (f : Comp → Comp) (s : State) : (modComp i f s).legs = s.legs := (rfl)
@[simp] theorem modComp_confs (i : ℕ) (f : Comp → Comp) (s : State) : (modComp i f s).confs = s.confs := (rfl)
@[simp] theorem modComp_flues (i : ℕ) (f : Comp → Comp) (s : State) : (modComp i f s).flues = s.flues := (rfl)
@[simp] theorem modComp_sram (i : ℕ) (f : Comp → Comp) (s : State) : (modComp i f s).sram = s.sram := (rfl)
@[simp] theorem modComp_dram (i : ℕ) (f : Comp → Comp) (s : State) : (modComp i f s).dram = s.dram := (rfl)
@[simp] theorem modComp_pkt (i : ℕ) (f : Comp → Comp) (s : State) : (modComp i f s).pkt = s.pkt := (rfl)
@[simp] theorem modComp_keys (i : ℕ) (f : Comp → Comp) (s : State) : (modComp i f s).keys = s.keys := (rfl)
@[simp] theorem modComp_audio (i : ℕ) (f : Comp → Comp) (s : State) : (modComp i f s).audio = s.audio := (rfl)
@[simp] theorem modComp_dsp (i : ℕ) (f : Comp → Comp) (s : State) : (modComp i f s).dsp = s.dsp := (rfl)
@[simp] theorem modComp_asp (i : ℕ) (f : Comp → Comp) (s : State) : (modComp i f s).asp = s.asp := (rfl)
@[simp] theorem modComp_wlan (i : ℕ) (f : Comp → Comp) (s : State) : (modComp i f s).wlan = s.wlan := (rfl)
@[simp] theorem modComp_radio (i : ℕ) (f : Comp → Comp) (s : State) : (modComp i f s).radio = s.radio := (rfl)
@[simp] theorem modComp_time (i : ℕ) (f : Comp → Comp) (s : State) : (modComp i f s).time = s.time := (rfl)
@[simp] theorem modComp_cap (i : ℕ) (f : Comp → Comp) (s : State) : (modComp i f s).cap = s.cap := (rfl)
@[simp] theorem modComp_health (i : ℕ) (f : Comp → Comp) (s : State) : (modComp i f s).health = s.health := (rfl)
@[simp] theorem modComp_power (i : ℕ) (f : Comp → Comp) (s : State) : (modComp i f s).power = s.power := (rfl)
@[simp] theorem modConf_pending (c : ℕ) (f : Conf → Conf) (s : State) : (modConf c f s).pending = s.pending := (rfl)
@[simp] theorem modConf_free (c : ℕ) (f : Conf → Conf) (s : State) : (modConf c f s).free = s.free := (rfl)
@[simp] theorem modConf_out (c : ℕ) (f : Conf → Conf) (s : State) : (modConf c f s).out = s.out := (rfl)
@[simp] theorem modConf_clock (c : ℕ) (f : Conf → Conf) (s : State) : (modConf c f s).clock = s.clock := (rfl)
@[simp] theorem modConf_regs (c : ℕ) (f : Conf → Conf) (s : State) : (modConf c f s).regs = s.regs := (rfl)
@[simp] theorem modConf_latches (c : ℕ) (f : Conf → Conf) (s : State) : (modConf c f s).latches = s.latches := (rfl)
@[simp] theorem modConf_host (c : ℕ) (f : Conf → Conf) (s : State) : (modConf c f s).host = s.host := (rfl)
@[simp] theorem modConf_boot (c : ℕ) (f : Conf → Conf) (s : State) : (modConf c f s).boot = s.boot := (rfl)
@[simp] theorem modConf_flash (c : ℕ) (f : Conf → Conf) (s : State) : (modConf c f s).flash = s.flash := (rfl)
@[simp] theorem modConf_fab (c : ℕ) (f : Conf → Conf) (s : State) : (modConf c f s).fab = s.fab := (rfl)
@[simp] theorem modConf_legs (c : ℕ) (f : Conf → Conf) (s : State) : (modConf c f s).legs = s.legs := (rfl)
@[simp] theorem modConf_flues (c : ℕ) (f : Conf → Conf) (s : State) : (modConf c f s).flues = s.flues := (rfl)
@[simp] theorem modConf_sram (c : ℕ) (f : Conf → Conf) (s : State) : (modConf c f s).sram = s.sram := (rfl)
@[simp] theorem modConf_dram (c : ℕ) (f : Conf → Conf) (s : State) : (modConf c f s).dram = s.dram := (rfl)
@[simp] theorem modConf_pkt (c : ℕ) (f : Conf → Conf) (s : State) : (modConf c f s).pkt = s.pkt := (rfl)
@[simp] theorem modConf_keys (c : ℕ) (f : Conf → Conf) (s : State) : (modConf c f s).keys = s.keys := (rfl)
@[simp] theorem modConf_audio (c : ℕ) (f : Conf → Conf) (s : State) : (modConf c f s).audio = s.audio := (rfl)
@[simp] theorem modConf_dsp (c : ℕ) (f : Conf → Conf) (s : State) : (modConf c f s).dsp = s.dsp := (rfl)
@[simp] theorem modConf_asp (c : ℕ) (f : Conf → Conf) (s : State) : (modConf c f s).asp = s.asp := (rfl)
@[simp] theorem modConf_video (c : ℕ) (f : Conf → Conf) (s : State) : (modConf c f s).video = s.video := (rfl)
@[simp] theorem modConf_wlan (c : ℕ) (f : Conf → Conf) (s : State) : (modConf c f s).wlan = s.wlan := (rfl)
@[simp] theorem modConf_radio (c : ℕ) (f : Conf → Conf) (s : State) : (modConf c f s).radio = s.radio := (rfl)
@[simp] theorem modConf_time (c : ℕ) (f : Conf → Conf) (s : State) : (modConf c f s).time = s.time := (rfl)
@[simp] theorem modConf_cap (c : ℕ) (f : Conf → Conf) (s : State) : (modConf c f s).cap = s.cap := (rfl)
@[simp] theorem modConf_health (c : ℕ) (f : Conf → Conf) (s : State) : (modConf c f s).health = s.health := (rfl)
@[simp] theorem modConf_power (c : ℕ) (f : Conf → Conf) (s : State) : (modConf c f s).power = s.power := (rfl)
@[simp] theorem modCore_pending (k : ℕ) (f : Core → Core) (s : State) : (modCore k f s).pending = s.pending := (rfl)
@[simp] theorem modCore_free (k : ℕ) (f : Core → Core) (s : State) : (modCore k f s).free = s.free := (rfl)
@[simp] theorem modCore_out (k : ℕ) (f : Core → Core) (s : State) : (modCore k f s).out = s.out := (rfl)
@[simp] theorem modCore_clock (k : ℕ) (f : Core → Core) (s : State) : (modCore k f s).clock = s.clock := (rfl)
@[simp] theorem modCore_regs (k : ℕ) (f : Core → Core) (s : State) : (modCore k f s).regs = s.regs := (rfl)
@[simp] theorem modCore_latches (k : ℕ) (f : Core → Core) (s : State) : (modCore k f s).latches = s.latches := (rfl)
@[simp] theorem modCore_host (k : ℕ) (f : Core → Core) (s : State) : (modCore k f s).host = s.host := (rfl)
@[simp] theorem modCore_boot (k : ℕ) (f : Core → Core) (s : State) : (modCore k f s).boot = s.boot := (rfl)
@[simp] theorem modCore_flash (k : ℕ) (f : Core → Core) (s : State) : (modCore k f s).flash = s.flash := (rfl)
@[simp] theorem modCore_fab (k : ℕ) (f : Core → Core) (s : State) : (modCore k f s).fab = s.fab := (rfl)
@[simp] theorem modCore_legs (k : ℕ) (f : Core → Core) (s : State) : (modCore k f s).legs = s.legs := (rfl)
@[simp] theorem modCore_confs (k : ℕ) (f : Core → Core) (s : State) : (modCore k f s).confs = s.confs := (rfl)
@[simp] theorem modCore_flues (k : ℕ) (f : Core → Core) (s : State) : (modCore k f s).flues = s.flues := (rfl)
@[simp] theorem modCore_sram (k : ℕ) (f : Core → Core) (s : State) : (modCore k f s).sram = s.sram := (rfl)
@[simp] theorem modCore_dram (k : ℕ) (f : Core → Core) (s : State) : (modCore k f s).dram = s.dram := (rfl)
@[simp] theorem modCore_pkt (k : ℕ) (f : Core → Core) (s : State) : (modCore k f s).pkt = s.pkt := (rfl)
@[simp] theorem modCore_keys (k : ℕ) (f : Core → Core) (s : State) : (modCore k f s).keys = s.keys := (rfl)
@[simp] theorem modCore_audio (k : ℕ) (f : Core → Core) (s : State) : (modCore k f s).audio = s.audio := (rfl)
@[simp] theorem modCore_asp (k : ℕ) (f : Core → Core) (s : State) : (modCore k f s).asp = s.asp := (rfl)
@[simp] theorem modCore_video (k : ℕ) (f : Core → Core) (s : State) : (modCore k f s).video = s.video := (rfl)
@[simp] theorem modCore_wlan (k : ℕ) (f : Core → Core) (s : State) : (modCore k f s).wlan = s.wlan := (rfl)
@[simp] theorem modCore_radio (k : ℕ) (f : Core → Core) (s : State) : (modCore k f s).radio = s.radio := (rfl)
@[simp] theorem modCore_time (k : ℕ) (f : Core → Core) (s : State) : (modCore k f s).time = s.time := (rfl)
@[simp] theorem modCore_cap (k : ℕ) (f : Core → Core) (s : State) : (modCore k f s).cap = s.cap := (rfl)
@[simp] theorem modCore_health (k : ℕ) (f : Core → Core) (s : State) : (modCore k f s).health = s.health := (rfl)
@[simp] theorem modCore_power (k : ℕ) (f : Core → Core) (s : State) : (modCore k f s).power = s.power := (rfl)
@[simp] theorem modDec_pending (i : ℕ) (f : Dec → Dec) (s : State) : (modDec i f s).pending = s.pending := (rfl)
@[simp] theorem modDec_free (i : ℕ) (f : Dec → Dec) (s : State) : (modDec i f s).free = s.free := (rfl)
@[simp] theorem modDec_out (i : ℕ) (f : Dec → Dec) (s : State) : (modDec i f s).out = s.out := (rfl)
@[simp] theorem modDec_clock (i : ℕ) (f : Dec → Dec) (s : State) : (modDec i f s).clock = s.clock := (rfl)
@[simp] theorem modDec_regs (i : ℕ) (f : Dec → Dec) (s : State) : (modDec i f s).regs = s.regs := (rfl)
@[simp] theorem modDec_latches (i : ℕ) (f : Dec → Dec) (s : State) : (modDec i f s).latches = s.latches := (rfl)
@[simp] theorem modDec_host (i : ℕ) (f : Dec → Dec) (s : State) : (modDec i f s).host = s.host := (rfl)
@[simp] theorem modDec_boot (i : ℕ) (f : Dec → Dec) (s : State) : (modDec i f s).boot = s.boot := (rfl)
@[simp] theorem modDec_flash (i : ℕ) (f : Dec → Dec) (s : State) : (modDec i f s).flash = s.flash := (rfl)
@[simp] theorem modDec_fab (i : ℕ) (f : Dec → Dec) (s : State) : (modDec i f s).fab = s.fab := (rfl)
@[simp] theorem modDec_legs (i : ℕ) (f : Dec → Dec) (s : State) : (modDec i f s).legs = s.legs := (rfl)
@[simp] theorem modDec_confs (i : ℕ) (f : Dec → Dec) (s : State) : (modDec i f s).confs = s.confs := (rfl)
@[simp] theorem modDec_flues (i : ℕ) (f : Dec → Dec) (s : State) : (modDec i f s).flues = s.flues := (rfl)
@[simp] theorem modDec_sram (i : ℕ) (f : Dec → Dec) (s : State) : (modDec i f s).sram = s.sram := (rfl)
@[simp] theorem modDec_dram (i : ℕ) (f : Dec → Dec) (s : State) : (modDec i f s).dram = s.dram := (rfl)
@[simp] theorem modDec_pkt (i : ℕ) (f : Dec → Dec) (s : State) : (modDec i f s).pkt = s.pkt := (rfl)
@[simp] theorem modDec_keys (i : ℕ) (f : Dec → Dec) (s : State) : (modDec i f s).keys = s.keys := (rfl)
@[simp] theorem modDec_audio (i : ℕ) (f : Dec → Dec) (s : State) : (modDec i f s).audio = s.audio := (rfl)
@[simp] theorem modDec_dsp (i : ℕ) (f : Dec → Dec) (s : State) : (modDec i f s).dsp = s.dsp := (rfl)
@[simp] theorem modDec_asp (i : ℕ) (f : Dec → Dec) (s : State) : (modDec i f s).asp = s.asp := (rfl)
@[simp] theorem modDec_wlan (i : ℕ) (f : Dec → Dec) (s : State) : (modDec i f s).wlan = s.wlan := (rfl)
@[simp] theorem modDec_radio (i : ℕ) (f : Dec → Dec) (s : State) : (modDec i f s).radio = s.radio := (rfl)
@[simp] theorem modDec_time (i : ℕ) (f : Dec → Dec) (s : State) : (modDec i f s).time = s.time := (rfl)
@[simp] theorem modDec_cap (i : ℕ) (f : Dec → Dec) (s : State) : (modDec i f s).cap = s.cap := (rfl)
@[simp] theorem modDec_health (i : ℕ) (f : Dec → Dec) (s : State) : (modDec i f s).health = s.health := (rfl)
@[simp] theorem modDec_power (i : ℕ) (f : Dec → Dec) (s : State) : (modDec i f s).power = s.power := (rfl)
@[simp] theorem modDom_pending (d : ℕ) (f : TimeDomain → TimeDomain) (s : State) : (modDom d f s).pending = s.pending := (rfl)
@[simp] theorem modDom_free (d : ℕ) (f : TimeDomain → TimeDomain) (s : State) : (modDom d f s).free = s.free := (rfl)
@[simp] theorem modDom_out (d : ℕ) (f : TimeDomain → TimeDomain) (s : State) : (modDom d f s).out = s.out := (rfl)
@[simp] theorem modDom_clock (d : ℕ) (f : TimeDomain → TimeDomain) (s : State) : (modDom d f s).clock = s.clock := (rfl)
@[simp] theorem modDom_regs (d : ℕ) (f : TimeDomain → TimeDomain) (s : State) : (modDom d f s).regs = s.regs := (rfl)
@[simp] theorem modDom_latches (d : ℕ) (f : TimeDomain → TimeDomain) (s : State) : (modDom d f s).latches = s.latches := (rfl)
@[simp] theorem modDom_host (d : ℕ) (f : TimeDomain → TimeDomain) (s : State) : (modDom d f s).host = s.host := (rfl)
@[simp] theorem modDom_boot (d : ℕ) (f : TimeDomain → TimeDomain) (s : State) : (modDom d f s).boot = s.boot := (rfl)
@[simp] theorem modDom_flash (d : ℕ) (f : TimeDomain → TimeDomain) (s : State) : (modDom d f s).flash = s.flash := (rfl)
@[simp] theorem modDom_fab (d : ℕ) (f : TimeDomain → TimeDomain) (s : State) : (modDom d f s).fab = s.fab := (rfl)
@[simp] theorem modDom_legs (d : ℕ) (f : TimeDomain → TimeDomain) (s : State) : (modDom d f s).legs = s.legs := (rfl)
@[simp] theorem modDom_confs (d : ℕ) (f : TimeDomain → TimeDomain) (s : State) : (modDom d f s).confs = s.confs := (rfl)
@[simp] theorem modDom_flues (d : ℕ) (f : TimeDomain → TimeDomain) (s : State) : (modDom d f s).flues = s.flues := (rfl)
@[simp] theorem modDom_sram (d : ℕ) (f : TimeDomain → TimeDomain) (s : State) : (modDom d f s).sram = s.sram := (rfl)
@[simp] theorem modDom_dram (d : ℕ) (f : TimeDomain → TimeDomain) (s : State) : (modDom d f s).dram = s.dram := (rfl)
@[simp] theorem modDom_pkt (d : ℕ) (f : TimeDomain → TimeDomain) (s : State) : (modDom d f s).pkt = s.pkt := (rfl)
@[simp] theorem modDom_keys (d : ℕ) (f : TimeDomain → TimeDomain) (s : State) : (modDom d f s).keys = s.keys := (rfl)
@[simp] theorem modDom_audio (d : ℕ) (f : TimeDomain → TimeDomain) (s : State) : (modDom d f s).audio = s.audio := (rfl)
@[simp] theorem modDom_dsp (d : ℕ) (f : TimeDomain → TimeDomain) (s : State) : (modDom d f s).dsp = s.dsp := (rfl)
@[simp] theorem modDom_asp (d : ℕ) (f : TimeDomain → TimeDomain) (s : State) : (modDom d f s).asp = s.asp := (rfl)
@[simp] theorem modDom_video (d : ℕ) (f : TimeDomain → TimeDomain) (s : State) : (modDom d f s).video = s.video := (rfl)
@[simp] theorem modDom_wlan (d : ℕ) (f : TimeDomain → TimeDomain) (s : State) : (modDom d f s).wlan = s.wlan := (rfl)
@[simp] theorem modDom_radio (d : ℕ) (f : TimeDomain → TimeDomain) (s : State) : (modDom d f s).radio = s.radio := (rfl)
@[simp] theorem modDom_cap (d : ℕ) (f : TimeDomain → TimeDomain) (s : State) : (modDom d f s).cap = s.cap := (rfl)
@[simp] theorem modDom_health (d : ℕ) (f : TimeDomain → TimeDomain) (s : State) : (modDom d f s).health = s.health := (rfl)
@[simp] theorem modDom_power (d : ℕ) (f : TimeDomain → TimeDomain) (s : State) : (modDom d f s).power = s.power := (rfl)
@[simp] theorem modEnc_pending (i : ℕ) (f : Enc → Enc) (s : State) : (modEnc i f s).pending = s.pending := (rfl)
@[simp] theorem modEnc_free (i : ℕ) (f : Enc → Enc) (s : State) : (modEnc i f s).free = s.free := (rfl)
@[simp] theorem modEnc_out (i : ℕ) (f : Enc → Enc) (s : State) : (modEnc i f s).out = s.out := (rfl)
@[simp] theorem modEnc_clock (i : ℕ) (f : Enc → Enc) (s : State) : (modEnc i f s).clock = s.clock := (rfl)
@[simp] theorem modEnc_regs (i : ℕ) (f : Enc → Enc) (s : State) : (modEnc i f s).regs = s.regs := (rfl)
@[simp] theorem modEnc_latches (i : ℕ) (f : Enc → Enc) (s : State) : (modEnc i f s).latches = s.latches := (rfl)
@[simp] theorem modEnc_host (i : ℕ) (f : Enc → Enc) (s : State) : (modEnc i f s).host = s.host := (rfl)
@[simp] theorem modEnc_boot (i : ℕ) (f : Enc → Enc) (s : State) : (modEnc i f s).boot = s.boot := (rfl)
@[simp] theorem modEnc_flash (i : ℕ) (f : Enc → Enc) (s : State) : (modEnc i f s).flash = s.flash := (rfl)
@[simp] theorem modEnc_fab (i : ℕ) (f : Enc → Enc) (s : State) : (modEnc i f s).fab = s.fab := (rfl)
@[simp] theorem modEnc_legs (i : ℕ) (f : Enc → Enc) (s : State) : (modEnc i f s).legs = s.legs := (rfl)
@[simp] theorem modEnc_confs (i : ℕ) (f : Enc → Enc) (s : State) : (modEnc i f s).confs = s.confs := (rfl)
@[simp] theorem modEnc_flues (i : ℕ) (f : Enc → Enc) (s : State) : (modEnc i f s).flues = s.flues := (rfl)
@[simp] theorem modEnc_sram (i : ℕ) (f : Enc → Enc) (s : State) : (modEnc i f s).sram = s.sram := (rfl)
@[simp] theorem modEnc_dram (i : ℕ) (f : Enc → Enc) (s : State) : (modEnc i f s).dram = s.dram := (rfl)
@[simp] theorem modEnc_pkt (i : ℕ) (f : Enc → Enc) (s : State) : (modEnc i f s).pkt = s.pkt := (rfl)
@[simp] theorem modEnc_keys (i : ℕ) (f : Enc → Enc) (s : State) : (modEnc i f s).keys = s.keys := (rfl)
@[simp] theorem modEnc_audio (i : ℕ) (f : Enc → Enc) (s : State) : (modEnc i f s).audio = s.audio := (rfl)
@[simp] theorem modEnc_dsp (i : ℕ) (f : Enc → Enc) (s : State) : (modEnc i f s).dsp = s.dsp := (rfl)
@[simp] theorem modEnc_asp (i : ℕ) (f : Enc → Enc) (s : State) : (modEnc i f s).asp = s.asp := (rfl)
@[simp] theorem modEnc_wlan (i : ℕ) (f : Enc → Enc) (s : State) : (modEnc i f s).wlan = s.wlan := (rfl)
@[simp] theorem modEnc_radio (i : ℕ) (f : Enc → Enc) (s : State) : (modEnc i f s).radio = s.radio := (rfl)
@[simp] theorem modEnc_time (i : ℕ) (f : Enc → Enc) (s : State) : (modEnc i f s).time = s.time := (rfl)
@[simp] theorem modEnc_cap (i : ℕ) (f : Enc → Enc) (s : State) : (modEnc i f s).cap = s.cap := (rfl)
@[simp] theorem modEnc_health (i : ℕ) (f : Enc → Enc) (s : State) : (modEnc i f s).health = s.health := (rfl)
@[simp] theorem modEnc_power (i : ℕ) (f : Enc → Enc) (s : State) : (modEnc i f s).power = s.power := (rfl)
@[simp] theorem modEntryOf_pending (leg : ℕ) (e : ℕ) (f : FwdEntry → FwdEntry) (s : State) : (modEntryOf leg e f s).pending = s.pending := (rfl)
@[simp] theorem modEntryOf_free (leg : ℕ) (e : ℕ) (f : FwdEntry → FwdEntry) (s : State) : (modEntryOf leg e f s).free = s.free := (rfl)
@[simp] theorem modEntryOf_out (leg : ℕ) (e : ℕ) (f : FwdEntry → FwdEntry) (s : State) : (modEntryOf leg e f s).out = s.out := (rfl)
@[simp] theorem modEntryOf_clock (leg : ℕ) (e : ℕ) (f : FwdEntry → FwdEntry) (s : State) : (modEntryOf leg e f s).clock = s.clock := (rfl)
@[simp] theorem modEntryOf_regs (leg : ℕ) (e : ℕ) (f : FwdEntry → FwdEntry) (s : State) : (modEntryOf leg e f s).regs = s.regs := (rfl)
@[simp] theorem modEntryOf_latches (leg : ℕ) (e : ℕ) (f : FwdEntry → FwdEntry) (s : State) : (modEntryOf leg e f s).latches = s.latches := (rfl)
@[simp] theorem modEntryOf_host (leg : ℕ) (e : ℕ) (f : FwdEntry → FwdEntry) (s : State) : (modEntryOf leg e f s).host = s.host := (rfl)
@[simp] theorem modEntryOf_boot (leg : ℕ) (e : ℕ) (f : FwdEntry → FwdEntry) (s : State) : (modEntryOf leg e f s).boot = s.boot := (rfl)
@[simp] theorem modEntryOf_flash (leg : ℕ) (e : ℕ) (f : FwdEntry → FwdEntry) (s : State) : (modEntryOf leg e f s).flash = s.flash := (rfl)
@[simp] theorem modEntryOf_fab (leg : ℕ) (e : ℕ) (f : FwdEntry → FwdEntry) (s : State) : (modEntryOf leg e f s).fab = s.fab := (rfl)
@[simp] theorem modEntryOf_legs (leg : ℕ) (e : ℕ) (f : FwdEntry → FwdEntry) (s : State) : (modEntryOf leg e f s).legs = s.legs := (rfl)
@[simp] theorem modEntryOf_confs (leg : ℕ) (e : ℕ) (f : FwdEntry → FwdEntry) (s : State) : (modEntryOf leg e f s).confs = s.confs := (rfl)
@[simp] theorem modEntryOf_flues (leg : ℕ) (e : ℕ) (f : FwdEntry → FwdEntry) (s : State) : (modEntryOf leg e f s).flues = s.flues := (rfl)
@[simp] theorem modEntryOf_sram (leg : ℕ) (e : ℕ) (f : FwdEntry → FwdEntry) (s : State) : (modEntryOf leg e f s).sram = s.sram := (rfl)
@[simp] theorem modEntryOf_dram (leg : ℕ) (e : ℕ) (f : FwdEntry → FwdEntry) (s : State) : (modEntryOf leg e f s).dram = s.dram := (rfl)
@[simp] theorem modEntryOf_pkt (leg : ℕ) (e : ℕ) (f : FwdEntry → FwdEntry) (s : State) : (modEntryOf leg e f s).pkt = s.pkt := (rfl)
@[simp] theorem modEntryOf_keys (leg : ℕ) (e : ℕ) (f : FwdEntry → FwdEntry) (s : State) : (modEntryOf leg e f s).keys = s.keys := (rfl)
@[simp] theorem modEntryOf_audio (leg : ℕ) (e : ℕ) (f : FwdEntry → FwdEntry) (s : State) : (modEntryOf leg e f s).audio = s.audio := (rfl)
@[simp] theorem modEntryOf_dsp (leg : ℕ) (e : ℕ) (f : FwdEntry → FwdEntry) (s : State) : (modEntryOf leg e f s).dsp = s.dsp := (rfl)
@[simp] theorem modEntryOf_asp (leg : ℕ) (e : ℕ) (f : FwdEntry → FwdEntry) (s : State) : (modEntryOf leg e f s).asp = s.asp := (rfl)
@[simp] theorem modEntryOf_wlan (leg : ℕ) (e : ℕ) (f : FwdEntry → FwdEntry) (s : State) : (modEntryOf leg e f s).wlan = s.wlan := (rfl)
@[simp] theorem modEntryOf_radio (leg : ℕ) (e : ℕ) (f : FwdEntry → FwdEntry) (s : State) : (modEntryOf leg e f s).radio = s.radio := (rfl)
@[simp] theorem modEntryOf_time (leg : ℕ) (e : ℕ) (f : FwdEntry → FwdEntry) (s : State) : (modEntryOf leg e f s).time = s.time := (rfl)
@[simp] theorem modEntryOf_cap (leg : ℕ) (e : ℕ) (f : FwdEntry → FwdEntry) (s : State) : (modEntryOf leg e f s).cap = s.cap := (rfl)
@[simp] theorem modEntryOf_health (leg : ℕ) (e : ℕ) (f : FwdEntry → FwdEntry) (s : State) : (modEntryOf leg e f s).health = s.health := (rfl)
@[simp] theorem modEntryOf_power (leg : ℕ) (e : ℕ) (f : FwdEntry → FwdEntry) (s : State) : (modEntryOf leg e f s).power = s.power := (rfl)
@[simp] theorem modEth_pending (p : ℕ) (f : EthPort → EthPort) (s : State) : (modEth p f s).pending = s.pending := (rfl)
@[simp] theorem modEth_free (p : ℕ) (f : EthPort → EthPort) (s : State) : (modEth p f s).free = s.free := (rfl)
@[simp] theorem modEth_out (p : ℕ) (f : EthPort → EthPort) (s : State) : (modEth p f s).out = s.out := (rfl)
@[simp] theorem modEth_clock (p : ℕ) (f : EthPort → EthPort) (s : State) : (modEth p f s).clock = s.clock := (rfl)
@[simp] theorem modEth_regs (p : ℕ) (f : EthPort → EthPort) (s : State) : (modEth p f s).regs = s.regs := (rfl)
@[simp] theorem modEth_latches (p : ℕ) (f : EthPort → EthPort) (s : State) : (modEth p f s).latches = s.latches := (rfl)
@[simp] theorem modEth_host (p : ℕ) (f : EthPort → EthPort) (s : State) : (modEth p f s).host = s.host := (rfl)
@[simp] theorem modEth_boot (p : ℕ) (f : EthPort → EthPort) (s : State) : (modEth p f s).boot = s.boot := (rfl)
@[simp] theorem modEth_flash (p : ℕ) (f : EthPort → EthPort) (s : State) : (modEth p f s).flash = s.flash := (rfl)
@[simp] theorem modEth_fab (p : ℕ) (f : EthPort → EthPort) (s : State) : (modEth p f s).fab = s.fab := (rfl)
@[simp] theorem modEth_legs (p : ℕ) (f : EthPort → EthPort) (s : State) : (modEth p f s).legs = s.legs := (rfl)
@[simp] theorem modEth_confs (p : ℕ) (f : EthPort → EthPort) (s : State) : (modEth p f s).confs = s.confs := (rfl)
@[simp] theorem modEth_flues (p : ℕ) (f : EthPort → EthPort) (s : State) : (modEth p f s).flues = s.flues := (rfl)
@[simp] theorem modEth_sram (p : ℕ) (f : EthPort → EthPort) (s : State) : (modEth p f s).sram = s.sram := (rfl)
@[simp] theorem modEth_dram (p : ℕ) (f : EthPort → EthPort) (s : State) : (modEth p f s).dram = s.dram := (rfl)
@[simp] theorem modEth_keys (p : ℕ) (f : EthPort → EthPort) (s : State) : (modEth p f s).keys = s.keys := (rfl)
@[simp] theorem modEth_audio (p : ℕ) (f : EthPort → EthPort) (s : State) : (modEth p f s).audio = s.audio := (rfl)
@[simp] theorem modEth_dsp (p : ℕ) (f : EthPort → EthPort) (s : State) : (modEth p f s).dsp = s.dsp := (rfl)
@[simp] theorem modEth_asp (p : ℕ) (f : EthPort → EthPort) (s : State) : (modEth p f s).asp = s.asp := (rfl)
@[simp] theorem modEth_video (p : ℕ) (f : EthPort → EthPort) (s : State) : (modEth p f s).video = s.video := (rfl)
@[simp] theorem modEth_wlan (p : ℕ) (f : EthPort → EthPort) (s : State) : (modEth p f s).wlan = s.wlan := (rfl)
@[simp] theorem modEth_radio (p : ℕ) (f : EthPort → EthPort) (s : State) : (modEth p f s).radio = s.radio := (rfl)
@[simp] theorem modEth_time (p : ℕ) (f : EthPort → EthPort) (s : State) : (modEth p f s).time = s.time := (rfl)
@[simp] theorem modEth_cap (p : ℕ) (f : EthPort → EthPort) (s : State) : (modEth p f s).cap = s.cap := (rfl)
@[simp] theorem modEth_health (p : ℕ) (f : EthPort → EthPort) (s : State) : (modEth p f s).health = s.health := (rfl)
@[simp] theorem modEth_power (p : ℕ) (f : EthPort → EthPort) (s : State) : (modEth p f s).power = s.power := (rfl)
@[simp] theorem modFlow_pending (i : ℕ) (f : Flow → Flow) (s : State) : (modFlow i f s).pending = s.pending := (rfl)
@[simp] theorem modFlow_free (i : ℕ) (f : Flow → Flow) (s : State) : (modFlow i f s).free = s.free := (rfl)
@[simp] theorem modFlow_out (i : ℕ) (f : Flow → Flow) (s : State) : (modFlow i f s).out = s.out := (rfl)
@[simp] theorem modFlow_clock (i : ℕ) (f : Flow → Flow) (s : State) : (modFlow i f s).clock = s.clock := (rfl)
@[simp] theorem modFlow_regs (i : ℕ) (f : Flow → Flow) (s : State) : (modFlow i f s).regs = s.regs := (rfl)
@[simp] theorem modFlow_latches (i : ℕ) (f : Flow → Flow) (s : State) : (modFlow i f s).latches = s.latches := (rfl)
@[simp] theorem modFlow_host (i : ℕ) (f : Flow → Flow) (s : State) : (modFlow i f s).host = s.host := (rfl)
@[simp] theorem modFlow_boot (i : ℕ) (f : Flow → Flow) (s : State) : (modFlow i f s).boot = s.boot := (rfl)
@[simp] theorem modFlow_flash (i : ℕ) (f : Flow → Flow) (s : State) : (modFlow i f s).flash = s.flash := (rfl)
@[simp] theorem modFlow_fab (i : ℕ) (f : Flow → Flow) (s : State) : (modFlow i f s).fab = s.fab := (rfl)
@[simp] theorem modFlow_legs (i : ℕ) (f : Flow → Flow) (s : State) : (modFlow i f s).legs = s.legs := (rfl)
@[simp] theorem modFlow_confs (i : ℕ) (f : Flow → Flow) (s : State) : (modFlow i f s).confs = s.confs := (rfl)
@[simp] theorem modFlow_flues (i : ℕ) (f : Flow → Flow) (s : State) : (modFlow i f s).flues = s.flues := (rfl)
@[simp] theorem modFlow_sram (i : ℕ) (f : Flow → Flow) (s : State) : (modFlow i f s).sram = s.sram := (rfl)
@[simp] theorem modFlow_dram (i : ℕ) (f : Flow → Flow) (s : State) : (modFlow i f s).dram = s.dram := (rfl)
@[simp] theorem modFlow_keys (i : ℕ) (f : Flow → Flow) (s : State) : (modFlow i f s).keys = s.keys := (rfl)
@[simp] theorem modFlow_audio (i : ℕ) (f : Flow → Flow) (s : State) : (modFlow i f s).audio = s.audio := (rfl)
@[simp] theorem modFlow_dsp (i : ℕ) (f : Flow → Flow) (s : State) : (modFlow i f s).dsp = s.dsp := (rfl)
@[simp] theorem modFlow_asp (i : ℕ) (f : Flow → Flow) (s : State) : (modFlow i f s).asp = s.asp := (rfl)
@[simp] theorem modFlow_video (i : ℕ) (f : Flow → Flow) (s : State) : (modFlow i f s).video = s.video := (rfl)
@[simp] theorem modFlow_wlan (i : ℕ) (f : Flow → Flow) (s : State) : (modFlow i f s).wlan = s.wlan := (rfl)
@[simp] theorem modFlow_radio (i : ℕ) (f : Flow → Flow) (s : State) : (modFlow i f s).radio = s.radio := (rfl)
@[simp] theorem modFlow_time (i : ℕ) (f : Flow → Flow) (s : State) : (modFlow i f s).time = s.time := (rfl)
@[simp] theorem modFlow_cap (i : ℕ) (f : Flow → Flow) (s : State) : (modFlow i f s).cap = s.cap := (rfl)
@[simp] theorem modFlow_health (i : ℕ) (f : Flow → Flow) (s : State) : (modFlow i f s).health = s.health := (rfl)
@[simp] theorem modFlow_power (i : ℕ) (f : Flow → Flow) (s : State) : (modFlow i f s).power = s.power := (rfl)
@[simp] theorem modFwd_pending (leg : ℕ) (f : FwdSet → FwdSet) (s : State) : (modFwd leg f s).pending = s.pending := (rfl)
@[simp] theorem modFwd_free (leg : ℕ) (f : FwdSet → FwdSet) (s : State) : (modFwd leg f s).free = s.free := (rfl)
@[simp] theorem modFwd_out (leg : ℕ) (f : FwdSet → FwdSet) (s : State) : (modFwd leg f s).out = s.out := (rfl)
@[simp] theorem modFwd_clock (leg : ℕ) (f : FwdSet → FwdSet) (s : State) : (modFwd leg f s).clock = s.clock := (rfl)
@[simp] theorem modFwd_regs (leg : ℕ) (f : FwdSet → FwdSet) (s : State) : (modFwd leg f s).regs = s.regs := (rfl)
@[simp] theorem modFwd_latches (leg : ℕ) (f : FwdSet → FwdSet) (s : State) : (modFwd leg f s).latches = s.latches := (rfl)
@[simp] theorem modFwd_host (leg : ℕ) (f : FwdSet → FwdSet) (s : State) : (modFwd leg f s).host = s.host := (rfl)
@[simp] theorem modFwd_boot (leg : ℕ) (f : FwdSet → FwdSet) (s : State) : (modFwd leg f s).boot = s.boot := (rfl)
@[simp] theorem modFwd_flash (leg : ℕ) (f : FwdSet → FwdSet) (s : State) : (modFwd leg f s).flash = s.flash := (rfl)
@[simp] theorem modFwd_fab (leg : ℕ) (f : FwdSet → FwdSet) (s : State) : (modFwd leg f s).fab = s.fab := (rfl)
@[simp] theorem modFwd_legs (leg : ℕ) (f : FwdSet → FwdSet) (s : State) : (modFwd leg f s).legs = s.legs := (rfl)
@[simp] theorem modFwd_confs (leg : ℕ) (f : FwdSet → FwdSet) (s : State) : (modFwd leg f s).confs = s.confs := (rfl)
@[simp] theorem modFwd_flues (leg : ℕ) (f : FwdSet → FwdSet) (s : State) : (modFwd leg f s).flues = s.flues := (rfl)
@[simp] theorem modFwd_sram (leg : ℕ) (f : FwdSet → FwdSet) (s : State) : (modFwd leg f s).sram = s.sram := (rfl)
@[simp] theorem modFwd_dram (leg : ℕ) (f : FwdSet → FwdSet) (s : State) : (modFwd leg f s).dram = s.dram := (rfl)
@[simp] theorem modFwd_pkt (leg : ℕ) (f : FwdSet → FwdSet) (s : State) : (modFwd leg f s).pkt = s.pkt := (rfl)
@[simp] theorem modFwd_keys (leg : ℕ) (f : FwdSet → FwdSet) (s : State) : (modFwd leg f s).keys = s.keys := (rfl)
@[simp] theorem modFwd_audio (leg : ℕ) (f : FwdSet → FwdSet) (s : State) : (modFwd leg f s).audio = s.audio := (rfl)
@[simp] theorem modFwd_dsp (leg : ℕ) (f : FwdSet → FwdSet) (s : State) : (modFwd leg f s).dsp = s.dsp := (rfl)
@[simp] theorem modFwd_asp (leg : ℕ) (f : FwdSet → FwdSet) (s : State) : (modFwd leg f s).asp = s.asp := (rfl)
@[simp] theorem modFwd_wlan (leg : ℕ) (f : FwdSet → FwdSet) (s : State) : (modFwd leg f s).wlan = s.wlan := (rfl)
@[simp] theorem modFwd_radio (leg : ℕ) (f : FwdSet → FwdSet) (s : State) : (modFwd leg f s).radio = s.radio := (rfl)
@[simp] theorem modFwd_time (leg : ℕ) (f : FwdSet → FwdSet) (s : State) : (modFwd leg f s).time = s.time := (rfl)
@[simp] theorem modFwd_cap (leg : ℕ) (f : FwdSet → FwdSet) (s : State) : (modFwd leg f s).cap = s.cap := (rfl)
@[simp] theorem modFwd_health (leg : ℕ) (f : FwdSet → FwdSet) (s : State) : (modFwd leg f s).health = s.health := (rfl)
@[simp] theorem modFwd_power (leg : ℕ) (f : FwdSet → FwdSet) (s : State) : (modFwd leg f s).power = s.power := (rfl)
@[simp] theorem modJit_pending (i : ℕ) (f : Jitter → Jitter) (s : State) : (modJit i f s).pending = s.pending := (rfl)
@[simp] theorem modJit_free (i : ℕ) (f : Jitter → Jitter) (s : State) : (modJit i f s).free = s.free := (rfl)
@[simp] theorem modJit_out (i : ℕ) (f : Jitter → Jitter) (s : State) : (modJit i f s).out = s.out := (rfl)
@[simp] theorem modJit_clock (i : ℕ) (f : Jitter → Jitter) (s : State) : (modJit i f s).clock = s.clock := (rfl)
@[simp] theorem modJit_regs (i : ℕ) (f : Jitter → Jitter) (s : State) : (modJit i f s).regs = s.regs := (rfl)
@[simp] theorem modJit_latches (i : ℕ) (f : Jitter → Jitter) (s : State) : (modJit i f s).latches = s.latches := (rfl)
@[simp] theorem modJit_host (i : ℕ) (f : Jitter → Jitter) (s : State) : (modJit i f s).host = s.host := (rfl)
@[simp] theorem modJit_boot (i : ℕ) (f : Jitter → Jitter) (s : State) : (modJit i f s).boot = s.boot := (rfl)
@[simp] theorem modJit_flash (i : ℕ) (f : Jitter → Jitter) (s : State) : (modJit i f s).flash = s.flash := (rfl)
@[simp] theorem modJit_fab (i : ℕ) (f : Jitter → Jitter) (s : State) : (modJit i f s).fab = s.fab := (rfl)
@[simp] theorem modJit_legs (i : ℕ) (f : Jitter → Jitter) (s : State) : (modJit i f s).legs = s.legs := (rfl)
@[simp] theorem modJit_confs (i : ℕ) (f : Jitter → Jitter) (s : State) : (modJit i f s).confs = s.confs := (rfl)
@[simp] theorem modJit_flues (i : ℕ) (f : Jitter → Jitter) (s : State) : (modJit i f s).flues = s.flues := (rfl)
@[simp] theorem modJit_sram (i : ℕ) (f : Jitter → Jitter) (s : State) : (modJit i f s).sram = s.sram := (rfl)
@[simp] theorem modJit_dram (i : ℕ) (f : Jitter → Jitter) (s : State) : (modJit i f s).dram = s.dram := (rfl)
@[simp] theorem modJit_pkt (i : ℕ) (f : Jitter → Jitter) (s : State) : (modJit i f s).pkt = s.pkt := (rfl)
@[simp] theorem modJit_keys (i : ℕ) (f : Jitter → Jitter) (s : State) : (modJit i f s).keys = s.keys := (rfl)
@[simp] theorem modJit_dsp (i : ℕ) (f : Jitter → Jitter) (s : State) : (modJit i f s).dsp = s.dsp := (rfl)
@[simp] theorem modJit_asp (i : ℕ) (f : Jitter → Jitter) (s : State) : (modJit i f s).asp = s.asp := (rfl)
@[simp] theorem modJit_video (i : ℕ) (f : Jitter → Jitter) (s : State) : (modJit i f s).video = s.video := (rfl)
@[simp] theorem modJit_wlan (i : ℕ) (f : Jitter → Jitter) (s : State) : (modJit i f s).wlan = s.wlan := (rfl)
@[simp] theorem modJit_radio (i : ℕ) (f : Jitter → Jitter) (s : State) : (modJit i f s).radio = s.radio := (rfl)
@[simp] theorem modJit_time (i : ℕ) (f : Jitter → Jitter) (s : State) : (modJit i f s).time = s.time := (rfl)
@[simp] theorem modJit_cap (i : ℕ) (f : Jitter → Jitter) (s : State) : (modJit i f s).cap = s.cap := (rfl)
@[simp] theorem modJit_health (i : ℕ) (f : Jitter → Jitter) (s : State) : (modJit i f s).health = s.health := (rfl)
@[simp] theorem modJit_power (i : ℕ) (f : Jitter → Jitter) (s : State) : (modJit i f s).power = s.power := (rfl)
@[simp] theorem modKey_pending (k : ℕ) (f : Key → Key) (s : State) : (modKey k f s).pending = s.pending := (rfl)
@[simp] theorem modKey_free (k : ℕ) (f : Key → Key) (s : State) : (modKey k f s).free = s.free := (rfl)
@[simp] theorem modKey_out (k : ℕ) (f : Key → Key) (s : State) : (modKey k f s).out = s.out := (rfl)
@[simp] theorem modKey_clock (k : ℕ) (f : Key → Key) (s : State) : (modKey k f s).clock = s.clock := (rfl)
@[simp] theorem modKey_regs (k : ℕ) (f : Key → Key) (s : State) : (modKey k f s).regs = s.regs := (rfl)
@[simp] theorem modKey_latches (k : ℕ) (f : Key → Key) (s : State) : (modKey k f s).latches = s.latches := (rfl)
@[simp] theorem modKey_host (k : ℕ) (f : Key → Key) (s : State) : (modKey k f s).host = s.host := (rfl)
@[simp] theorem modKey_boot (k : ℕ) (f : Key → Key) (s : State) : (modKey k f s).boot = s.boot := (rfl)
@[simp] theorem modKey_flash (k : ℕ) (f : Key → Key) (s : State) : (modKey k f s).flash = s.flash := (rfl)
@[simp] theorem modKey_fab (k : ℕ) (f : Key → Key) (s : State) : (modKey k f s).fab = s.fab := (rfl)
@[simp] theorem modKey_legs (k : ℕ) (f : Key → Key) (s : State) : (modKey k f s).legs = s.legs := (rfl)
@[simp] theorem modKey_confs (k : ℕ) (f : Key → Key) (s : State) : (modKey k f s).confs = s.confs := (rfl)
@[simp] theorem modKey_flues (k : ℕ) (f : Key → Key) (s : State) : (modKey k f s).flues = s.flues := (rfl)
@[simp] theorem modKey_sram (k : ℕ) (f : Key → Key) (s : State) : (modKey k f s).sram = s.sram := (rfl)
@[simp] theorem modKey_dram (k : ℕ) (f : Key → Key) (s : State) : (modKey k f s).dram = s.dram := (rfl)
@[simp] theorem modKey_pkt (k : ℕ) (f : Key → Key) (s : State) : (modKey k f s).pkt = s.pkt := (rfl)
@[simp] theorem modKey_audio (k : ℕ) (f : Key → Key) (s : State) : (modKey k f s).audio = s.audio := (rfl)
@[simp] theorem modKey_dsp (k : ℕ) (f : Key → Key) (s : State) : (modKey k f s).dsp = s.dsp := (rfl)
@[simp] theorem modKey_asp (k : ℕ) (f : Key → Key) (s : State) : (modKey k f s).asp = s.asp := (rfl)
@[simp] theorem modKey_video (k : ℕ) (f : Key → Key) (s : State) : (modKey k f s).video = s.video := (rfl)
@[simp] theorem modKey_wlan (k : ℕ) (f : Key → Key) (s : State) : (modKey k f s).wlan = s.wlan := (rfl)
@[simp] theorem modKey_radio (k : ℕ) (f : Key → Key) (s : State) : (modKey k f s).radio = s.radio := (rfl)
@[simp] theorem modKey_time (k : ℕ) (f : Key → Key) (s : State) : (modKey k f s).time = s.time := (rfl)
@[simp] theorem modKey_cap (k : ℕ) (f : Key → Key) (s : State) : (modKey k f s).cap = s.cap := (rfl)
@[simp] theorem modKey_health (k : ℕ) (f : Key → Key) (s : State) : (modKey k f s).health = s.health := (rfl)
@[simp] theorem modKey_power (k : ℕ) (f : Key → Key) (s : State) : (modKey k f s).power = s.power := (rfl)
@[simp] theorem modKreq_pending (k : ℕ) (f : KeyReq → KeyReq) (s : State) : (modKreq k f s).pending = s.pending := (rfl)
@[simp] theorem modKreq_free (k : ℕ) (f : KeyReq → KeyReq) (s : State) : (modKreq k f s).free = s.free := (rfl)
@[simp] theorem modKreq_out (k : ℕ) (f : KeyReq → KeyReq) (s : State) : (modKreq k f s).out = s.out := (rfl)
@[simp] theorem modKreq_clock (k : ℕ) (f : KeyReq → KeyReq) (s : State) : (modKreq k f s).clock = s.clock := (rfl)
@[simp] theorem modKreq_regs (k : ℕ) (f : KeyReq → KeyReq) (s : State) : (modKreq k f s).regs = s.regs := (rfl)
@[simp] theorem modKreq_latches (k : ℕ) (f : KeyReq → KeyReq) (s : State) : (modKreq k f s).latches = s.latches := (rfl)
@[simp] theorem modKreq_host (k : ℕ) (f : KeyReq → KeyReq) (s : State) : (modKreq k f s).host = s.host := (rfl)
@[simp] theorem modKreq_boot (k : ℕ) (f : KeyReq → KeyReq) (s : State) : (modKreq k f s).boot = s.boot := (rfl)
@[simp] theorem modKreq_flash (k : ℕ) (f : KeyReq → KeyReq) (s : State) : (modKreq k f s).flash = s.flash := (rfl)
@[simp] theorem modKreq_fab (k : ℕ) (f : KeyReq → KeyReq) (s : State) : (modKreq k f s).fab = s.fab := (rfl)
@[simp] theorem modKreq_legs (k : ℕ) (f : KeyReq → KeyReq) (s : State) : (modKreq k f s).legs = s.legs := (rfl)
@[simp] theorem modKreq_confs (k : ℕ) (f : KeyReq → KeyReq) (s : State) : (modKreq k f s).confs = s.confs := (rfl)
@[simp] theorem modKreq_flues (k : ℕ) (f : KeyReq → KeyReq) (s : State) : (modKreq k f s).flues = s.flues := (rfl)
@[simp] theorem modKreq_sram (k : ℕ) (f : KeyReq → KeyReq) (s : State) : (modKreq k f s).sram = s.sram := (rfl)
@[simp] theorem modKreq_dram (k : ℕ) (f : KeyReq → KeyReq) (s : State) : (modKreq k f s).dram = s.dram := (rfl)
@[simp] theorem modKreq_pkt (k : ℕ) (f : KeyReq → KeyReq) (s : State) : (modKreq k f s).pkt = s.pkt := (rfl)
@[simp] theorem modKreq_keys (k : ℕ) (f : KeyReq → KeyReq) (s : State) : (modKreq k f s).keys = s.keys := (rfl)
@[simp] theorem modKreq_audio (k : ℕ) (f : KeyReq → KeyReq) (s : State) : (modKreq k f s).audio = s.audio := (rfl)
@[simp] theorem modKreq_dsp (k : ℕ) (f : KeyReq → KeyReq) (s : State) : (modKreq k f s).dsp = s.dsp := (rfl)
@[simp] theorem modKreq_asp (k : ℕ) (f : KeyReq → KeyReq) (s : State) : (modKreq k f s).asp = s.asp := (rfl)
@[simp] theorem modKreq_wlan (k : ℕ) (f : KeyReq → KeyReq) (s : State) : (modKreq k f s).wlan = s.wlan := (rfl)
@[simp] theorem modKreq_radio (k : ℕ) (f : KeyReq → KeyReq) (s : State) : (modKreq k f s).radio = s.radio := (rfl)
@[simp] theorem modKreq_time (k : ℕ) (f : KeyReq → KeyReq) (s : State) : (modKreq k f s).time = s.time := (rfl)
@[simp] theorem modKreq_cap (k : ℕ) (f : KeyReq → KeyReq) (s : State) : (modKreq k f s).cap = s.cap := (rfl)
@[simp] theorem modKreq_health (k : ℕ) (f : KeyReq → KeyReq) (s : State) : (modKreq k f s).health = s.health := (rfl)
@[simp] theorem modKreq_power (k : ℕ) (f : KeyReq → KeyReq) (s : State) : (modKreq k f s).power = s.power := (rfl)
@[simp] theorem modLeg_pending (i : ℕ) (f : Leg → Leg) (s : State) : (modLeg i f s).pending = s.pending := (rfl)
@[simp] theorem modLeg_free (i : ℕ) (f : Leg → Leg) (s : State) : (modLeg i f s).free = s.free := (rfl)
@[simp] theorem modLeg_out (i : ℕ) (f : Leg → Leg) (s : State) : (modLeg i f s).out = s.out := (rfl)
@[simp] theorem modLeg_clock (i : ℕ) (f : Leg → Leg) (s : State) : (modLeg i f s).clock = s.clock := (rfl)
@[simp] theorem modLeg_regs (i : ℕ) (f : Leg → Leg) (s : State) : (modLeg i f s).regs = s.regs := (rfl)
@[simp] theorem modLeg_latches (i : ℕ) (f : Leg → Leg) (s : State) : (modLeg i f s).latches = s.latches := (rfl)
@[simp] theorem modLeg_host (i : ℕ) (f : Leg → Leg) (s : State) : (modLeg i f s).host = s.host := (rfl)
@[simp] theorem modLeg_boot (i : ℕ) (f : Leg → Leg) (s : State) : (modLeg i f s).boot = s.boot := (rfl)
@[simp] theorem modLeg_flash (i : ℕ) (f : Leg → Leg) (s : State) : (modLeg i f s).flash = s.flash := (rfl)
@[simp] theorem modLeg_fab (i : ℕ) (f : Leg → Leg) (s : State) : (modLeg i f s).fab = s.fab := (rfl)
@[simp] theorem modLeg_confs (i : ℕ) (f : Leg → Leg) (s : State) : (modLeg i f s).confs = s.confs := (rfl)
@[simp] theorem modLeg_flues (i : ℕ) (f : Leg → Leg) (s : State) : (modLeg i f s).flues = s.flues := (rfl)
@[simp] theorem modLeg_sram (i : ℕ) (f : Leg → Leg) (s : State) : (modLeg i f s).sram = s.sram := (rfl)
@[simp] theorem modLeg_dram (i : ℕ) (f : Leg → Leg) (s : State) : (modLeg i f s).dram = s.dram := (rfl)
@[simp] theorem modLeg_pkt (i : ℕ) (f : Leg → Leg) (s : State) : (modLeg i f s).pkt = s.pkt := (rfl)
@[simp] theorem modLeg_keys (i : ℕ) (f : Leg → Leg) (s : State) : (modLeg i f s).keys = s.keys := (rfl)
@[simp] theorem modLeg_audio (i : ℕ) (f : Leg → Leg) (s : State) : (modLeg i f s).audio = s.audio := (rfl)
@[simp] theorem modLeg_dsp (i : ℕ) (f : Leg → Leg) (s : State) : (modLeg i f s).dsp = s.dsp := (rfl)
@[simp] theorem modLeg_asp (i : ℕ) (f : Leg → Leg) (s : State) : (modLeg i f s).asp = s.asp := (rfl)
@[simp] theorem modLeg_video (i : ℕ) (f : Leg → Leg) (s : State) : (modLeg i f s).video = s.video := (rfl)
@[simp] theorem modLeg_wlan (i : ℕ) (f : Leg → Leg) (s : State) : (modLeg i f s).wlan = s.wlan := (rfl)
@[simp] theorem modLeg_radio (i : ℕ) (f : Leg → Leg) (s : State) : (modLeg i f s).radio = s.radio := (rfl)
@[simp] theorem modLeg_time (i : ℕ) (f : Leg → Leg) (s : State) : (modLeg i f s).time = s.time := (rfl)
@[simp] theorem modLeg_cap (i : ℕ) (f : Leg → Leg) (s : State) : (modLeg i f s).cap = s.cap := (rfl)
@[simp] theorem modLeg_health (i : ℕ) (f : Leg → Leg) (s : State) : (modLeg i f s).health = s.health := (rfl)
@[simp] theorem modLeg_power (i : ℕ) (f : Leg → Leg) (s : State) : (modLeg i f s).power = s.power := (rfl)
@[simp] theorem modMix_pending (i : ℕ) (f : MixLeg → MixLeg) (s : State) : (modMix i f s).pending = s.pending := (rfl)
@[simp] theorem modMix_free (i : ℕ) (f : MixLeg → MixLeg) (s : State) : (modMix i f s).free = s.free := (rfl)
@[simp] theorem modMix_out (i : ℕ) (f : MixLeg → MixLeg) (s : State) : (modMix i f s).out = s.out := (rfl)
@[simp] theorem modMix_clock (i : ℕ) (f : MixLeg → MixLeg) (s : State) : (modMix i f s).clock = s.clock := (rfl)
@[simp] theorem modMix_regs (i : ℕ) (f : MixLeg → MixLeg) (s : State) : (modMix i f s).regs = s.regs := (rfl)
@[simp] theorem modMix_latches (i : ℕ) (f : MixLeg → MixLeg) (s : State) : (modMix i f s).latches = s.latches := (rfl)
@[simp] theorem modMix_host (i : ℕ) (f : MixLeg → MixLeg) (s : State) : (modMix i f s).host = s.host := (rfl)
@[simp] theorem modMix_boot (i : ℕ) (f : MixLeg → MixLeg) (s : State) : (modMix i f s).boot = s.boot := (rfl)
@[simp] theorem modMix_flash (i : ℕ) (f : MixLeg → MixLeg) (s : State) : (modMix i f s).flash = s.flash := (rfl)
@[simp] theorem modMix_fab (i : ℕ) (f : MixLeg → MixLeg) (s : State) : (modMix i f s).fab = s.fab := (rfl)
@[simp] theorem modMix_legs (i : ℕ) (f : MixLeg → MixLeg) (s : State) : (modMix i f s).legs = s.legs := (rfl)
@[simp] theorem modMix_confs (i : ℕ) (f : MixLeg → MixLeg) (s : State) : (modMix i f s).confs = s.confs := (rfl)
@[simp] theorem modMix_flues (i : ℕ) (f : MixLeg → MixLeg) (s : State) : (modMix i f s).flues = s.flues := (rfl)
@[simp] theorem modMix_sram (i : ℕ) (f : MixLeg → MixLeg) (s : State) : (modMix i f s).sram = s.sram := (rfl)
@[simp] theorem modMix_dram (i : ℕ) (f : MixLeg → MixLeg) (s : State) : (modMix i f s).dram = s.dram := (rfl)
@[simp] theorem modMix_pkt (i : ℕ) (f : MixLeg → MixLeg) (s : State) : (modMix i f s).pkt = s.pkt := (rfl)
@[simp] theorem modMix_keys (i : ℕ) (f : MixLeg → MixLeg) (s : State) : (modMix i f s).keys = s.keys := (rfl)
@[simp] theorem modMix_dsp (i : ℕ) (f : MixLeg → MixLeg) (s : State) : (modMix i f s).dsp = s.dsp := (rfl)
@[simp] theorem modMix_asp (i : ℕ) (f : MixLeg → MixLeg) (s : State) : (modMix i f s).asp = s.asp := (rfl)
@[simp] theorem modMix_video (i : ℕ) (f : MixLeg → MixLeg) (s : State) : (modMix i f s).video = s.video := (rfl)
@[simp] theorem modMix_wlan (i : ℕ) (f : MixLeg → MixLeg) (s : State) : (modMix i f s).wlan = s.wlan := (rfl)
@[simp] theorem modMix_radio (i : ℕ) (f : MixLeg → MixLeg) (s : State) : (modMix i f s).radio = s.radio := (rfl)
@[simp] theorem modMix_time (i : ℕ) (f : MixLeg → MixLeg) (s : State) : (modMix i f s).time = s.time := (rfl)
@[simp] theorem modMix_cap (i : ℕ) (f : MixLeg → MixLeg) (s : State) : (modMix i f s).cap = s.cap := (rfl)
@[simp] theorem modMix_health (i : ℕ) (f : MixLeg → MixLeg) (s : State) : (modMix i f s).health = s.health := (rfl)
@[simp] theorem modMix_power (i : ℕ) (f : MixLeg → MixLeg) (s : State) : (modMix i f s).power = s.power := (rfl)
@[simp] theorem modRadio_pending (r : ℕ) (f : Radio → Radio) (s : State) : (modRadio r f s).pending = s.pending := (rfl)
@[simp] theorem modRadio_free (r : ℕ) (f : Radio → Radio) (s : State) : (modRadio r f s).free = s.free := (rfl)
@[simp] theorem modRadio_out (r : ℕ) (f : Radio → Radio) (s : State) : (modRadio r f s).out = s.out := (rfl)
@[simp] theorem modRadio_clock (r : ℕ) (f : Radio → Radio) (s : State) : (modRadio r f s).clock = s.clock := (rfl)
@[simp] theorem modRadio_regs (r : ℕ) (f : Radio → Radio) (s : State) : (modRadio r f s).regs = s.regs := (rfl)
@[simp] theorem modRadio_latches (r : ℕ) (f : Radio → Radio) (s : State) : (modRadio r f s).latches = s.latches := (rfl)
@[simp] theorem modRadio_host (r : ℕ) (f : Radio → Radio) (s : State) : (modRadio r f s).host = s.host := (rfl)
@[simp] theorem modRadio_boot (r : ℕ) (f : Radio → Radio) (s : State) : (modRadio r f s).boot = s.boot := (rfl)
@[simp] theorem modRadio_flash (r : ℕ) (f : Radio → Radio) (s : State) : (modRadio r f s).flash = s.flash := (rfl)
@[simp] theorem modRadio_fab (r : ℕ) (f : Radio → Radio) (s : State) : (modRadio r f s).fab = s.fab := (rfl)
@[simp] theorem modRadio_legs (r : ℕ) (f : Radio → Radio) (s : State) : (modRadio r f s).legs = s.legs := (rfl)
@[simp] theorem modRadio_confs (r : ℕ) (f : Radio → Radio) (s : State) : (modRadio r f s).confs = s.confs := (rfl)
@[simp] theorem modRadio_flues (r : ℕ) (f : Radio → Radio) (s : State) : (modRadio r f s).flues = s.flues := (rfl)
@[simp] theorem modRadio_sram (r : ℕ) (f : Radio → Radio) (s : State) : (modRadio r f s).sram = s.sram := (rfl)
@[simp] theorem modRadio_dram (r : ℕ) (f : Radio → Radio) (s : State) : (modRadio r f s).dram = s.dram := (rfl)
@[simp] theorem modRadio_pkt (r : ℕ) (f : Radio → Radio) (s : State) : (modRadio r f s).pkt = s.pkt := (rfl)
@[simp] theorem modRadio_keys (r : ℕ) (f : Radio → Radio) (s : State) : (modRadio r f s).keys = s.keys := (rfl)
@[simp] theorem modRadio_audio (r : ℕ) (f : Radio → Radio) (s : State) : (modRadio r f s).audio = s.audio := (rfl)
@[simp] theorem modRadio_dsp (r : ℕ) (f : Radio → Radio) (s : State) : (modRadio r f s).dsp = s.dsp := (rfl)
@[simp] theorem modRadio_asp (r : ℕ) (f : Radio → Radio) (s : State) : (modRadio r f s).asp = s.asp := (rfl)
@[simp] theorem modRadio_video (r : ℕ) (f : Radio → Radio) (s : State) : (modRadio r f s).video = s.video := (rfl)
@[simp] theorem modRadio_wlan (r : ℕ) (f : Radio → Radio) (s : State) : (modRadio r f s).wlan = s.wlan := (rfl)
@[simp] theorem modRadio_time (r : ℕ) (f : Radio → Radio) (s : State) : (modRadio r f s).time = s.time := (rfl)
@[simp] theorem modRadio_cap (r : ℕ) (f : Radio → Radio) (s : State) : (modRadio r f s).cap = s.cap := (rfl)
@[simp] theorem modRadio_health (r : ℕ) (f : Radio → Radio) (s : State) : (modRadio r f s).health = s.health := (rfl)
@[simp] theorem modRadio_power (r : ℕ) (f : Radio → Radio) (s : State) : (modRadio r f s).power = s.power := (rfl)
@[simp] theorem modRegion_pending (i : ℕ) (f : Region → Region) (s : State) : (modRegion i f s).pending = s.pending := (rfl)
@[simp] theorem modRegion_free (i : ℕ) (f : Region → Region) (s : State) : (modRegion i f s).free = s.free := (rfl)
@[simp] theorem modRegion_out (i : ℕ) (f : Region → Region) (s : State) : (modRegion i f s).out = s.out := (rfl)
@[simp] theorem modRegion_clock (i : ℕ) (f : Region → Region) (s : State) : (modRegion i f s).clock = s.clock := (rfl)
@[simp] theorem modRegion_regs (i : ℕ) (f : Region → Region) (s : State) : (modRegion i f s).regs = s.regs := (rfl)
@[simp] theorem modRegion_latches (i : ℕ) (f : Region → Region) (s : State) : (modRegion i f s).latches = s.latches := (rfl)
@[simp] theorem modRegion_host (i : ℕ) (f : Region → Region) (s : State) : (modRegion i f s).host = s.host := (rfl)
@[simp] theorem modRegion_boot (i : ℕ) (f : Region → Region) (s : State) : (modRegion i f s).boot = s.boot := (rfl)
@[simp] theorem modRegion_flash (i : ℕ) (f : Region → Region) (s : State) : (modRegion i f s).flash = s.flash := (rfl)
@[simp] theorem modRegion_fab (i : ℕ) (f : Region → Region) (s : State) : (modRegion i f s).fab = s.fab := (rfl)
@[simp] theorem modRegion_legs (i : ℕ) (f : Region → Region) (s : State) : (modRegion i f s).legs = s.legs := (rfl)
@[simp] theorem modRegion_confs (i : ℕ) (f : Region → Region) (s : State) : (modRegion i f s).confs = s.confs := (rfl)
@[simp] theorem modRegion_flues (i : ℕ) (f : Region → Region) (s : State) : (modRegion i f s).flues = s.flues := (rfl)
@[simp] theorem modRegion_sram (i : ℕ) (f : Region → Region) (s : State) : (modRegion i f s).sram = s.sram := (rfl)
@[simp] theorem modRegion_pkt (i : ℕ) (f : Region → Region) (s : State) : (modRegion i f s).pkt = s.pkt := (rfl)
@[simp] theorem modRegion_keys (i : ℕ) (f : Region → Region) (s : State) : (modRegion i f s).keys = s.keys := (rfl)
@[simp] theorem modRegion_audio (i : ℕ) (f : Region → Region) (s : State) : (modRegion i f s).audio = s.audio := (rfl)
@[simp] theorem modRegion_dsp (i : ℕ) (f : Region → Region) (s : State) : (modRegion i f s).dsp = s.dsp := (rfl)
@[simp] theorem modRegion_asp (i : ℕ) (f : Region → Region) (s : State) : (modRegion i f s).asp = s.asp := (rfl)
@[simp] theorem modRegion_video (i : ℕ) (f : Region → Region) (s : State) : (modRegion i f s).video = s.video := (rfl)
@[simp] theorem modRegion_wlan (i : ℕ) (f : Region → Region) (s : State) : (modRegion i f s).wlan = s.wlan := (rfl)
@[simp] theorem modRegion_radio (i : ℕ) (f : Region → Region) (s : State) : (modRegion i f s).radio = s.radio := (rfl)
@[simp] theorem modRegion_time (i : ℕ) (f : Region → Region) (s : State) : (modRegion i f s).time = s.time := (rfl)
@[simp] theorem modRegion_cap (i : ℕ) (f : Region → Region) (s : State) : (modRegion i f s).cap = s.cap := (rfl)
@[simp] theorem modRegion_health (i : ℕ) (f : Region → Region) (s : State) : (modRegion i f s).health = s.health := (rfl)
@[simp] theorem modRegion_power (i : ℕ) (f : Region → Region) (s : State) : (modRegion i f s).power = s.power := (rfl)
@[simp] theorem modSession_pending (i : ℕ) (f : Session → Session) (s : State) : (modSession i f s).pending = s.pending := (rfl)
@[simp] theorem modSession_free (i : ℕ) (f : Session → Session) (s : State) : (modSession i f s).free = s.free := (rfl)
@[simp] theorem modSession_out (i : ℕ) (f : Session → Session) (s : State) : (modSession i f s).out = s.out := (rfl)
@[simp] theorem modSession_clock (i : ℕ) (f : Session → Session) (s : State) : (modSession i f s).clock = s.clock := (rfl)
@[simp] theorem modSession_regs (i : ℕ) (f : Session → Session) (s : State) : (modSession i f s).regs = s.regs := (rfl)
@[simp] theorem modSession_latches (i : ℕ) (f : Session → Session) (s : State) : (modSession i f s).latches = s.latches := (rfl)
@[simp] theorem modSession_host (i : ℕ) (f : Session → Session) (s : State) : (modSession i f s).host = s.host := (rfl)
@[simp] theorem modSession_boot (i : ℕ) (f : Session → Session) (s : State) : (modSession i f s).boot = s.boot := (rfl)
@[simp] theorem modSession_flash (i : ℕ) (f : Session → Session) (s : State) : (modSession i f s).flash = s.flash := (rfl)
@[simp] theorem modSession_fab (i : ℕ) (f : Session → Session) (s : State) : (modSession i f s).fab = s.fab := (rfl)
@[simp] theorem modSession_legs (i : ℕ) (f : Session → Session) (s : State) : (modSession i f s).legs = s.legs := (rfl)
@[simp] theorem modSession_confs (i : ℕ) (f : Session → Session) (s : State) : (modSession i f s).confs = s.confs := (rfl)
@[simp] theorem modSession_flues (i : ℕ) (f : Session → Session) (s : State) : (modSession i f s).flues = s.flues := (rfl)
@[simp] theorem modSession_sram (i : ℕ) (f : Session → Session) (s : State) : (modSession i f s).sram = s.sram := (rfl)
@[simp] theorem modSession_dram (i : ℕ) (f : Session → Session) (s : State) : (modSession i f s).dram = s.dram := (rfl)
@[simp] theorem modSession_pkt (i : ℕ) (f : Session → Session) (s : State) : (modSession i f s).pkt = s.pkt := (rfl)
@[simp] theorem modSession_keys (i : ℕ) (f : Session → Session) (s : State) : (modSession i f s).keys = s.keys := (rfl)
@[simp] theorem modSession_audio (i : ℕ) (f : Session → Session) (s : State) : (modSession i f s).audio = s.audio := (rfl)
@[simp] theorem modSession_dsp (i : ℕ) (f : Session → Session) (s : State) : (modSession i f s).dsp = s.dsp := (rfl)
@[simp] theorem modSession_asp (i : ℕ) (f : Session → Session) (s : State) : (modSession i f s).asp = s.asp := (rfl)
@[simp] theorem modSession_video (i : ℕ) (f : Session → Session) (s : State) : (modSession i f s).video = s.video := (rfl)
@[simp] theorem modSession_wlan (i : ℕ) (f : Session → Session) (s : State) : (modSession i f s).wlan = s.wlan := (rfl)
@[simp] theorem modSession_radio (i : ℕ) (f : Session → Session) (s : State) : (modSession i f s).radio = s.radio := (rfl)
@[simp] theorem modSession_time (i : ℕ) (f : Session → Session) (s : State) : (modSession i f s).time = s.time := (rfl)
@[simp] theorem modSession_health (i : ℕ) (f : Session → Session) (s : State) : (modSession i f s).health = s.health := (rfl)
@[simp] theorem modSession_power (i : ℕ) (f : Session → Session) (s : State) : (modSession i f s).power = s.power := (rfl)
@[simp] theorem modSta_pending (i : ℕ) (f : Sta → Sta) (s : State) : (modSta i f s).pending = s.pending := (rfl)
@[simp] theorem modSta_free (i : ℕ) (f : Sta → Sta) (s : State) : (modSta i f s).free = s.free := (rfl)
@[simp] theorem modSta_out (i : ℕ) (f : Sta → Sta) (s : State) : (modSta i f s).out = s.out := (rfl)
@[simp] theorem modSta_clock (i : ℕ) (f : Sta → Sta) (s : State) : (modSta i f s).clock = s.clock := (rfl)
@[simp] theorem modSta_regs (i : ℕ) (f : Sta → Sta) (s : State) : (modSta i f s).regs = s.regs := (rfl)
@[simp] theorem modSta_latches (i : ℕ) (f : Sta → Sta) (s : State) : (modSta i f s).latches = s.latches := (rfl)
@[simp] theorem modSta_host (i : ℕ) (f : Sta → Sta) (s : State) : (modSta i f s).host = s.host := (rfl)
@[simp] theorem modSta_boot (i : ℕ) (f : Sta → Sta) (s : State) : (modSta i f s).boot = s.boot := (rfl)
@[simp] theorem modSta_flash (i : ℕ) (f : Sta → Sta) (s : State) : (modSta i f s).flash = s.flash := (rfl)
@[simp] theorem modSta_fab (i : ℕ) (f : Sta → Sta) (s : State) : (modSta i f s).fab = s.fab := (rfl)
@[simp] theorem modSta_legs (i : ℕ) (f : Sta → Sta) (s : State) : (modSta i f s).legs = s.legs := (rfl)
@[simp] theorem modSta_confs (i : ℕ) (f : Sta → Sta) (s : State) : (modSta i f s).confs = s.confs := (rfl)
@[simp] theorem modSta_flues (i : ℕ) (f : Sta → Sta) (s : State) : (modSta i f s).flues = s.flues := (rfl)
@[simp] theorem modSta_sram (i : ℕ) (f : Sta → Sta) (s : State) : (modSta i f s).sram = s.sram := (rfl)
@[simp] theorem modSta_dram (i : ℕ) (f : Sta → Sta) (s : State) : (modSta i f s).dram = s.dram := (rfl)
@[simp] theorem modSta_pkt (i : ℕ) (f : Sta → Sta) (s : State) : (modSta i f s).pkt = s.pkt := (rfl)
@[simp] theorem modSta_keys (i : ℕ) (f : Sta → Sta) (s : State) : (modSta i f s).keys = s.keys := (rfl)
@[simp] theorem modSta_audio (i : ℕ) (f : Sta → Sta) (s : State) : (modSta i f s).audio = s.audio := (rfl)
@[simp] theorem modSta_dsp (i : ℕ) (f : Sta → Sta) (s : State) : (modSta i f s).dsp = s.dsp := (rfl)
@[simp] theorem modSta_asp (i : ℕ) (f : Sta → Sta) (s : State) : (modSta i f s).asp = s.asp := (rfl)
@[simp] theorem modSta_video (i : ℕ) (f : Sta → Sta) (s : State) : (modSta i f s).video = s.video := (rfl)
@[simp] theorem modSta_radio (i : ℕ) (f : Sta → Sta) (s : State) : (modSta i f s).radio = s.radio := (rfl)
@[simp] theorem modSta_time (i : ℕ) (f : Sta → Sta) (s : State) : (modSta i f s).time = s.time := (rfl)
@[simp] theorem modSta_cap (i : ℕ) (f : Sta → Sta) (s : State) : (modSta i f s).cap = s.cap := (rfl)
@[simp] theorem modSta_health (i : ℕ) (f : Sta → Sta) (s : State) : (modSta i f s).health = s.health := (rfl)
@[simp] theorem modSta_power (i : ℕ) (f : Sta → Sta) (s : State) : (modSta i f s).power = s.power := (rfl)
@[simp] theorem modStream_pending (k : ℕ) (f : VStream → VStream) (s : State) : (modStream k f s).pending = s.pending := (rfl)
@[simp] theorem modStream_free (k : ℕ) (f : VStream → VStream) (s : State) : (modStream k f s).free = s.free := (rfl)
@[simp] theorem modStream_out (k : ℕ) (f : VStream → VStream) (s : State) : (modStream k f s).out = s.out := (rfl)
@[simp] theorem modStream_clock (k : ℕ) (f : VStream → VStream) (s : State) : (modStream k f s).clock = s.clock := (rfl)
@[simp] theorem modStream_regs (k : ℕ) (f : VStream → VStream) (s : State) : (modStream k f s).regs = s.regs := (rfl)
@[simp] theorem modStream_latches (k : ℕ) (f : VStream → VStream) (s : State) : (modStream k f s).latches = s.latches := (rfl)
@[simp] theorem modStream_host (k : ℕ) (f : VStream → VStream) (s : State) : (modStream k f s).host = s.host := (rfl)
@[simp] theorem modStream_boot (k : ℕ) (f : VStream → VStream) (s : State) : (modStream k f s).boot = s.boot := (rfl)
@[simp] theorem modStream_flash (k : ℕ) (f : VStream → VStream) (s : State) : (modStream k f s).flash = s.flash := (rfl)
@[simp] theorem modStream_fab (k : ℕ) (f : VStream → VStream) (s : State) : (modStream k f s).fab = s.fab := (rfl)
@[simp] theorem modStream_legs (k : ℕ) (f : VStream → VStream) (s : State) : (modStream k f s).legs = s.legs := (rfl)
@[simp] theorem modStream_confs (k : ℕ) (f : VStream → VStream) (s : State) : (modStream k f s).confs = s.confs := (rfl)
@[simp] theorem modStream_flues (k : ℕ) (f : VStream → VStream) (s : State) : (modStream k f s).flues = s.flues := (rfl)
@[simp] theorem modStream_sram (k : ℕ) (f : VStream → VStream) (s : State) : (modStream k f s).sram = s.sram := (rfl)
@[simp] theorem modStream_dram (k : ℕ) (f : VStream → VStream) (s : State) : (modStream k f s).dram = s.dram := (rfl)
@[simp] theorem modStream_pkt (k : ℕ) (f : VStream → VStream) (s : State) : (modStream k f s).pkt = s.pkt := (rfl)
@[simp] theorem modStream_keys (k : ℕ) (f : VStream → VStream) (s : State) : (modStream k f s).keys = s.keys := (rfl)
@[simp] theorem modStream_audio (k : ℕ) (f : VStream → VStream) (s : State) : (modStream k f s).audio = s.audio := (rfl)
@[simp] theorem modStream_dsp (k : ℕ) (f : VStream → VStream) (s : State) : (modStream k f s).dsp = s.dsp := (rfl)
@[simp] theorem modStream_asp (k : ℕ) (f : VStream → VStream) (s : State) : (modStream k f s).asp = s.asp := (rfl)
@[simp] theorem modStream_wlan (k : ℕ) (f : VStream → VStream) (s : State) : (modStream k f s).wlan = s.wlan := (rfl)
@[simp] theorem modStream_radio (k : ℕ) (f : VStream → VStream) (s : State) : (modStream k f s).radio = s.radio := (rfl)
@[simp] theorem modStream_time (k : ℕ) (f : VStream → VStream) (s : State) : (modStream k f s).time = s.time := (rfl)
@[simp] theorem modStream_cap (k : ℕ) (f : VStream → VStream) (s : State) : (modStream k f s).cap = s.cap := (rfl)
@[simp] theorem modStream_health (k : ℕ) (f : VStream → VStream) (s : State) : (modStream k f s).health = s.health := (rfl)
@[simp] theorem modStream_power (k : ℕ) (f : VStream → VStream) (s : State) : (modStream k f s).power = s.power := (rfl)
@[simp] theorem modTask_pending (t : ℕ) (f : Task → Task) (s : State) : (modTask t f s).pending = s.pending := (rfl)
@[simp] theorem modTask_free (t : ℕ) (f : Task → Task) (s : State) : (modTask t f s).free = s.free := (rfl)
@[simp] theorem modTask_out (t : ℕ) (f : Task → Task) (s : State) : (modTask t f s).out = s.out := (rfl)
@[simp] theorem modTask_clock (t : ℕ) (f : Task → Task) (s : State) : (modTask t f s).clock = s.clock := (rfl)
@[simp] theorem modTask_regs (t : ℕ) (f : Task → Task) (s : State) : (modTask t f s).regs = s.regs := (rfl)
@[simp] theorem modTask_latches (t : ℕ) (f : Task → Task) (s : State) : (modTask t f s).latches = s.latches := (rfl)
@[simp] theorem modTask_host (t : ℕ) (f : Task → Task) (s : State) : (modTask t f s).host = s.host := (rfl)
@[simp] theorem modTask_boot (t : ℕ) (f : Task → Task) (s : State) : (modTask t f s).boot = s.boot := (rfl)
@[simp] theorem modTask_flash (t : ℕ) (f : Task → Task) (s : State) : (modTask t f s).flash = s.flash := (rfl)
@[simp] theorem modTask_fab (t : ℕ) (f : Task → Task) (s : State) : (modTask t f s).fab = s.fab := (rfl)
@[simp] theorem modTask_legs (t : ℕ) (f : Task → Task) (s : State) : (modTask t f s).legs = s.legs := (rfl)
@[simp] theorem modTask_confs (t : ℕ) (f : Task → Task) (s : State) : (modTask t f s).confs = s.confs := (rfl)
@[simp] theorem modTask_flues (t : ℕ) (f : Task → Task) (s : State) : (modTask t f s).flues = s.flues := (rfl)
@[simp] theorem modTask_sram (t : ℕ) (f : Task → Task) (s : State) : (modTask t f s).sram = s.sram := (rfl)
@[simp] theorem modTask_dram (t : ℕ) (f : Task → Task) (s : State) : (modTask t f s).dram = s.dram := (rfl)
@[simp] theorem modTask_pkt (t : ℕ) (f : Task → Task) (s : State) : (modTask t f s).pkt = s.pkt := (rfl)
@[simp] theorem modTask_keys (t : ℕ) (f : Task → Task) (s : State) : (modTask t f s).keys = s.keys := (rfl)
@[simp] theorem modTask_audio (t : ℕ) (f : Task → Task) (s : State) : (modTask t f s).audio = s.audio := (rfl)
@[simp] theorem modTask_asp (t : ℕ) (f : Task → Task) (s : State) : (modTask t f s).asp = s.asp := (rfl)
@[simp] theorem modTask_video (t : ℕ) (f : Task → Task) (s : State) : (modTask t f s).video = s.video := (rfl)
@[simp] theorem modTask_wlan (t : ℕ) (f : Task → Task) (s : State) : (modTask t f s).wlan = s.wlan := (rfl)
@[simp] theorem modTask_radio (t : ℕ) (f : Task → Task) (s : State) : (modTask t f s).radio = s.radio := (rfl)
@[simp] theorem modTask_time (t : ℕ) (f : Task → Task) (s : State) : (modTask t f s).time = s.time := (rfl)
@[simp] theorem modTask_cap (t : ℕ) (f : Task → Task) (s : State) : (modTask t f s).cap = s.cap := (rfl)
@[simp] theorem modTask_health (t : ℕ) (f : Task → Task) (s : State) : (modTask t f s).health = s.health := (rfl)
@[simp] theorem modTask_power (t : ℕ) (f : Task → Task) (s : State) : (modTask t f s).power = s.power := (rfl)

end Sys2Proof.Machine
end

