-- ==== Sys2Proof/Laws/Desk.lean ====
section
/-! SUPPORT. Laws/Desk.lean: raising an event and handing over a reply leave ports, leases, outstanding commands and waiting
aborts as they are (State.desk). -/

set_option linter.all false

namespace Sys2Proof.Machine

theorem tick_desk (n : Nat) (s : State) : (tick n s).desk = s.desk := (rfl)
theorem takeFree_desk (s : State) : (takeFree s).2.desk = s.desk := (rfl)
theorem emit_desk (o : Output) (s : State) : (emit o s).desk = s.desk := (rfl)
theorem setRg_desk (k v : Nat) (s : State) : (setRg k v s).desk = s.desk := (rfl)
theorem bumpBy_desk (k n : Nat) (s : State) : (bumpBy k n s).desk = s.desk := (rfl)
theorem bump_desk (k : Nat) (s : State) : (bump k s).desk = s.desk := (rfl)
theorem modRing_desk (rs : Nat) (f : RingSet → RingSet) (s : State) : (modRing rs f s).desk = s.desk := (rfl)
theorem mpWrite_desk (o : Nat) (b : List Byte) (s : State) : (mpWrite o b s).desk = s.desk := (rfl)

theorem foldl_desk {α : Type} (g : State → α → State) (l : List α) (s : State)
    (h : ∀ s a, (g s a).desk = s.desk) : (l.foldl g s).desk = s.desk := by
  induction l generalizing s with
  | nil => rfl
  | cons a l ih => rw [List.foldl_cons, ih, h]

theorem fireVector_desk (rs v : Nat) (s : State) : (fireVector rs v s).desk = s.desk := by
  unfold fireVector
  extract_lets m r s1
  have h1 : s1.desk = s.desk := by
    unfold s1
    split
    · exact modRing_desk ..
    · rfl
  clear_value s1
  split
  · exact modRing_desk ..
  · split
    · exact h1
    · exact h1

theorem writeShadow_desk (rs : Nat) (s : State) : (writeShadow rs s).desk = s.desk := by
  unfold writeShadow
  extract_lets r lost s1
  have h1 : s1.desk = s.desk := modRing_desk ..
  clear_value s1
  split
  · exact (mpWrite_desk ..).trans h1
  · exact h1

theorem raiseCause_desk (rs v : Nat) (s : State) : (raiseCause rs v s).desk = s.desk := by
  unfold raiseCause
  extract_lets s1 key st s2
  have h1 : s1.desk = s.desk := writeShadow_desk ..
  have h2 : s2.desk = s.desk := h1
  clear_value s1 s2
  split
  · exact h1
  · split
    · exact h2
    · exact (fireVector_desk ..).trans h2

theorem putEvent_desk (rs : Nat) (e : Event) (s : State) : (putEvent rs e s).desk = s.desk := by
  unfold putEvent
  extract_lets r s1
  have h1 : s1.desk = s.desk := by
    unfold s1
    split
    · rfl
    · rfl
  clear_value s1
  exact (raiseCause_desk ..).trans h1

theorem loseEvent_desk (rs : Nat) (s : State) : (loseEvent rs s).desk = s.desk := (rfl)

theorem flushLost_desk (rs : Nat) (s : State) : (flushLost rs s).desk = s.desk := by
  unfold flushLost
  extract_lets r
  split
  · rfl
  · exact (putEvent_desk ..).trans (modRing_desk ..)

theorem sendEvent_desk (rs : Nat) (e : Event) (s : State) : (sendEvent rs e s).desk = s.desk := by
  unfold sendEvent
  split
  · rfl
  · extract_lets s1
    have h1 : s1.desk = s.desk := flushLost_desk ..
    clear_value s1
    split
    · exact (loseEvent_desk ..).trans h1
    · exact (putEvent_desk ..).trans h1

theorem sendAll_desk (e : Event) (l : List Nat) (s : State) : (sendAll e l s).desk = s.desk := by
  induction l generalizing s with
  | nil => rfl
  | cons a l ih =>
    unfold sendAll
    rw [ih]
    split
    · exact sendEvent_desk ..
    · rfl

/-- Raising an event changes nothing but the ring sets, the boot log and the registers. -/
theorem raise_desk (k : EvKind) (h : Word) (d : List Byte) (s : State) : (raise k h d s).desk = s.desk := by
  have hm : (markFatal k s).desk = s.desk := by
    unfold markFatal
    split
    · rfl
    · rfl
  unfold raise
  extract_lets e s1
  have h1 : s1.desk = s.desk := hm
  clear_value s1
  split
  · exact (sendAll_desk ..).trans h1
  · unfold logBoot
    split
    · exact h1
    · exact h1

theorem raiseUnless_desk (m n : Nat) (k : EvKind) (h : Word) (d : List Byte) (s : State) :
    (raiseUnless m n k h d s).desk = s.desk := by
  unfold raiseUnless
  split
  · rfl
  · exact raise_desk ..

theorem raiseTo_desk (p : Nat) (k : EvKind) (h : Word) (d : List Byte) (s : State) : (raiseTo p k h d s).desk = s.desk :=
  sendEvent_desk ..

theorem putPacket_desk (rs n : Nat) (p : Reply) (s : State) : (putPacket rs n p s).desk = s.desk := by
  unfold putPacket
  extract_lets r s1
  have h1 : s1.desk = s.desk := by
    unfold s1
    split
    · rfl
    · rfl
  clear_value s1
  exact h1

theorem putReply_desk (rs : Nat) (p : Reply) (s : State) : (putReply rs p s).desk = s.desk := by
  unfold putReply
  extract_lets n r s1
  have h1 : s1.desk = s.desk := by
    unfold s1
    split
    · rfl
    · exact putPacket_desk ..
  clear_value s1
  exact (raiseCause_desk ..).trans ((putPacket_desk ..).trans h1)

theorem drainWaiting_desk (rs n : Nat) (s : State) : (drainWaiting rs n s).desk = s.desk := by
  induction n generalizing s with
  | zero => rfl
  | succ n ih =>
    unfold drainWaiting
    split
    · rfl
    · split
      · rw [ih, putReply_desk, modRing_desk]
      · rfl

/-- Handing over a reply changes nothing but the ring sets, the boot log and the registers. -/
theorem sendReply_desk (rs : Nat) (p : Reply) (s : State) : (sendReply rs p s).desk = s.desk := by
  unfold sendReply
  split
  · exact (drainWaiting_desk ..).trans (modRing_desk ..)
  · exact bump_desk ..

theorem setDoze_desk (d : Nat) (on : Bool) (s : State) : (setDoze d on s).desk = s.desk :=
  (raiseUnless_desk ..).trans rfl

theorem settleDomains_desk (s : State) : (settleDomains s).desk = s.desk := by
  refine foldl_desk _ _ _ (fun s d => ?_)
  dsimp only
  split
  · rfl
  · exact setDoze_desk ..

end Sys2Proof.Machine
end

