-- ==== Sys2Proof/Laws/FuseFrame1.lean ====
section
/-! SUPPORT. Laws/FuseFrame1.lean: what the operations of Machine/ leave in the fuse store: one lemma an
operation, part 1. Only the operations of Machine/Firmware.lean and what plans them from outside write fuses. -/

set_option linter.all false

namespace Sys2Proof.Machine

theorem foldl_fuses {α : Type} (g : State → α → State) (l : List α) (s : State)
    (h : ∀ s a, (g s a).fuses = s.fuses) : (l.foldl g s).fuses = s.fuses := by
  induction l generalizing s with
  | nil => rfl
  | cons a l ih => rw [List.foldl_cons, ih, h]
theorem Done_st_reply (s : State) (a b c : Nat) (r : List Byte) : (Done.reply s a b c r).st = s := rfl
theorem Done_st_defer (s : State) : (Done.defer s).st = s := rfl
theorem Done_st_ok (s : State) : (Done.ok s).st = s := rfl
theorem Done_st_okWith (s : State) (r : List Byte) : (Done.okWith s r).st = s := rfl
theorem foldl_snd_fuses {α β : Type} (g : β × State → α → β × State) (l : List α) (a : β × State)
    (h : ∀ a x, (g a x).2.fuses = a.2.fuses) : (l.foldl g a).2.fuses = a.2.fuses := by
  induction l generalizing a with
  | nil => rfl
  | cons x l ih => rw [List.foldl_cons, ih, h]

theorem tick_fuses (x0 : ℕ) (x1 : State) : (tick x0 x1).fuses = x1.fuses := (rfl)
theorem tickTo_fuses (x0 : ℕ) (x1 : State) : (tickTo x0 x1).fuses = x1.fuses := (rfl)
theorem tickToNs_fuses (x0 : ℕ) (x1 : State) : (tickToNs x0 x1).fuses = x1.fuses := by unfold tickToNs; simp only [↓tick_fuses]
theorem takeFree_fuses (x0 : State) : (takeFree x0).2.fuses = x0.fuses := (rfl)
theorem takeFree_fuses' {x0 : State} {r : State} {v : ℕ} (h : takeFree x0 = (v, r)) : r.fuses = x0.fuses := by
  have := takeFree_fuses x0; rw [h] at this; exact this
theorem emit_fuses (x0 : Output) (x1 : State) : (emit x0 x1).fuses = x1.fuses := (rfl)
theorem setRg_fuses (x0 : ℕ) (x1 : ℕ) (x2 : State) : (setRg x0 x1 x2).fuses = x2.fuses := (rfl)
theorem bumpBy_fuses (x0 : ℕ) (x1 : ℕ) (x2 : State) : (bumpBy x0 x1 x2).fuses = x2.fuses := (rfl)
theorem bump_fuses (x0 : ℕ) (x1 : State) : (bump x0 x1).fuses = x1.fuses := (rfl)
theorem bump32_fuses (x0 : ℕ) (x1 : State) : (bump32 x0 x1).fuses = x1.fuses := (rfl)
theorem trackMax_fuses (x0 : ℕ) (x1 : ℕ) (x2 : State) : (trackMax x0 x1 x2).fuses = x2.fuses := (rfl)
theorem trackMin_fuses (x0 : ℕ) (x1 : ℕ) (x2 : State) : (trackMin x0 x1 x2).fuses = x2.fuses := (rfl)
theorem modRing_fuses (x0 : ℕ) (x1 : RingSet → RingSet) (x2 : State) : (modRing x0 x1 x2).fuses = x2.fuses := (rfl)
theorem modPort_fuses (x0 : ℕ) (x1 : Port → Port) (x2 : State) : (modPort x0 x1 x2).fuses = x2.fuses := (rfl)
theorem mpWrite_fuses (x0 : ℕ) (x1 : List Byte) (x2 : State) : (mpWrite x0 x1 x2).fuses = x2.fuses := (rfl)
theorem fireVector_fuses (x0 : ℕ) (x1 : ℕ) (x2 : State) : (fireVector x0 x1 x2).fuses = x2.fuses := by
  unfold fireVector
  repeat' first | with_reducible rfl | simp only [↓modRing_fuses, ↓emit_fuses] | split
theorem writeShadow_fuses (x0 : ℕ) (x1 : State) : (writeShadow x0 x1).fuses = x1.fuses := by unfold writeShadow; split <;> simp only [↓modRing_fuses, ↓mpWrite_fuses]
theorem raiseCause_fuses (x0 : ℕ) (x1 : ℕ) (x2 : State) : (raiseCause x0 x1 x2).fuses = x2.fuses := by
  unfold raiseCause
  repeat' first | with_reducible rfl | simp only [↓writeShadow_fuses, ↓setRg_fuses, ↓fireVector_fuses] | split
theorem putEvent_fuses (x0 : ℕ) (x1 : Event) (x2 : State) : (putEvent x0 x1 x2).fuses = x2.fuses := by unfold putEvent; split <;> simp only [↓mpWrite_fuses, ↓raiseCause_fuses, ↓modRing_fuses]
theorem loseEvent_fuses (x0 : ℕ) (x1 : State) : (loseEvent x0 x1).fuses = x1.fuses := (rfl)
theorem flushLost_fuses (x0 : ℕ) (x1 : State) : (flushLost x0 x1).fuses = x1.fuses := by
  unfold flushLost
  repeat' first | with_reducible rfl | simp only [↓putEvent_fuses, ↓modRing_fuses] | split
theorem sendEvent_fuses (x0 : ℕ) (x1 : Event) (x2 : State) : (sendEvent x0 x1 x2).fuses = x2.fuses := by
  unfold sendEvent
  repeat' first | with_reducible rfl | simp only [↓flushLost_fuses, ↓loseEvent_fuses, ↓putEvent_fuses] | split
theorem sendAll_fuses (e : Event) (l : List Nat) (s : State) : (sendAll e l s).fuses = s.fuses := by
  induction l generalizing s with
  | nil => rfl
  | cons a l ih =>
    unfold sendAll
    rw [ih]
    split
    · exact sendEvent_fuses ..
    · rfl
theorem logBoot_fuses (x0 : Event) (x1 : State) : (logBoot x0 x1).fuses = x1.fuses := by unfold logBoot; split <;> simp only []
theorem markFatal_fuses (x0 : EvKind) (x1 : State) : (markFatal x0 x1).fuses = x1.fuses := by unfold markFatal; split <;> simp only []
theorem raise_fuses (x0 : EvKind) (x1 : Word) (x2 : List Byte) (x3 : State) : (raise x0 x1 x2 x3).fuses = x3.fuses := by
  unfold raise
  repeat' first | with_reducible rfl | simp only [↓markFatal_fuses, ↓sendAll_fuses, ↓logBoot_fuses] | split
theorem raiseUnless_fuses (x0 : ℕ) (x1 : ℕ) (x2 : EvKind) (x3 : Word) (x4 : List Byte) (x5 : State) : (raiseUnless x0 x1 x2 x3 x4 x5).fuses = x5.fuses := by unfold raiseUnless; split <;> simp only [↓raise_fuses]
theorem raiseTo_fuses (x0 : ℕ) (x1 : EvKind) (x2 : Word) (x3 : List Byte) (x4 : State) : (raiseTo x0 x1 x2 x3 x4).fuses = x4.fuses := by unfold raiseTo; simp only [↓sendEvent_fuses]
theorem putPacket_fuses (x0 : ℕ) (x1 : ℕ) (x2 : Reply) (x3 : State) : (putPacket x0 x1 x2 x3).fuses = x3.fuses := by unfold putPacket; split <;> simp only [↓mpWrite_fuses, ↓modRing_fuses]
theorem putReply_fuses (x0 : ℕ) (x1 : Reply) (x2 : State) : (putReply x0 x1 x2).fuses = x2.fuses := by
  unfold putReply
  repeat' first | with_reducible rfl | simp only [↓putPacket_fuses, ↓raiseCause_fuses] | split
theorem drainWaiting_fuses (rs n : Nat) (s : State) : (drainWaiting rs n s).fuses = s.fuses := by
  induction n generalizing s with
  | zero => rfl
  | succ n ih =>
    unfold drainWaiting
    split
    · rfl
    · split
      · rw [ih, putReply_fuses, modRing_fuses]
      · rfl
theorem sendReply_fuses (x0 : ℕ) (x1 : Reply) (x2 : State) : (sendReply x0 x1 x2).fuses = x2.fuses := by unfold sendReply; split <;> simp only [↓drainWaiting_fuses, ↓modRing_fuses, ↓bump_fuses]
theorem Plan_query_fuses (op : Nat) (safe ok : Bool) (len : Nat) (param : Option Err) (f : State → Nat × Nat × List Byte) (t : State) :
    ((Plan.query op safe ok len param f).run t).st.fuses = t.fuses := rfl
theorem leaveLeases_fuses (x0 : Word) (x1 : State) : (leaveLeases x0 x1).fuses = x1.fuses := by
  unfold leaveLeases
  repeat' first | with_reducible rfl | simp only [↓raiseTo_fuses] | split |
    with_reducible refine (foldl_fuses _ _ _ (fun _ _ => ?_)).trans ?_
theorem addEntry_fuses (x0 : ℕ) (x1 : Cmd) (x2 : State) : (addEntry x0 x1 x2).fuses = x2.fuses := (rfl)
theorem modEntry_fuses (x0 : ℕ) (x1 : OutCmd → OutCmd) (x2 : State) : (modEntry x0 x1 x2).fuses = x2.fuses := (rfl)
theorem setDoze_fuses (x0 : ℕ) (x1 : Bool) (x2 : State) : (setDoze x0 x1 x2).fuses = x2.fuses := by unfold setDoze; simp only [↓raiseUnless_fuses]
theorem settleDomains_fuses (x0 : State) : (settleDomains x0).fuses = x0.fuses := by
  unfold settleDomains
  repeat' first | with_reducible rfl | simp only [↓setDoze_fuses] | split |
    with_reducible refine (foldl_fuses _ _ _ (fun _ _ => ?_)).trans ?_
theorem finishOne_fuses (x0 : OutCmd) (x1 : ℕ) (x2 : ℕ) (x3 : ℕ) (x4 : List Byte) (x5 : State) : (finishOne x0 x1 x2 x3 x4 x5).fuses = x5.fuses := by
  unfold finishOne
  repeat' first | with_reducible rfl | simp only [↓settleDomains_fuses, ↓bump_fuses, ↓modRing_fuses, ↓sendReply_fuses] | split
theorem finishChain_fuses (n : Nat) (e : OutCmd) (st d p : Nat) (r : List Byte) (s : State) :
    (finishChain n e st d p r s).fuses = s.fuses := by
  induction n generalizing e st d p r s with
  | zero => exact finishOne_fuses ..
  | succ n ih =>
    unfold finishChain
    refine (foldl_fuses _ _ _ (fun s a => ?_)).trans (finishOne_fuses ..)
    split
    · exact ih ..
    · rfl
theorem finishEntry_fuses (x0 : OutCmd) (x1 : ℕ) (x2 : ℕ) (x3 : ℕ) (x4 : List Byte) (x5 : State) : (finishEntry x0 x1 x2 x3 x4 x5).fuses = x5.fuses := by unfold finishEntry; simp only [↓finishChain_fuses]
theorem finishRunning_fuses (x0 : ℕ) (x1 : Word) (x2 : ℕ) (x3 : ℕ) (x4 : ℕ) (x5 : List Byte) (x6 : State) : (finishRunning x0 x1 x2 x3 x4 x5 x6).fuses = x6.fuses := by unfold finishRunning; split <;> simp only [↓finishEntry_fuses]
theorem finishAll_fuses (x0 : List (ℕ × Word)) (x1 : ℕ) (x2 : ℕ) (x3 : ℕ) (x4 : State) : (finishAll x0 x1 x2 x3 x4).fuses = x4.fuses := by
  unfold finishAll
  repeat' first | with_reducible rfl | simp only [↓finishRunning_fuses] | split |
    with_reducible refine (foldl_fuses _ _ _ (fun _ _ => ?_)).trans ?_
theorem runPlan_fuses (p : Plan) (e : OutCmd) (s : State) (h : ∀ t, (p.run t).st.fuses = t.fuses) :
    (runPlan p e s).fuses = s.fuses := by
  unfold runPlan
  extract_lets s1
  have h1 : s1.fuses = s.fuses := modEntry_fuses ..
  clear_value s1
  have h2 := h s1
  split
  · rw [finishEntry_fuses, h1]
  · split
    · split <;> rw [finishEntry_fuses, h1]
    · split
      · rename_i heq; rw [heq] at h2; rw [finishEntry_fuses, ← h1]; exact h2
      · rename_i heq; rw [heq] at h2; rw [← h1]; exact h2
theorem comeUp_fuses (p : Plan) (e : OutCmd) (s : State) (h : ∀ t, (p.run t).st.fuses = t.fuses) :
    (comeUp p e s).fuses = s.fuses := by
  unfold comeUp
  extract_lets s1
  have h1 : s1.fuses = s.fuses := tick_fuses ..
  clear_value s1
  rw [← h1]
  by_cases ht : (Cmd.timed e.cmd && !Cmd.dryRun e.cmd) = true
  · rw [if_pos ht]
    cases checkOpcode p e.cmd s1 with
    | some x => exact finishEntry_fuses ..
    | none =>
      cases checkPriv p e.cmd s1 with
      | some x => exact finishEntry_fuses ..
      | none =>
        cases checkComeUp e.cmd s1 with
        | some x => exact finishEntry_fuses ..
        | none => exact modEntry_fuses ..
  · rw [if_neg ht]
    exact runPlan_fuses p e s1 h
theorem hostCmd_fuses (op : Nat) (plan : Cmd → State → Plan) (c : Cmd) (s : State)
    (h : ∀ c s t, ((plan c s).run t).st.fuses = t.fuses) : (hostCmd op plan c s).fuses = s.fuses := by
  unfold hostCmd
  extract_lets s1
  have h1 : s1.fuses = s.fuses := by
    unfold s1
    split
    · exact addEntry_fuses ..
    · rfl
  clear_value s1
  rw [← h1]
  split
  · rfl
  · split
    · rfl
    · exact comeUp_fuses _ _ _ (h _ _)
theorem echoPlan_fuses (x0 : Cmd) (x1 : State) (t : State) : ((echoPlan x0 x1).run t).st.fuses = t.fuses := (rfl)
theorem eventRoutePlan_fuses (x0 : Cmd) (x1 : State) (t : State) : ((eventRoutePlan x0 x1).run t).st.fuses = t.fuses := (rfl)
theorem portPrivPlan_fuses (x0 : Cmd) (x1 : State) (t : State) : ((portPrivPlan x0 x1).run t).st.fuses = t.fuses := by
  unfold portPrivPlan
  repeat' first | with_reducible rfl | simp only [↓Done_st_ok, ↓raise_fuses, ↓modPort_fuses] | split
theorem leaseAcquirePlan_fuses (x0 : Cmd) (x1 : State) (t : State) : ((leaseAcquirePlan x0 x1).run t).st.fuses = t.fuses := by
  unfold leaseAcquirePlan
  repeat' first | with_reducible rfl | simp only [↓Done_st_okWith, ↓takeFree_fuses] | split
theorem leaseRenewPlan_fuses (x0 : Cmd) (x1 : State) (t : State) : ((leaseRenewPlan x0 x1).run t).st.fuses = t.fuses := (rfl)
theorem leaseReleasePlan_fuses (x0 : Cmd) (x1 : State) (t : State) : ((leaseReleasePlan x0 x1).run t).st.fuses = t.fuses := by
  unfold leaseReleasePlan
  repeat' first | with_reducible rfl | simp only [↓Done_st_ok] | split
theorem leaseBreakPlan_fuses (x0 : Cmd) (x1 : State) (t : State) : ((leaseBreakPlan x0 x1).run t).st.fuses = t.fuses := by
  unfold leaseBreakPlan
  repeat' first | with_reducible rfl | simp only [↓Done_st_ok, ↓raiseTo_fuses] | split
theorem leaseExpired_fuses (x0 : ℕ) (x1 : State) : (leaseExpired x0 x1).fuses = x1.fuses := by unfold leaseExpired; split <;> simp only [↓tickTo_fuses, ↓raiseTo_fuses]
theorem queryProgressPlan_fuses (x0 : Cmd) (x1 : State) (t : State) : ((queryProgressPlan x0 x1).run t).st.fuses = t.fuses := (rfl)
theorem markUnreachable_fuses (x0 : State) : (markUnreachable x0).fuses = x0.fuses := by
  unfold markUnreachable
  repeat' first | with_reducible rfl | simp only [↓raise_fuses] | split |
    with_reducible refine (foldl_fuses _ _ _ (fun _ _ => ?_)).trans ?_
theorem startDetour_fuses (x0 : State) : (startDetour x0).fuses = x0.fuses := by unfold startDetour; split <;> simp only []
theorem fabLinkFault_fuses (x0 : ℕ) (x1 : ℕ) (x2 : ℕ) (x3 : ℕ) (x4 : State) : (fabLinkFault x0 x1 x2 x3 x4).fuses = x4.fuses := by
  unfold fabLinkFault
  repeat' first | with_reducible rfl | simp only [↓bumpBy_fuses, ↓bump_fuses, ↓raise_fuses, ↓markUnreachable_fuses, ↓startDetour_fuses] | split
theorem fabJunctionFault_fuses (x0 : ℕ) (x1 : State) : (fabJunctionFault x0 x1).fuses = x1.fuses := by unfold fabJunctionFault; split <;> simp only [↓raise_fuses, ↓markUnreachable_fuses, ↓startDetour_fuses]
theorem fabRerouteDone_fuses (x0 : ℕ) (x1 : ℕ) (x2 : State) : (fabRerouteDone x0 x1 x2).fuses = x2.fuses := by unfold fabRerouteDone; split <;> simp only [↓tickTo_fuses, ↓raiseUnless_fuses, ↓bumpBy_fuses]
theorem assertDamper_fuses (x0 : ℕ) (x1 : ℕ) (x2 : State) : (assertDamper x0 x1 x2).fuses = x2.fuses := (rfl)
theorem releaseDamper_fuses (x0 : ℕ) (x1 : ℕ) (x2 : State) : (releaseDamper x0 x1 x2).fuses = x2.fuses := by
  unfold releaseDamper
  repeat' first | with_reducible rfl | simp only [↓bumpBy_fuses] | split
theorem fabDamperLong_fuses (x0 : ℕ) (x1 : ℕ) (x2 : State) : (fabDamperLong x0 x1 x2).fuses = x2.fuses := by
  unfold fabDamperLong
  repeat' first | with_reducible rfl | simp only [↓tickTo_fuses, ↓raiseUnless_fuses] | split
theorem placeRelease_fuses (x0 : ℕ) (x1 : RelEntry) (x2 : State) : (placeRelease x0 x1 x2).fuses = x2.fuses := (rfl)
theorem flushRelease_fuses (x0 : ℕ) (x1 : State) : (flushRelease x0 x1).fuses = x1.fuses := (rfl)
theorem deadlineMiss_fuses (x0 : ℕ) (x1 : ℕ) (x2 : ℕ) (x3 : ℕ) (x4 : ℕ) (x5 : State) : (deadlineMiss x0 x1 x2 x3 x4 x5).fuses = x5.fuses := by
  unfold deadlineMiss
  repeat' first | with_reducible rfl | simp only [↓bump_fuses, ↓setRg_fuses, ↓raiseUnless_fuses] | split
theorem rewriteDir_fuses (x0 : DirCopy → DirCopy) (x1 : State) : (rewriteDir x0 x1).fuses = x1.fuses := by unfold rewriteDir; split <;> simp only []
theorem putImage_fuses (x0 : ℕ) (x1 : Image) (x2 : State) : (putImage x0 x1 x2).fuses = x2.fuses := by unfold putImage; split <;> simp only []
theorem rejectImage_fuses (x0 : ℕ) (x1 : State) : (rejectImage x0 x1).fuses = x1.fuses := (rfl)
theorem spareRow_fuses (x0 : ℕ) (x1 : ℕ) (x2 : State) : (spareRow x0 x1 x2).fuses = x2.fuses := by
  unfold spareRow
  repeat' first | with_reducible rfl | simp only [↓raiseUnless_fuses, ↓bump_fuses, ↓raise_fuses] | split
theorem correctRow_fuses (x0 : ℕ) (x1 : ℕ) (x2 : ℕ) (x3 : State) : (correctRow x0 x1 x2 x3).fuses = x3.fuses := by
  unfold correctRow
  repeat' first | with_reducible rfl | simp only [↓setRg_fuses, ↓bumpBy_fuses, ↓spareRow_fuses] | split
theorem poisonWord_fuses (x0 : ℕ) (x1 : ℕ) (x2 : State) : (poisonWord x0 x1 x2).fuses = x2.fuses := by unfold poisonWord; simp only [↓setRg_fuses, ↓bump_fuses, ↓raise_fuses, ↓spareRow_fuses]
theorem putFlue_fuses (x0 : ℕ) (x1 : Flue) (x2 : State) : (putFlue x0 x1 x2).fuses = x2.fuses := (rfl)
theorem unstage_fuses (x0 : ℕ) (x1 : Flue) (x2 : State) : (unstage x0 x1 x2).fuses = x2.fuses := by unfold unstage; split <;> simp only [↓putFlue_fuses, ↓releaseDamper_fuses]
theorem settleDamper_fuses (x0 : ℕ) (x1 : Flue) (x2 : State) : (settleDamper x0 x1 x2).fuses = x2.fuses := by
  unfold settleDamper
  repeat' first | with_reducible rfl | simp only [↓putFlue_fuses, ↓unstage_fuses] | split
theorem storeFlue_fuses (x0 : ℕ) (x1 : Flue) (x2 : State) : (storeFlue x0 x1 x2).fuses = x2.fuses := by unfold storeFlue; simp only [↓settleDamper_fuses, ↓trackMax_fuses]
theorem corruptReset_fuses (x0 : ℕ) (x1 : Flue) (x2 : List ℕ) (x3 : State) : (corruptReset x0 x1 x2 x3).fuses = x3.fuses := by unfold corruptReset; simp only [↓putFlue_fuses, ↓raiseUnless_fuses, ↓bump_fuses]
theorem flueResetComplete_fuses (x0 : ℕ) (x1 : State) : (flueResetComplete x0 x1).fuses = x1.fuses := by
  unfold flueResetComplete
  repeat' first | with_reducible rfl | simp only [↓unstage_fuses, ↓tickTo_fuses] | split
theorem atBank_fuses (i : Nat) (cb : List Nat) (op : Flue → State → State) (s : State)
    (h : ∀ f s, (op f s).fuses = s.fuses) : (atBank i cb op s).fuses = s.fuses := by
  unfold atBank
  extract_lets s1
  have h1 : s1.fuses = s.fuses := bump_fuses ..
  clear_value s1
  rw [← h1]
  split
  · rfl
  · split
    · exact corruptReset_fuses ..
    · exact h ..
theorem rejectPush_fuses (x0 : State) : (rejectPush x0).fuses = x0.fuses := (rfl)
theorem rejectFull_fuses (x0 : ℕ) (x1 : Flue) (x2 : State) : (rejectFull x0 x1 x2).fuses = x2.fuses := by unfold rejectFull; split <;> simp only [↓rejectPush_fuses, ↓assertDamper_fuses, ↓putFlue_fuses]
theorem countPush_fuses (x0 : ℕ) (x1 : State) : (countPush x0 x1).fuses = x1.fuses := (rfl)
theorem pushFirst_fuses (x0 : ℕ) (x1 : ℕ) (x2 : Item) (x3 : Flue) (x4 : State) : (pushFirst x0 x1 x2 x3 x4).fuses = x4.fuses := by
  unfold pushFirst
  repeat' first | with_reducible rfl | simp only [↓rejectPush_fuses, ↓bump_fuses, ↓rejectFull_fuses, ↓countPush_fuses, ↓storeFlue_fuses] | split
theorem pushNext_fuses (x0 : ℕ) (x1 : ℕ) (x2 : Item) (x3 : Flue) (x4 : State) : (pushNext x0 x1 x2 x3 x4).fuses = x4.fuses := by
  unfold pushNext
  repeat' first | with_reducible rfl | simp only [↓rejectPush_fuses, ↓countPush_fuses, ↓putFlue_fuses, ↓storeFlue_fuses] | split
theorem pushItem_fuses (x0 : ℕ) (x1 : ℕ) (x2 : Item) (x3 : Flue) (x4 : State) : (pushItem x0 x1 x2 x3 x4).fuses = x4.fuses := by
  unfold pushItem
  repeat' first | with_reducible rfl | simp only [↓bump_fuses, ↓rejectPush_fuses, ↓pushFirst_fuses, ↓pushNext_fuses] | split
theorem closePacket_fuses (x0 : ℕ) (x1 : Flue) (x2 : State) : (closePacket x0 x1 x2).fuses = x2.fuses := by
  unfold closePacket
  repeat' first | with_reducible rfl | simp only [↓bump_fuses, ↓putFlue_fuses, ↓takeFree_fuses, ↓storeFlue_fuses] | split
theorem openTimeout_fuses (x0 : ℕ) (x1 : State) : (openTimeout x0 x1).fuses = x1.fuses := by
  unfold openTimeout
  repeat' first | with_reducible rfl | simp only [↓closePacket_fuses, ↓tickTo_fuses] | split
theorem popFlue_fuses (x0 : ℕ) (x1 : Flue) (x2 : State) : (popFlue x0 x1 x2).2.fuses = x2.fuses := by unfold popFlue; split <;> simp only [↓bump_fuses, ↓storeFlue_fuses, ↓putFlue_fuses]
theorem popFlue_fuses' {x0 : ℕ} {x1 : Flue} {x2 : State} {r : State} {v : Item} (h : popFlue x0 x1 x2 = (v, r)) : r.fuses = x2.fuses := by
  have := popFlue_fuses x0 x1 x2; rw [h] at this; exact this
theorem peekFlue_fuses (x0 : ℕ) (x1 : Flue) (x2 : State) : (peekFlue x0 x1 x2).fuses = x2.fuses := by unfold peekFlue; split <;> simp only [↓emit_fuses, ↓bump_fuses]
theorem commitFlue_fuses (x0 : ℕ) (x1 : Flue) (x2 : State) : (commitFlue x0 x1 x2).fuses = x2.fuses := by unfold commitFlue; split <;> simp only [↓storeFlue_fuses]
theorem rewindFlue_fuses (x0 : ℕ) (x1 : Flue) (x2 : State) : (rewindFlue x0 x1 x2).fuses = x2.fuses := by unfold rewindFlue; split <;> simp only [↓putFlue_fuses]
theorem dropRemainder_fuses (x0 : ℕ) (x1 : Flue) (x2 : State) : (dropRemainder x0 x1 x2).fuses = x2.fuses := by unfold dropRemainder; split <;> simp only [↓storeFlue_fuses]
theorem freeFlue_fuses (x0 : ℕ) (x1 : State) : (freeFlue x0 x1).fuses = x1.fuses := by unfold freeFlue; split <;> simp only [↓unstage_fuses, ↓leaveLeases_fuses]
theorem settleDelete_fuses (x0 : ℕ) (x1 : State) : (settleDelete x0 x1).fuses = x1.fuses := by
  unfold settleDelete
  repeat' first | with_reducible rfl | simp only [↓finishRunning_fuses, ↓freeFlue_fuses] | split
theorem flueCreatePlan_fuses (x0 : Cmd) (x1 : State) (t : State) : ((flueCreatePlan x0 x1).run t).st.fuses = t.fuses := (rfl)
theorem flueDeletePlan_fuses (x0 : Cmd) (x1 : State) (t : State) : ((flueDeletePlan x0 x1).run t).st.fuses = t.fuses := by
  unfold flueDeletePlan
  repeat' first | with_reducible rfl | simp only [↓Done_st_defer, ↓Done_st_ok, ↓freeFlue_fuses, ↓putFlue_fuses] | split
theorem flueQueryPlan_fuses (x0 : Cmd) (x1 : State) (t : State) : ((flueQueryPlan x0 x1).run t).st.fuses = t.fuses := (rfl)
theorem modSession_fuses (x0 : ℕ) (x1 : Session → Session) (x2 : State) : (modSession x0 x1 x2).fuses = x2.fuses := (rfl)
theorem ringBytes_fuses (x0 : Session) (x1 : ℕ) (x2 : List Byte) (x3 : State) : (ringBytes x0 x1 x2 x3).fuses = x3.fuses := by
  unfold ringBytes
  repeat' first | with_reducible rfl | simp only [] | split |
    with_reducible refine (foldl_fuses _ _ _ (fun _ _ => ?_)).trans ?_
theorem ringStore_fuses (x0 : Session) (x1 : ℕ) (x2 : State) : (ringStore x0 x1 x2).fuses = x2.fuses := by
  unfold ringStore
  repeat' first | with_reducible rfl | simp only [↓ringBytes_fuses] | split |
    with_reducible refine (foldl_fuses _ _ _ (fun _ _ => ?_)).trans ?_
theorem capLose_fuses (x0 : ℕ) (x1 : ℕ) (x2 : ℕ) (x3 : ℕ) (x4 : State) : (capLose x0 x1 x2 x3 x4).fuses = x4.fuses := by
  unfold capLose
  repeat' first | with_reducible rfl | simp only [↓bumpBy_fuses, ↓modSession_fuses, ↓raiseUnless_fuses] | split
theorem capDone_fuses (x0 : ℕ) (x1 : ℕ) (x2 : State) : (capDone x0 x1 x2).fuses = x2.fuses := by unfold capDone; split <;> simp only [↓raise_fuses, ↓modSession_fuses]
theorem capStarved_fuses (s : State) : (capStarved s).2.fuses = s.fuses := by
  unfold capStarved
  cases s.dram.overcommit with
  | nil => rfl
  | cons a l => exact takeFree_fuses ..
theorem capStarved_fuses' {x0 : State} {r : State} {v : Bool} (h : capStarved x0 = (v, r)) : r.fuses = x0.fuses := by
  have := capStarved_fuses x0; rw [h] at this; exact this
theorem capStored_fuses (x0 : ℕ) (x1 : Rec) (x2 : Session) (x3 : Session) (x4 : ℕ) (x5 : State) : (capStored x0 x1 x2 x3 x4 x5).fuses = x5.fuses := by
  unfold capStored
  repeat' first | with_reducible rfl | simp only [↓bump_fuses, ↓bumpBy_fuses, ↓ringStore_fuses, ↓modSession_fuses, ↓capLose_fuses, ↓capDone_fuses] | split
theorem capStore_fuses (x0 : ℕ) (x1 : Rec) (x2 : State) : (capStore x0 x1 x2).fuses = x2.fuses := by
  unfold capStore
  repeat' first | with_reducible rfl | simp only [↓capStarved_fuses, ↓capLose_fuses, ↓capStored_fuses] | split
theorem capPulse_fuses (x0 : Session) (x1 : ℕ) (x2 : State) : (capPulse x0 x1 x2).fuses = x2.fuses := by unfold capPulse; split <;> simp only []
theorem capTrigger_fuses (x0 : ℕ) (x1 : ℕ) (x2 : ℕ) (x3 : State) : (capTrigger x0 x1 x2 x3).fuses = x3.fuses := by
  unfold capTrigger
  repeat' first | with_reducible rfl | simp only [↓capPulse_fuses, ↓raiseUnless_fuses, ↓ringStore_fuses, ↓modSession_fuses, ↓bump_fuses] | split
theorem decideFilter_fuses (u : TapUnit) (l : List (Nat × CapFilter)) (s : State) :
    (decideFilter u l s).2.fuses = s.fuses := by
  induction l generalizing s with
  | nil => rfl
  | cons a l ih =>
    unfold decideFilter
    split
    · split
      · rfl
      · exact ih ..
    · exact ih ..
theorem decideFilter_fuses' {x0 : TapUnit} {x1 : List (ℕ × CapFilter)} {x2 : State} {r : State} {v : Option (ℕ × CapFilter)} (h : decideFilter x0 x1 x2 = (v, r)) : r.fuses = x2.fuses := by
  have := decideFilter_fuses x0 x1 x2; rw [h] at this; exact this
theorem tapSession_fuses (x0 : TapUnit) (x1 : State) (x2 : ℕ) : (tapSession x0 x1 x2).fuses = x1.fuses := by
  unfold tapSession
  repeat' first
    | with_reducible rfl
    | simp only [↓decideFilter_fuses, ↓capTrigger_fuses, ↓capStore_fuses]
    | split
    | with_reducible refine (decideFilter_fuses' (by assumption)).trans ?_
    | with_reducible refine (foldl_fuses _ _ _ (fun _ _ => ?_)).trans ?_
    | with_reducible refine (foldl_snd_fuses _ _ _ (fun _ _ => ?_)).trans ?_
theorem tap_fuses (x0 : TapUnit) (x1 : State) : (tap x0 x1).fuses = x1.fuses := by
  unfold tap
  repeat' first | with_reducible rfl | simp only [↓tapSession_fuses] | split |
    with_reducible refine (foldl_fuses _ _ _ (fun _ _ => ?_)).trans ?_
theorem capRetire_fuses (x0 : ℕ) (x1 : State) : (capRetire x0 x1).fuses = x1.fuses := by
  unfold capRetire
  repeat' first | with_reducible rfl | simp only [↓modSession_fuses, ↓raiseUnless_fuses, ↓bumpBy_fuses] | split |
    with_reducible refine (foldl_fuses _ _ _ (fun _ _ => ?_)).trans ?_
theorem placeUser_fuses (x0 : List ℕ) (x1 : ℕ) (x2 : ℕ) (x3 : List Placed) (x4 : ℕ) (x5 : ℕ) (x6 : State) : (placeUser x0 x1 x2 x3 x4 x5 x6).2.fuses = x6.fuses := by
  unfold placeUser
  repeat' first | with_reducible rfl | simp only [↓takeFree_fuses] | split
theorem placeUser_fuses' {x0 : List ℕ} {x1 : ℕ} {x2 : ℕ} {x3 : List Placed} {x4 : ℕ} {x5 : ℕ} {x6 : State} {r : State} {v : List Placed} (h : placeUser x0 x1 x2 x3 x4 x5 x6 = (v, r)) : r.fuses = x6.fuses := by
  have := placeUser_fuses x0 x1 x2 x3 x4 x5 x6; rw [h] at this; exact this
theorem modChan_fuses (x0 : ℕ) (x1 : Channel → Channel) (x2 : State) : (modChan x0 x1 x2).fuses = x2.fuses := (rfl)
theorem modCore_fuses (x0 : ℕ) (x1 : Core → Core) (x2 : State) : (modCore x0 x1 x2).fuses = x2.fuses := (rfl)
theorem modTask_fuses (x0 : ℕ) (x1 : Task → Task) (x2 : State) : (modTask x0 x1 x2).fuses = x2.fuses := (rfl)
theorem enterReady_fuses (x0 : ℕ) (x1 : Task) (x2 : State) : (enterReady x0 x1 x2).fuses = x2.fuses := by unfold enterReady; split <;> simp only [↓modTask_fuses, ↓modCore_fuses, ↓trackMax_fuses]
theorem updateReady_fuses (x0 : ℕ) (x1 : State) : (updateReady x0 x1).fuses = x1.fuses := by
  unfold updateReady
  repeat' first | with_reducible rfl | simp only [↓enterReady_fuses] | split
theorem flueChanged_fuses (x0 : ℕ) (x1 : State) : (flueChanged x0 x1).fuses = x1.fuses := by
  unfold flueChanged
  repeat' first | with_reducible rfl | simp only [↓settleDelete_fuses, ↓updateReady_fuses] | split |
    with_reducible refine (foldl_fuses _ _ _ (fun _ _ => ?_)).trans ?_
theorem tapFlue_fuses (x0 : ℕ) (x1 : State) : (tapFlue x0 x1).fuses = x1.fuses := by
  unfold tapFlue
  repeat' first | with_reducible rfl | simp only [↓tap_fuses] | split
theorem noteStop_fuses (x0 : ℕ) (x1 : ℕ) (x2 : ℕ) (x3 : State) : (noteStop x0 x1 x2 x3).fuses = x3.fuses := (rfl)
theorem leaveTask_fuses (x0 : ℕ) (x1 : State) : (leaveTask x0 x1).fuses = x1.fuses := (rfl)
theorem rewindInputs_fuses (x0 : Task) (x1 : State) : (rewindInputs x0 x1).fuses = x1.fuses := by
  unfold rewindInputs
  repeat' first | with_reducible rfl | simp only [↓flueChanged_fuses, ↓rewindFlue_fuses] | split |
    with_reducible refine (foldl_fuses _ _ _ (fun _ _ => ?_)).trans ?_
theorem abandonOutputs_fuses (x0 : Task) (x1 : State) : (abandonOutputs x0 x1).fuses = x1.fuses := by
  unfold abandonOutputs
  repeat' first | with_reducible rfl | simp only [↓flueChanged_fuses, ↓closePacket_fuses] | split |
    with_reducible refine (foldl_fuses _ _ _ (fun _ _ => ?_)).trans ?_
theorem dmemWrite_fuses (x0 : ℕ) (x1 : ℕ) (x2 : List Byte) (x3 : State) : (dmemWrite x0 x1 x2 x3).fuses = x3.fuses := (rfl)
theorem placeConst_fuses {prog : Nat} {p : Program} {k : Nat} {s r : State} (h : placeConst prog p k s = some r) :
    r.fuses = s.fuses := by
  unfold placeConst at h
  split at h
  · injection h with h; rw [h]
  · rw [Option.map_eq_some_iff] at h
    obtain ⟨a, -, rfl⟩ := h
    rw [dmemWrite_fuses, modCore_fuses]
theorem placeCode_fuses {prog : Nat} {p : Program} {k : Nat} {s r : State} (h : placeCode prog p k s = some r) :
    r.fuses = s.fuses := by
  unfold placeCode at h
  split at h
  · injection h with h; rw [h]
  · rw [Option.map_eq_some_iff] at h
    obtain ⟨a, -, rfl⟩ := h
    exact modCore_fuses ..
theorem onCores_fuses {f : Nat → State → Option State} {l : List Nat} {s r : State}
    (hf : ∀ {k s r}, f k s = some r → r.fuses = s.fuses) (h : onCores f l s = some r) : r.fuses = s.fuses := by
  induction l generalizing s with
  | nil => injection h with h; rw [h]
  | cons k l ih =>
    unfold onCores at h
    rw [Option.bind_eq_some_iff] at h
    obtain ⟨a, h1, h2⟩ := h
    rw [ih h2, hf h1]
theorem dropUnused_fuses (x0 : ℕ) (x1 : State) : (dropUnused x0 x1).fuses = x1.fuses := (rfl)
theorem unbindFlues_fuses (x0 : ℕ) (x1 : Task) (x2 : State) : (unbindFlues x0 x1 x2).fuses = x2.fuses := by
  unfold unbindFlues
  repeat' first | with_reducible rfl | simp only [] | split |
    with_reducible refine (foldl_fuses _ _ _ (fun _ _ => ?_)).trans ?_
theorem freeTask_fuses (x0 : ℕ) (x1 : State) : (freeTask x0 x1).fuses = x1.fuses := by
  unfold freeTask
  repeat' first | with_reducible rfl | simp only [↓unbindFlues_fuses, ↓dropUnused_fuses, ↓modCore_fuses, ↓finishRunning_fuses, ↓leaveLeases_fuses] | split |
    with_reducible refine (foldl_fuses _ _ _ (fun _ _ => ?_)).trans ?_
theorem faultTask_fuses (x0 : ℕ) (x1 : ℕ) (x2 : ℕ) (x3 : ℕ) (x4 : ℕ) (x5 : ℕ) (x6 : State) : (faultTask x0 x1 x2 x3 x4 x5 x6).fuses = x6.fuses := by
  unfold faultTask
  repeat' first | with_reducible rfl | simp only [↓rewindInputs_fuses, ↓abandonOutputs_fuses, ↓modTask_fuses, ↓modCore_fuses, ↓bump_fuses, ↓raise_fuses, ↓freeTask_fuses] | split
theorem trapCore_fuses (x0 : ℕ) (x1 : ℕ) (x2 : ℕ) (x3 : ℕ) (x4 : State) : (trapCore x0 x1 x2 x3 x4).fuses = x4.fuses := by
  unfold trapCore
  repeat' first | with_reducible rfl | simp only [↓noteStop_fuses, ↓modCore_fuses, ↓leaveTask_fuses, ↓faultTask_fuses] | split
theorem countCycle_fuses (x0 : ℕ) (x1 : State) : (countCycle x0 x1).fuses = x1.fuses := by
  unfold countCycle
  repeat' first | with_reducible rfl | simp only [↓modTask_fuses, ↓trapCore_fuses] | split
theorem noteWait_fuses (x0 : ℕ) (x1 : ℕ) (x2 : Task) (x3 : State) : (noteWait x0 x1 x2 x3).fuses = x3.fuses := by
  unfold noteWait
  repeat' first | with_reducible rfl | simp only [↓bump_fuses, ↓trackMax_fuses, ↓raiseUnless_fuses, ↓modCore_fuses] | split
theorem writeShadowParam_fuses (x0 : ℕ) (x1 : State) : (writeShadowParam x0 x1).fuses = x1.fuses := by
  unfold writeShadowParam
  repeat' first | with_reducible rfl | simp only [↓dmemWrite_fuses] | split |
    with_reducible refine (foldl_fuses _ _ _ (fun _ _ => ?_)).trans ?_
theorem swapParams_fuses (x0 : ℕ) (x1 : State) : (swapParams x0 x1).fuses = x1.fuses := by
  unfold swapParams
  repeat' first | with_reducible rfl | simp only [↓modTask_fuses, ↓writeShadowParam_fuses, ↓finishRunning_fuses] | split
theorem startTask_fuses (x0 : ℕ) (x1 : ℕ) (x2 : State) : (startTask x0 x1 x2).fuses = x2.fuses := by
  unfold startTask
  repeat' first | with_reducible rfl | simp only [↓noteWait_fuses, ↓modTask_fuses, ↓swapParams_fuses, ↓bump_fuses, ↓modCore_fuses] | split
theorem resumeTask_fuses (x0 : ℕ) (x1 : ℕ) (x2 : DspCtx) (x3 : State) : (resumeTask x0 x1 x2 x3).fuses = x3.fuses := by
  unfold resumeTask
  repeat' first | with_reducible rfl | simp only [↓modTask_fuses, ↓modCore_fuses] | split
theorem runTask_fuses (x0 : ℕ) (x1 : ℕ) (x2 : State) : (runTask x0 x1 x2).fuses = x2.fuses := by
  unfold runTask
  repeat' first | with_reducible rfl | simp only [↓modCore_fuses, ↓resumeTask_fuses, ↓startTask_fuses] | split
theorem suspend_fuses (x0 : ℕ) (x1 : ℕ) (x2 : State) : (suspend x0 x1 x2).fuses = x2.fuses := by
  unfold suspend
  repeat' first | with_reducible rfl | simp only [↓noteStop_fuses, ↓modCore_fuses, ↓modTask_fuses] | split
theorem tryCore_fuses (x0 : ℕ) (x1 : ℕ) (x2 : State) : (tryCore x0 x1 x2).fuses = x2.fuses := by
  unfold tryCore
  repeat' first | with_reducible rfl | simp only [↓runTask_fuses, ↓suspend_fuses, ↓bump_fuses] | split
theorem tryFirst_fuses (x0 : ℕ) (x1 : Option ℕ) (x2 : State) : (tryFirst x0 x1 x2).fuses = x2.fuses := by unfold tryFirst; split <;> simp only [↓tryCore_fuses]
theorem groveDispatch_fuses (x0 : ℕ) (x1 : List ℕ) (x2 : Option ℕ) (x3 : State) : (groveDispatch x0 x1 x2 x3).fuses = x3.fuses := by
  unfold groveDispatch
  repeat' first | with_reducible rfl | simp only [↓tryCore_fuses] | split
theorem taskDispatch_fuses (x0 : ℕ) (x1 : List ℕ) (x2 : State) : (taskDispatch x0 x1 x2).fuses = x2.fuses := by unfold taskDispatch; split <;> simp only [↓tryFirst_fuses, ↓groveDispatch_fuses]
theorem commitTask_fuses (x0 : ℕ) (x1 : ℕ) (x2 : State) : (commitTask x0 x1 x2).fuses = x2.fuses := by
  unfold commitTask
  repeat' first | with_reducible rfl | simp only [↓modTask_fuses, ↓bumpBy_fuses, ↓modCore_fuses, ↓flueChanged_fuses, ↓commitFlue_fuses] | split |
    with_reducible refine (foldl_fuses _ _ _ (fun _ _ => ?_)).trans ?_
theorem settleEnd_fuses (x0 : ℕ) (x1 : State) : (settleEnd x0 x1).fuses = x1.fuses := by
  unfold settleEnd
  repeat' first | with_reducible rfl | simp only [↓leaveTask_fuses, ↓noteStop_fuses, ↓commitTask_fuses, ↓freeTask_fuses, ↓updateReady_fuses] | split
theorem endSp_fuses (x0 : ℕ) (x1 : State) : (endSp x0 x1).fuses = x1.fuses := by unfold endSp; simp only [↓settleEnd_fuses, ↓modCore_fuses]
theorem endPop_fuses (x0 : ℕ) (x1 : SpCmd) (x2 : Bool) (x3 : Bool) (x4 : Bool) (x5 : State) : (endPop x0 x1 x2 x3 x4 x5).fuses = x5.fuses := by unfold endPop; simp only [↓endSp_fuses, ↓modCore_fuses]
theorem takeBytes_fuses (x0 : ℕ) (x1 : SpCmd) (x2 : List Byte) (x3 : State) : (takeBytes x0 x1 x2 x3).2.fuses = x3.fuses := (rfl)
theorem takeBytes_fuses' {x0 : ℕ} {x1 : SpCmd} {x2 : List Byte} {x3 : State} {r : State} {v : SpCmd} (h : takeBytes x0 x1 x2 x3 = (v, r)) : r.fuses = x3.fuses := by
  have := takeBytes_fuses x0 x1 x2 x3; rw [h] at this; exact this
theorem popItems_fuses (k j n : Nat) (q : SpCmd) (s : State) : (popItems k j n q s).fuses = s.fuses := by
  induction n generalizing q s with
  | zero => exact modCore_fuses ..
  | succ n ih =>
    unfold popItems
    split
    · exact endPop_fuses ..
    · split
      · extract_lets s1
        have h1 : s1.fuses = s.fuses := popFlue_fuses ..
        clear_value s1
        rw [← h1]
        split
        · exact endPop_fuses ..
        · exact modCore_fuses ..
      · split
        rename_i it s1 heq
        have h1 := popFlue_fuses' heq
        rw [← h1]
        clear heq h1
        extract_lets b room q1
        clear_value b room q1
        split
        rename_i q2 s2 heq
        have h1 := takeBytes_fuses' heq
        rw [← h1]
        clear heq h1
        split
        · exact endPop_fuses ..
        · split
          · extract_lets s3
            have h3 : s3.fuses = s2.fuses := by
              unfold s3
              split
              · exact dropRemainder_fuses ..
              · rfl
            clear_value s3
            rw [← h3]
            exact endPop_fuses ..
          · split
            · exact endPop_fuses ..
            · exact ih ..
theorem popInsert_fuses (x0 : ℕ) (x1 : SpCmd) (x2 : Task) (x3 : State) : (popInsert x0 x1 x2 x3).fuses = x3.fuses := by unfold popInsert; split <;> simp only [↓endPop_fuses, ↓modTask_fuses, ↓takeBytes_fuses]
theorem pushAll_fuses (x0 : ℕ) (x1 : ℕ) (x2 : List Item) (x3 : State) : (pushAll x0 x1 x2 x3).fuses = x3.fuses := by
  unfold pushAll
  repeat' first | with_reducible rfl | simp only [↓pushItem_fuses] | split |
    with_reducible refine (foldl_fuses _ _ _ (fun _ _ => ?_)).trans ?_
theorem streamStep_fuses (x0 : ℕ) (x1 : State) : (streamStep x0 x1).fuses = x1.fuses := by
  unfold streamStep
  repeat' first | with_reducible rfl | simp only [↓endSp_fuses, ↓bumpBy_fuses, ↓flueChanged_fuses, ↓tapFlue_fuses, ↓pushAll_fuses, ↓modTask_fuses, ↓popItems_fuses, ↓popInsert_fuses] | split
theorem spGo_fuses (x0 : ℕ) (x1 : ℕ) (x2 : State) : (spGo x0 x1 x2).fuses = x2.fuses := by
  unfold spGo
  repeat' first | with_reducible rfl | simp only [↓trapCore_fuses, ↓countCycle_fuses, ↓bump_fuses, ↓modCore_fuses] | split
theorem stallCore_fuses (x0 : ℕ) (x1 : State) : (stallCore x0 x1).fuses = x1.fuses := by unfold stallCore; simp only [↓countCycle_fuses, ↓bump_fuses]
theorem arrive_fuses (x0 : ℕ) (x1 : State) : (arrive x0 x1).fuses = x1.fuses := by
  unfold arrive
  repeat' first | with_reducible rfl | simp only [↓suspend_fuses, ↓settleEnd_fuses, ↓modCore_fuses] | split
theorem bundleIssue_fuses (x0 : ℕ) (x1 : State) : (bundleIssue x0 x1).fuses = x1.fuses := by
  unfold bundleIssue
  repeat' first | with_reducible rfl | simp only [↓stallCore_fuses, ↓modCore_fuses, ↓trapCore_fuses, ↓bump_fuses, ↓countCycle_fuses, ↓arrive_fuses] | split
theorem placeOn_fuses {t : Task} {p : Program} {n : Nat} {b : Bool} {s r : State} {l : List Nat}
    (h : placeOn t p n b s = .inl (r, l)) : r.fuses = s.fuses := by
  unfold placeOn at h
  extract_lets cores at h
  split at h
  · contradiction
  · rename_i heq
    split at h
    · contradiction
    · split at h
      · contradiction
      · rename_i heq2
        injection h with h
        injection h with h _
        subst h
        rw [onCores_fuses (fun h => placeCode_fuses h) heq2, onCores_fuses (fun h => placeConst_fuses h) heq]
theorem moveTask_fuses {i k : Nat} {s r : State} (h : moveTask i k s = some r) : r.fuses = s.fuses := by
  unfold moveTask at h
  split at h
  · split at h
    · contradiction
    · split at h
      · contradiction
      · rename_i heq
        injection h with h
        subst h
        simp only [↓updateReady_fuses, ↓bump_fuses, ↓rewindInputs_fuses, ↓modTask_fuses]
        refine (foldl_fuses _ _ _ (fun s o => ?_)).trans ?_
        · cases o <;> rfl
        · simp only [↓dmemWrite_fuses]
          exact placeOn_fuses heq
  · contradiction
theorem moveFirst_fuses {i : Nat} {l : List Nat} {s r : State} (h : moveFirst i l s = some r) : r.fuses = s.fuses := by
  induction l generalizing s with
  | nil => contradiction
  | cons k l ih =>
    unfold moveFirst at h
    split at h
    · rename_i heq
      injection h with h
      rw [← h]
      exact moveTask_fuses heq
    · exact ih h
theorem coreMigration_fuses (x0 : ℕ) (x1 : State) : (coreMigration x0 x1).fuses = x1.fuses := by
  unfold coreMigration
  repeat' first
    | with_reducible rfl
    | simp only [↓modCore_fuses, ↓abandonOutputs_fuses, ↓updateReady_fuses, ↓rewindInputs_fuses, ↓modTask_fuses, ↓faultTask_fuses]
    | split
    | with_reducible refine (moveFirst_fuses (by assumption)).trans ?_
    | with_reducible refine (foldl_fuses _ _ _ (fun _ _ => ?_)).trans ?_
    | with_reducible refine (foldl_snd_fuses _ _ _ (fun _ _ => ?_)).trans ?_

end Sys2Proof.Machine
end

