-- ==== Sys2Proof/Laws/FuseFrame2.lean ====
section
/-! SUPPORT. Laws/FuseFrame2.lean: what the operations of Machine/ leave in the fuse store: one lemma an
operation, part 2. Only the operations of Machine/Firmware.lean and what plans them from outside write fuses. -/

set_option linter.all false

namespace Sys2Proof.Machine

theorem scheduleReset_fuses (x0 : ℕ) (x1 : State) : (scheduleReset x0 x1).fuses = x1.fuses := (rfl)
theorem devResetPlan_fuses (x0 : Cmd) (x1 : State) (t : State) : ((devResetPlan x0 x1).run t).st.fuses = t.fuses := (rfl)
theorem noteStaged_fuses (x0 : ℕ) (x1 : List Byte) (x2 : State) : (noteStaged x0 x1 x2).fuses = x2.fuses := by unfold noteStaged; split <;> simp only []
theorem storeImage_fuses (x0 : ℕ) (x1 : List Byte) (x2 : State) : (storeImage x0 x1 x2).st.fuses = x2.fuses := by
  unfold storeImage
  repeat' first | with_reducible rfl | simp only [↓Done_st_reply, ↓rejectImage_fuses, ↓noteStaged_fuses, ↓putImage_fuses] | split
theorem fwLoadRun_fuses (x0 : Cmd) (x1 : State) : (fwLoadRun x0 x1).st.fuses = x1.fuses := by
  unfold fwLoadRun
  repeat' first | with_reducible rfl | simp only [↓Done_st_reply, ↓storeImage_fuses] | split
theorem fwLoadPlan_fuses (x0 : Cmd) (x1 : State) (t : State) : ((fwLoadPlan x0 x1).run t).st.fuses = t.fuses := by unfold fwLoadPlan; simp only [↓fwLoadRun_fuses]
theorem fwAcceptPlan_fuses (x0 : Cmd) (x1 : State) (t : State) : ((fwAcceptPlan x0 x1).run t).st.fuses = t.fuses := (rfl)
theorem fwQueryPlan_fuses (x0 : Cmd) (x1 : State) (t : State) : ((fwQueryPlan x0 x1).run t).st.fuses = t.fuses := (rfl)
theorem otpReadPlan_fuses (x0 : Cmd) (x1 : State) (t : State) : ((otpReadPlan x0 x1).run t).st.fuses = t.fuses := (rfl)
theorem storeProgram_fuses (x0 : ℕ) (x1 : List Byte) (x2 : State) : (storeProgram x0 x1 x2).st.fuses = x2.fuses := by unfold storeProgram; split <;> simp only [↓Done_st_reply]
theorem dspLoadRun_fuses (x0 : Cmd) (x1 : State) : (dspLoadRun x0 x1).st.fuses = x1.fuses := by
  unfold dspLoadRun
  repeat' first | with_reducible rfl | simp only [↓Done_st_reply, ↓storeProgram_fuses] | split
theorem dspLoadPlan_fuses (x0 : Cmd) (x1 : State) (t : State) : ((dspLoadPlan x0 x1).run t).st.fuses = t.fuses := by unfold dspLoadPlan; simp only [↓dspLoadRun_fuses]
theorem taskCreatePlan_fuses (x0 : Cmd) (x1 : State) (t : State) : ((taskCreatePlan x0 x1).run t).st.fuses = t.fuses := (rfl)
theorem bindFlues_fuses (x0 : ℕ) (x1 : ℕ) (x2 : List (Option ℕ)) (x3 : List (Option ℕ)) (x4 : State) : (bindFlues x0 x1 x2 x3 x4).fuses = x4.fuses := by
  unfold bindFlues
  repeat' first | with_reducible rfl | simp only [] | split |
    with_reducible refine (foldl_fuses _ _ _ (fun _ _ => ?_)).trans ?_
theorem bindRun_fuses (i : Nat) (p : List Byte) (s : State) : (bindRun i p s).fuses = s.fuses := by
  unfold bindRun
  split
  · extract_lets kind target s1
    have h1 : s1.fuses = s.fuses := by
      unfold s1
      split
      · rfl
      · split
        · rename_i heq
          rw [modTask_fuses]
          exact placeOn_fuses heq
        · rfl
    clear_value s1
    rw [← h1]
    split
    · simp only [↓updateReady_fuses, ↓bindFlues_fuses, ↓modTask_fuses]
    · split <;> exact modTask_fuses i (fun t => { t with objs := t.objs ++ [(kind, bindObject s1 p)] }) s1
  · rfl
theorem taskBindPlan_fuses (x0 : Cmd) (x1 : State) (t : State) : ((taskBindPlan x0 x1).run t).st.fuses = t.fuses := by unfold taskBindPlan; simp only [↓Done_st_ok, ↓bindRun_fuses]
theorem taskParamPlan_fuses (x0 : Cmd) (x1 : State) (t : State) : ((taskParamPlan x0 x1).run t).st.fuses = t.fuses := by
  unfold taskParamPlan
  repeat' first | with_reducible rfl | simp only [↓Done_st_defer, ↓modTask_fuses, ↓writeShadowParam_fuses] | split
theorem forceStop_fuses (x0 : ℕ) (x1 : Task) (x2 : State) : (forceStop x0 x1 x2).fuses = x2.fuses := by
  unfold forceStop
  repeat' first | with_reducible rfl | simp only [↓rewindInputs_fuses, ↓abandonOutputs_fuses, ↓leaveTask_fuses, ↓modCore_fuses] | split
theorem taskDeletePlan_fuses (x0 : Cmd) (x1 : State) (t : State) : ((taskDeletePlan x0 x1).run t).st.fuses = t.fuses := by
  unfold taskDeletePlan
  repeat' first | with_reducible rfl | simp only [↓Done_st_defer, ↓Done_st_ok, ↓freeTask_fuses, ↓forceStop_fuses, ↓modTask_fuses] | split
theorem dspQueryPlan_fuses (x0 : Cmd) (x1 : State) (t : State) : ((dspQueryPlan x0 x1).run t).st.fuses = t.fuses := (rfl)
theorem modRegion_fuses (x0 : ℕ) (x1 : Region → Region) (x2 : State) : (modRegion x0 x1 x2).fuses = x2.fuses := (rfl)
theorem overlaysOff_fuses (x0 : Word) (x1 : State) : (overlaysOff x0 x1).fuses = x1.fuses := by
  unfold overlaysOff
  repeat' first | with_reducible rfl | simp only [↓raiseUnless_fuses, ↓bump_fuses] | split |
    with_reducible refine (foldl_fuses _ _ _ (fun _ _ => ?_)).trans ?_
theorem regionLost_fuses (x0 : ℕ) (x1 : State) : (regionLost x0 x1).fuses = x1.fuses := by unfold regionLost; simp only [↓overlaysOff_fuses, ↓modRegion_fuses]
theorem checkOvercommit_fuses (x0 : ℕ) (x1 : State) : (checkOvercommit x0 x1).fuses = x1.fuses := by
  unfold checkOvercommit
  repeat' first | with_reducible rfl | simp only [↓raise_fuses] | split
theorem changeSp_fuses (x0 : ℕ) (x1 : ℕ) (x2 : ℕ) (x3 : ℕ) (x4 : State) : (changeSp x0 x1 x2 x3 x4).fuses = x4.fuses := by unfold changeSp; simp only [↓modChan_fuses, ↓trackMax_fuses, ↓checkOvercommit_fuses, ↓raiseUnless_fuses]
theorem retireRegion_fuses (x0 : ℕ) (x1 : State) (x2 : ℕ) : (retireRegion x0 x1 x2).fuses = x1.fuses := by
  unfold retireRegion
  repeat' first | with_reducible rfl | simp only [↓modRegion_fuses, ↓raise_fuses, ↓regionLost_fuses] | split |
    with_reducible refine (foldl_fuses _ _ _ (fun _ _ => ?_)).trans ?_
theorem finishTrains_fuses (x0 : State) : (finishTrains x0).fuses = x0.fuses := by
  unfold finishTrains
  repeat' first | with_reducible rfl | simp only [↓finishRunning_fuses] | split |
    with_reducible refine (foldl_fuses _ _ _ (fun _ _ => ?_)).trans ?_
theorem startRetrain_fuses (x0 : ℕ) (x1 : State) : (startRetrain x0 x1).fuses = x1.fuses := (rfl)
theorem kickTrains_fuses (n : Nat) (s : State) : (kickTrains n s).fuses = s.fuses := by
  induction n generalizing s with
  | zero => rfl
  | succ n ih =>
    unfold kickTrains
    split
    · exact finishTrains_fuses ..
    · extract_lets c put
      split
      · rw [ih]
      · split
        · rw [ih]; exact startRetrain_fuses c s
        · rw [ih]
theorem trainHandled_fuses (x0 : ℕ) (x1 : Option ℕ) (x2 : State) : (trainHandled x0 x1 x2).fuses = x2.fuses := by unfold trainHandled; simp only [↓kickTrains_fuses]
theorem retireChannel_fuses (x0 : ℕ) (x1 : State) : (retireChannel x0 x1).fuses = x1.fuses := by
  unfold retireChannel
  repeat' first | with_reducible rfl | simp only [↓modChan_fuses, ↓retireRegion_fuses, ↓capRetire_fuses, ↓raise_fuses, ↓trainHandled_fuses, ↓checkOvercommit_fuses] | split |
    with_reducible refine (foldl_fuses _ _ _ (fun _ _ => ?_)).trans ?_
theorem endWindow_fuses (x0 : ℕ) (x1 : State) : (endWindow x0 x1).fuses = x1.fuses := by
  unfold endWindow
  repeat' first | with_reducible rfl | simp only [↓bump32_fuses, ↓modChan_fuses] | split
theorem accessRow_fuses (x0 : ℕ) (x1 : ℕ) (x2 : ℕ) (x3 : ℕ) (x4 : Bool) (x5 : State) : (accessRow x0 x1 x2 x3 x4 x5).fuses = x5.fuses := by
  unfold accessRow
  repeat' first | with_reducible rfl | simp only [↓bump_fuses, ↓endWindow_fuses, ↓modChan_fuses] | split
theorem eccCheck_fuses (x0 : ℕ) (x1 : ℕ) (x2 : ℕ) (x3 : ℕ) (x4 : State) : (eccCheck x0 x1 x2 x3 x4).2.fuses = x4.fuses := by
  unfold eccCheck
  repeat' first | with_reducible rfl | simp only [↓bump_fuses, ↓setRg_fuses, ↓raise_fuses, ↓regionLost_fuses, ↓modRegion_fuses] | split
theorem eccCheck_fuses' {x0 : ℕ} {x1 : ℕ} {x2 : ℕ} {x3 : ℕ} {x4 : State} {r : State} {v : Bool} (h : eccCheck x0 x1 x2 x3 x4 = (v, r)) : r.fuses = x4.fuses := by
  have := eccCheck_fuses x0 x1 x2 x3 x4; rw [h] at this; exact this
theorem regionWrite_fuses (x0 : ℕ) (x1 : ℕ) (x2 : List Byte) (x3 : State) : (regionWrite x0 x1 x2 x3).fuses = x3.fuses := (rfl)
theorem dramRead_fuses (x0 : DramReq) (x1 : ℕ) (x2 : ℕ) (x3 : State) : (dramRead x0 x1 x2 x3).fuses = x3.fuses := by
  unfold dramRead
  repeat' first | with_reducible rfl | simp only [↓eccCheck_fuses, ↓emit_fuses, ↓bumpBy_fuses] | split
theorem dramServe_fuses (x0 : DramReq) (x1 : ℕ) (x2 : ℕ) (x3 : State) : (dramServe x0 x1 x2 x3).fuses = x3.fuses := by unfold dramServe; split <;> simp only [↓bumpBy_fuses, ↓modChan_fuses, ↓trackMax_fuses, ↓accessRow_fuses, ↓regionWrite_fuses, ↓dramRead_fuses]
theorem dramRequest_fuses (x0 : DramReq) (x1 : State) : (dramRequest x0 x1).fuses = x1.fuses := by unfold dramRequest; split <;> simp only [↓dramServe_fuses, ↓emit_fuses]
theorem rowIdleClose_fuses (x0 : ℕ) (x1 : ℕ) (x2 : State) : (rowIdleClose x0 x1 x2).fuses = x2.fuses := by
  unfold rowIdleClose
  repeat' first | with_reducible rfl | simp only [↓tickTo_fuses, ↓modChan_fuses] | split
theorem bankRefresh_fuses (x0 : ℕ) (x1 : ℕ) (x2 : Bool) (x3 : State) : (bankRefresh x0 x1 x2 x3).fuses = x3.fuses := by
  unfold bankRefresh
  repeat' first | with_reducible rfl | simp only [↓modChan_fuses] | split
theorem patrolScrub_fuses (x0 : ℕ) (x1 : ℕ) (x2 : ℕ) (x3 : ℕ) (x4 : State) : (patrolScrub x0 x1 x2 x3 x4).fuses = x4.fuses := by
  unfold patrolScrub
  repeat' first | with_reducible rfl | simp only [↓modChan_fuses, ↓eccCheck_fuses, ↓bump_fuses] | split
theorem wckTracking_fuses (x0 : ℕ) (x1 : ℕ) (x2 : ℤ) (x3 : ℕ) (x4 : State) : (wckTracking x0 x1 x2 x3 x4).fuses = x4.fuses := by
  unfold wckTracking
  repeat' first | with_reducible rfl | simp only [↓modChan_fuses, ↓startRetrain_fuses] | split
theorem retrainEnd_fuses (x0 : ℕ) (x1 : Bool) (x2 : ℕ) (x3 : ℕ) (x4 : State) : (retrainEnd x0 x1 x2 x3 x4).fuses = x4.fuses := by
  unfold retrainEnd
  repeat' first | with_reducible rfl | simp only [↓bump_fuses, ↓bump32_fuses, ↓modChan_fuses, ↓trainHandled_fuses, ↓changeSp_fuses, ↓retireChannel_fuses] | split
theorem retrainSlice_fuses (x0 : ℕ) (x1 : Bool) (x2 : Bool) (x3 : ℕ) (x4 : ℕ) (x5 : State) : (retrainSlice x0 x1 x2 x3 x4 x5).fuses = x5.fuses := by
  unfold retrainSlice
  repeat' first | with_reducible rfl | simp only [↓tickTo_fuses, ↓modChan_fuses, ↓retrainEnd_fuses, ↓trainHandled_fuses] | split
theorem dramSetpoint_fuses (x0 : ℕ) (x1 : ℕ) (x2 : ℕ) (x3 : State) : (dramSetpoint x0 x1 x2 x3).fuses = x3.fuses := by
  unfold dramSetpoint
  repeat' first | with_reducible rfl | simp only [↓trainHandled_fuses, ↓changeSp_fuses] | split
theorem mirrorRestored_fuses (x0 : ℕ) (x1 : ℕ) (x2 : ℕ) (x3 : State) : (mirrorRestored x0 x1 x2 x3).fuses = x3.fuses := by
  unfold mirrorRestored
  repeat' first | with_reducible rfl | simp only [↓raise_fuses, ↓modRegion_fuses] | split
theorem bar2Access_fuses (x0 : ℕ) (x1 : ℕ) (x2 : Bool) (x3 : List Byte) (x4 : ℕ) (x5 : State) : (bar2Access x0 x1 x2 x3 x4 x5).fuses = x5.fuses := by
  unfold bar2Access
  repeat' first | with_reducible rfl | simp only [↓bump_fuses, ↓regionWrite_fuses, ↓emit_fuses] | split
theorem bar2MapSwitch_fuses (x0 : ℕ) (x1 : State) : (bar2MapSwitch x0 x1).fuses = x1.fuses := by unfold bar2MapSwitch; split <;> simp only []
theorem dramRegionCreatePlan_fuses (x0 : Cmd) (x1 : State) (t : State) : ((dramRegionCreatePlan x0 x1).run t).st.fuses = t.fuses := (rfl)
theorem freeRegion_fuses (x0 : ℕ) (x1 : State) : (freeRegion x0 x1).fuses = x1.fuses := by unfold freeRegion; simp only [↓overlaysOff_fuses, ↓leaveLeases_fuses]
theorem dramRegionDeletePlan_fuses (x0 : Cmd) (x1 : State) (t : State) : ((dramRegionDeletePlan x0 x1).run t).st.fuses = t.fuses := by unfold dramRegionDeletePlan; simp only [↓Done_st_reply, ↓freeRegion_fuses]
theorem dramTrainPlan_fuses (x0 : Cmd) (x1 : State) (t : State) : ((dramTrainPlan x0 x1).run t).st.fuses = t.fuses := by
  unfold dramTrainPlan
  repeat' first | with_reducible rfl | simp only [↓Done_st_reply, ↓Done_st_defer, ↓kickTrains_fuses] | split
theorem dramQueryPlan_fuses (x0 : Cmd) (x1 : State) (t : State) : ((dramQueryPlan x0 x1).run t).st.fuses = t.fuses := (rfl)
theorem modConf_fuses (x0 : ℕ) (x1 : Conf → Conf) (x2 : State) : (modConf x0 x1 x2).fuses = x2.fuses := (rfl)
theorem modLeg_fuses (x0 : ℕ) (x1 : Leg → Leg) (x2 : State) : (modLeg x0 x1 x2).fuses = x2.fuses := (rfl)
theorem modMix_fuses (x0 : ℕ) (x1 : MixLeg → MixLeg) (x2 : State) : (modMix x0 x1 x2).fuses = x2.fuses := (rfl)
theorem modBus_fuses (x0 : ℕ) (x1 : Bus → Bus) (x2 : State) : (modBus x0 x1 x2).fuses = x2.fuses := (rfl)
theorem modJit_fuses (x0 : ℕ) (x1 : Jitter → Jitter) (x2 : State) : (modJit x0 x1 x2).fuses = x2.fuses := (rfl)
theorem takeClass_fuses (x0 : ℕ) (x1 : MixClass) (x2 : State) : (takeClass x0 x1 x2).2.fuses = x2.fuses := by
  unfold takeClass
  repeat' first | with_reducible rfl | simp only [↓modConf_fuses] | split
theorem takeClass_fuses' {x0 : ℕ} {x1 : MixClass} {x2 : State} {r : State} {v : ℕ} (h : takeClass x0 x1 x2 = (v, r)) : r.fuses = x2.fuses := by
  have := takeClass_fuses x0 x1 x2; rw [h] at this; exact this
theorem settleClass_fuses (x0 : ℕ) (x1 : ℕ) (x2 : State) : (settleClass x0 x1 x2).fuses = x2.fuses := by unfold settleClass; split <;> simp only [↓modConf_fuses]
theorem placeDecode_fuses (x0 : ℕ) (x1 : ℕ) (x2 : State) : (placeDecode x0 x1 x2).fuses = x2.fuses := by
  unfold placeDecode
  repeat' first | with_reducible rfl | simp only [↓placeUser_fuses, ↓modJit_fuses] | split |
    with_reducible refine (foldl_fuses _ _ _ (fun _ _ => ?_)).trans ?_
theorem placeEncode_fuses (x0 : ℕ) (x1 : ℕ) (x2 : State) : (placeEncode x0 x1 x2).fuses = x2.fuses := by
  unfold placeEncode
  repeat' first | with_reducible rfl | simp only [↓placeUser_fuses, ↓modJit_fuses, ↓modConf_fuses] | split |
    with_reducible refine (foldl_fuses _ _ _ (fun _ _ => ?_)).trans ?_
theorem reclass_fuses (x0 : ℕ) (x1 : ℕ) (x2 : State) : (reclass x0 x1 x2).fuses = x2.fuses := by
  unfold reclass
  repeat' first | with_reducible rfl | simp only [↓takeClass_fuses, ↓placeEncode_fuses, ↓modConf_fuses, ↓modMix_fuses, ↓modJit_fuses, ↓settleClass_fuses] | split
theorem fadeLeg_fuses (x0 : ℕ) (x1 : ℚ) (x2 : State) : (fadeLeg x0 x1 x2).fuses = x2.fuses := by unfold fadeLeg; split <;> simp only [↓modMix_fuses]
theorem refade_fuses (x0 : ℕ) (x1 : State) : (refade x0 x1).fuses = x1.fuses := by unfold refade; split <;> simp only [↓fadeLeg_fuses]
theorem dropLeaving_fuses (x0 : ℕ) (x1 : State) : (dropLeaving x0 x1).fuses = x1.fuses := by
  unfold dropLeaving
  repeat' first | with_reducible rfl | simp only [↓modMix_fuses, ↓modJit_fuses, ↓settleClass_fuses] | split |
    with_reducible refine (foldl_fuses _ _ _ (fun _ _ => ?_)).trans ?_
theorem joinConf_fuses (x0 : ℕ) (x1 : ℕ) (x2 : ℕ) (x3 : State) : (joinConf x0 x1 x2 x3).fuses = x3.fuses := by unfold joinConf; split <;> simp only [↓dropLeaving_fuses, ↓modLeg_fuses, ↓modConf_fuses, ↓refade_fuses, ↓reclass_fuses]
theorem leaveConf_fuses (x0 : ℕ) (x1 : State) : (leaveConf x0 x1).fuses = x1.fuses := by unfold leaveConf; split <;> simp only [↓fadeLeg_fuses, ↓modLeg_fuses, ↓modConf_fuses]
theorem noteTalkers_fuses (x0 : ℕ) (x1 : ℕ) (x2 : ℕ) (x3 : ℕ) (x4 : State) : (noteTalkers x0 x1 x2 x3 x4).fuses = x4.fuses := by unfold noteTalkers; split <;> simp only [↓raiseUnless_fuses]
theorem enterPlain_fuses (x0 : ℕ) (x1 : ℕ) (x2 : ℕ) (x3 : ℕ) (x4 : State) : (enterPlain x0 x1 x2 x3 x4).fuses = x4.fuses := by unfold enterPlain; simp only [↓modMix_fuses, ↓noteTalkers_fuses, ↓bump_fuses]
theorem enterTalker_fuses (x0 : ℕ) (x1 : ℕ) (x2 : ℕ) (x3 : State) (x4 : ℕ) : (enterTalker x0 x1 x2 x3 x4).fuses = x3.fuses := by
  unfold enterTalker
  repeat' first | with_reducible rfl | simp only [↓enterPlain_fuses, ↓modMix_fuses] | split
theorem dropTalker_fuses (x0 : ℕ) (x1 : ℕ) (x2 : ℕ) (x3 : State) (x4 : ℕ) : (dropTalker x0 x1 x2 x3 x4).fuses = x3.fuses := by
  unfold dropTalker
  repeat' first | with_reducible rfl | simp only [↓modMix_fuses, ↓noteTalkers_fuses] | split
theorem selectAll_fuses (x0 : ℕ) (x1 : State) : (selectAll x0 x1).fuses = x1.fuses := by
  unfold selectAll
  repeat' first | with_reducible rfl | simp only [↓modConf_fuses, ↓bump_fuses, ↓dropTalker_fuses, ↓enterTalker_fuses] | split |
    with_reducible refine (foldl_fuses _ _ _ (fun _ _ => ?_)).trans ?_
theorem forgetLeft_fuses (x0 : State) : (forgetLeft x0).fuses = x0.fuses := by
  unfold forgetLeft
  repeat' first | with_reducible rfl | simp only [↓modConf_fuses, ↓settleClass_fuses] | split |
    with_reducible refine (foldl_fuses _ _ _ (fun _ _ => ?_)).trans ?_
theorem modFlow_fuses (x0 : ℕ) (x1 : Flow → Flow) (x2 : State) : (modFlow x0 x1 x2).fuses = x2.fuses := (rfl)
theorem place_fuses (x0 : ℕ) (x1 : ℕ) (x2 : ℕ) (x3 : ℕ) (x4 : State) : (place x0 x1 x2 x3 x4).fuses = x4.fuses := (rfl)
theorem shiftChain_fuses (l : List Nat) (w b k : Nat) (s : State) : (shiftChain l w b k s).2.fuses = s.fuses := by
  induction l generalizing w b k s with
  | nil => rfl
  | cons i l ih =>
    unfold shiftChain
    split
    · rw [ih, place_fuses, bump_fuses]
    · exact ih ..
theorem shiftChain_fuses' {x0 : List ℕ} {x1 : ℕ} {x2 : ℕ} {x3 : ℕ} {x4 : State} {r : State} {v : (ℕ × ℕ × ℕ)} (h : shiftChain x0 x1 x2 x3 x4 = (v, r)) : r.fuses = x4.fuses := by
  have := shiftChain_fuses x0 x1 x2 x3 x4; rw [h] at this; exact this
theorem placeInTable_fuses (x0 : ℕ) (x1 : State) : (placeInTable x0 x1).2.fuses = x1.fuses := by
  unfold placeInTable
  repeat' first | with_reducible rfl | simp only [↓place_fuses, ↓shiftChain_fuses] | split
theorem placeInTable_fuses' {x0 : ℕ} {x1 : State} {r : State} {v : Bool} (h : placeInTable x0 x1 = (v, r)) : r.fuses = x1.fuses := by
  have := placeInTable_fuses x0 x1; rw [h] at this; exact this
theorem startRehash_fuses (x0 : State) : (startRehash x0).fuses = x0.fuses := by unfold startRehash; split <;> simp only [↓takeFree_fuses, ↓raise_fuses]
theorem addFlow_fuses {f : Flow} {s : State} {r : Nat × State} (h : addFlow f s = some r) : r.2.fuses = s.fuses := by
  unfold addFlow at h
  dsimp only at h
  split at h
  · rename_i s' heq
    injection h with h
    subst h
    have h1 := placeInTable_fuses' heq
    exact h1
  · rename_i s' heq
    rw [Option.map_eq_some_iff] at h
    obtain ⟨a, -, rfl⟩ := h
    show (startRehash _).fuses = _
    rw [startRehash_fuses, modFlow_fuses]
    have h1 := placeInTable_fuses' heq
    exact h1
theorem rehashEntry_fuses (x0 : ℕ) (x1 : State) (x2 : ℕ) : (rehashEntry x0 x1 x2).fuses = x1.fuses := by
  unfold rehashEntry
  repeat' first
    | with_reducible rfl
    | simp only [↓modFlow_fuses, ↓placeInTable_fuses]
    | split
    | with_reducible refine (placeInTable_fuses' (by assumption)).trans ?_
    | with_reducible refine (foldl_fuses _ _ _ (fun _ _ => ?_)).trans ?_
    | with_reducible refine (foldl_snd_fuses _ _ _ (fun _ _ => ?_)).trans ?_
theorem leaveCam_fuses (x0 : State) (x1 : ℕ) : (leaveCam x0 x1).fuses = x0.fuses := by
  unfold leaveCam
  repeat' first | with_reducible rfl | simp only [↓placeInTable_fuses] | split
theorem drainFlow_fuses (x0 : ℕ) (x1 : State) : (drainFlow x0 x1).fuses = x1.fuses := (rfl)
theorem removeFlow_fuses (x0 : ℕ) (x1 : State) : (removeFlow x0 x1).fuses = x1.fuses := (rfl)
theorem reinstalled_fuses (x0 : ℕ) (x1 : Word) (x2 : Option Word) (x3 : State) : (reinstalled x0 x1 x2 x3).fuses = x3.fuses := by
  unfold reinstalled
  repeat' first | with_reducible rfl | simp only [] | split
theorem modKey_fuses (x0 : ℕ) (x1 : Key → Key) (x2 : State) : (modKey x0 x1 x2).fuses = x2.fuses := (rfl)
theorem zeroiseSlot_fuses (x0 : ℕ) (x1 : State) : (zeroiseSlot x0 x1).fuses = x1.fuses := by unfold zeroiseSlot; simp only [↓leaveLeases_fuses, ↓bumpBy_fuses]
theorem finishErase_fuses (x0 : ℕ) (x1 : State) : (finishErase x0 x1).fuses = x1.fuses := by
  unfold finishErase
  repeat' first | with_reducible rfl | simp only [↓finishRunning_fuses, ↓zeroiseSlot_fuses] | split
theorem eraseSlot_fuses (x0 : ℕ) (x1 : ℕ × Word) (x2 : State) : (eraseSlot x0 x1 x2).fuses = x2.fuses := by unfold eraseSlot; simp only [↓modKey_fuses, ↓finishErase_fuses]
theorem generationDrained_fuses (x0 : ℕ) (x1 : ℕ) (x2 : State) : (generationDrained x0 x1 x2).fuses = x2.fuses := by
  unfold generationDrained
  repeat' first | with_reducible rfl | simp only [↓modKey_fuses, ↓finishErase_fuses, ↓bump_fuses] | split
theorem dropHeld_fuses (x0 : ℕ) (x1 : State) : (dropHeld x0 x1).fuses = x1.fuses := by unfold dropHeld; split <;> simp only [↓bump_fuses, ↓modKey_fuses]
theorem chargePipe_fuses (x0 : ℕ) (x1 : ℕ) (x2 : Bool) (x3 : State) : (chargePipe x0 x1 x2 x3).fuses = x3.fuses := by
  unfold chargePipe
  repeat' first | with_reducible rfl | simp only [↓bump_fuses, ↓bumpBy_fuses, ↓modKey_fuses] | split
theorem warnNonce_fuses (x0 : ℕ) (x1 : ℕ) (x2 : State) : (warnNonce x0 x1 x2).fuses = x2.fuses := by
  unfold warnNonce
  repeat' first | with_reducible rfl | simp only [↓raiseUnless_fuses, ↓modKey_fuses] | split
theorem cipherSend_fuses (x0 : ℕ) (x1 : ℕ) (x2 : Bool) (x3 : Bool) (x4 : State) : (cipherSend x0 x1 x2 x3 x4).2.fuses = x4.fuses := by
  unfold cipherSend
  repeat' first | with_reducible rfl | simp only [↓bump_fuses, ↓raise_fuses, ↓modKey_fuses, ↓warnNonce_fuses, ↓chargePipe_fuses] | split
theorem cipherSend_fuses' {x0 : ℕ} {x1 : ℕ} {x2 : Bool} {x3 : Bool} {x4 : State} {r : State} {v : Option ℕ} (h : cipherSend x0 x1 x2 x3 x4 = (v, r)) : r.fuses = x4.fuses := by
  have := cipherSend_fuses x0 x1 x2 x3 x4; rw [h] at this; exact this
theorem cipherReceive_fuses (x0 : ℕ) (x1 : ℕ) (x2 : ℕ) (x3 : Bool) (x4 : Bool) (x5 : Bool) (x6 : State) : (cipherReceive x0 x1 x2 x3 x4 x5 x6).2.fuses = x6.fuses := by
  unfold cipherReceive
  repeat' first | with_reducible rfl | simp only [↓bump_fuses, ↓modKey_fuses, ↓chargePipe_fuses, ↓dropHeld_fuses] | split
theorem cipherReceive_fuses' {x0 : ℕ} {x1 : ℕ} {x2 : ℕ} {x3 : Bool} {x4 : Bool} {x5 : Bool} {x6 : State} {r : State} {v : Bool} (h : cipherReceive x0 x1 x2 x3 x4 x5 x6 = (v, r)) : r.fuses = x6.fuses := by
  have := cipherReceive_fuses x0 x1 x2 x3 x4 x5 x6; rw [h] at this; exact this
theorem legEvent_fuses (x0 : ℕ) (x1 : ℕ) (x2 : ℕ) (x3 : ℕ) (x4 : State) : (legEvent x0 x1 x2 x3 x4).fuses = x4.fuses := by unfold legEvent; simp only [↓raise_fuses]
theorem idleJitter_fuses (x0 : ℕ) (x1 : State) : (idleJitter x0 x1).fuses = x1.fuses := by unfold idleJitter; split <;> simp only [↓modJit_fuses, ↓modMix_fuses]
theorem holdLeg_fuses (x0 : ℕ) (x1 : ℕ) (x2 : State) : (holdLeg x0 x1 x2).fuses = x2.fuses := by unfold holdLeg; split <;> simp only [↓modLeg_fuses, ↓legEvent_fuses, ↓refade_fuses, ↓idleJitter_fuses]
theorem attachLost_fuses (x0 : ℕ) (x1 : State) : (attachLost x0 x1).fuses = x1.fuses := by
  unfold attachLost
  repeat' first | with_reducible rfl | simp only [↓holdLeg_fuses] | split |
    with_reducible refine (foldl_fuses _ _ _ (fun _ _ => ?_)).trans ?_
theorem legAdvance_fuses (x0 : ℕ) (x1 : State) : (legAdvance x0 x1).fuses = x1.fuses := by
  unfold legAdvance
  repeat' first | with_reducible rfl | simp only [↓removeFlow_fuses, ↓eraseSlot_fuses] | split |
    with_reducible refine (foldl_fuses _ _ _ (fun _ _ => ?_)).trans ?_
theorem ownerAdvance_fuses (x0 : Word) (x1 : State) : (ownerAdvance x0 x1).fuses = x1.fuses := by unfold ownerAdvance; split <;> simp only [↓legAdvance_fuses]
theorem freeLeg_fuses (x0 : ℕ) (x1 : State) : (freeLeg x0 x1).fuses = x1.fuses := by
  unfold freeLeg
  repeat' first | with_reducible rfl | simp only [↓leaveLeases_fuses, ↓finishRunning_fuses] | split
theorem modEth_fuses (x0 : ℕ) (x1 : EthPort → EthPort) (x2 : State) : (modEth x0 x1 x2).fuses = x2.fuses := (rfl)
theorem portConfigPlan_fuses (x0 : Cmd) (x1 : State) (t : State) : ((portConfigPlan x0 x1).run t).st.fuses = t.fuses := by
  unfold portConfigPlan
  repeat' first | with_reducible rfl | simp only [↓Done_st_defer, ↓Done_st_ok, ↓modEth_fuses, ↓raiseUnless_fuses, ↓bump_fuses] | split |
    with_reducible refine (foldl_fuses _ _ _ (fun _ _ => ?_)).trans ?_
theorem finishPort_fuses (x0 : ℕ) (x1 : Bool) (x2 : State) : (finishPort x0 x1 x2).fuses = x2.fuses := by
  unfold finishPort
  repeat' first | with_reducible rfl | simp only [↓finishRunning_fuses] | split |
    with_reducible refine (foldl_fuses _ _ _ (fun _ _ => ?_)).trans ?_
theorem portTimeouts_fuses (x0 : State) : (portTimeouts x0).fuses = x0.fuses := by
  unfold portTimeouts
  repeat' first | with_reducible rfl | simp only [↓finishPort_fuses] | split |
    with_reducible refine (foldl_fuses _ _ _ (fun _ _ => ?_)).trans ?_
theorem ethLink_fuses (x0 : ℕ) (x1 : Bool) (x2 : ℕ) (x3 : ℕ) (x4 : Option (List Byte)) (x5 : State) : (ethLink x0 x1 x2 x3 x4 x5).fuses = x5.fuses := by
  unfold ethLink
  repeat' first | with_reducible rfl | simp only [↓modEth_fuses, ↓bump_fuses, ↓raiseUnless_fuses, ↓raise_fuses, ↓finishPort_fuses] | split
theorem portQueryPlan_fuses (x0 : Cmd) (x1 : State) (t : State) : ((portQueryPlan x0 x1).run t).st.fuses = t.fuses := (rfl)
def Installed.st : Installed → State
  | .done s _ => s
  | .exists_ s _ _ => s
  | .wait s _ _ => s
theorem installEntries_fuses (o : Word) (l : List (List Byte)) (hs : List Nat) (s : State) :
    (installEntries o l hs s).st.fuses = s.fuses := by
  induction l generalizing hs s with
  | nil => rfl
  | cons e l ih =>
    unfold installEntries
    split
    · rfl
    · split
      · rename_i heq
        rw [ih, reinstalled_fuses]
        exact addFlow_fuses heq
      · rfl
theorem flowInstallPlan_fuses (c : Cmd) (s t : State) : ((flowInstallPlan c s).run t).st.fuses = t.fuses := by
  unfold flowInstallPlan
  dsimp only
  split
  · rfl
  · rfl
  · have h1 := installEntries_fuses c.handle (entriesOf (if (u8 c.params 0 == 1) = true then c.dma else c.params.drop 24) (u16 c.params 2)) [] t
    split
    · rename_i heq
      rw [heq] at h1
      split <;> exact h1
    · rename_i heq
      rw [heq] at h1
      exact h1
    · rename_i heq
      rw [heq] at h1
      exact h1
theorem resumeInstall_fuses (s : State) (w : InstallWait) : (resumeInstall s w).fuses = s.fuses := by
  have h1 := installEntries_fuses w.owner w.entries w.handles s
  unfold resumeInstall
  split
  · rename_i heq
    rw [heq] at h1
    split
    · rw [finishRunning_fuses]; exact h1
    · rw [finishRunning_fuses]; exact h1
  · rename_i heq
    rw [heq] at h1
    rw [finishRunning_fuses]; exact h1
  · rename_i heq
    rw [heq] at h1
    exact h1
theorem rehashEnd_fuses (x0 : State) : (rehashEnd x0).fuses = x0.fuses := by
  unfold rehashEnd
  repeat' first | with_reducible rfl | simp only [↓rehashEntry_fuses, ↓leaveCam_fuses, ↓bump_fuses, ↓raise_fuses, ↓startRehash_fuses, ↓resumeInstall_fuses] | split |
    with_reducible refine (foldl_fuses _ _ _ (fun _ _ => ?_)).trans ?_
theorem flowModifyPlan_fuses (x0 : Cmd) (x1 : State) (t : State) : ((flowModifyPlan x0 x1).run t).st.fuses = t.fuses := (rfl)
theorem flowRemovePlan_fuses (x0 : Cmd) (x1 : State) (t : State) : ((flowRemovePlan x0 x1).run t).st.fuses = t.fuses := (rfl)
theorem routeDrain_fuses (x0 : ℕ) (x1 : State) : (routeDrain x0 x1).fuses = x1.fuses := by
  unfold routeDrain
  repeat' first | with_reducible rfl | simp only [↓bump_fuses, ↓leaveLeases_fuses, ↓modFlow_fuses] | split
theorem flowQueryPlan_fuses (x0 : Cmd) (x1 : State) (t : State) : ((flowQueryPlan x0 x1).run t).st.fuses = t.fuses := (rfl)
theorem addRouterFlow_fuses (x0 : Cmd) (x1 : List Byte) (x2 : List Byte) (x3 : State) : (addRouterFlow x0 x1 x2 x3).st.fuses = x3.fuses := by
  unfold addRouterFlow
  repeat' first
    | with_reducible rfl
    | simp only [↓Done_st_reply, ↓Done_st_defer, ↓Done_st_ok]
    | split
    | with_reducible refine (addFlow_fuses (by assumption)).trans ?_
    | with_reducible refine (foldl_fuses _ _ _ (fun _ _ => ?_)).trans ?_
    | with_reducible refine (foldl_snd_fuses _ _ _ (fun _ _ => ?_)).trans ?_
theorem removeRouterFlow_fuses (x0 : List Byte) (x1 : ℕ) (x2 : State) : (removeRouterFlow x0 x1 x2).st.fuses = x2.fuses := by unfold removeRouterFlow; split <;> simp only [↓Done_st_reply, ↓Done_st_ok, ↓removeFlow_fuses]
theorem nextHopIndex_fuses (x0 : List Byte) (x1 : State) : (nextHopIndex x0 x1).2.fuses = x1.fuses := by unfold nextHopIndex; split <;> simp only []
theorem nextHopIndex_fuses' {x0 : List Byte} {x1 : State} {r : State} {v : ℕ} (h : nextHopIndex x0 x1 = (v, r)) : r.fuses = x1.fuses := by
  have := nextHopIndex_fuses x0 x1; rw [h] at this; exact this
theorem putNeighbour_fuses (x0 : Neighbour) (x1 : State) : (putNeighbour x0 x1).fuses = x1.fuses := by
  unfold putNeighbour
  repeat' first | with_reducible rfl | simp only [] | split
theorem routeSetPlan_fuses (x0 : Cmd) (x1 : State) (t : State) : ((routeSetPlan x0 x1).run t).st.fuses = t.fuses := by
  unfold routeSetPlan
  repeat' first | with_reducible rfl | simp only [↓Done_st_ok, ↓nextHopIndex_fuses, ↓addRouterFlow_fuses, ↓removeRouterFlow_fuses, ↓putNeighbour_fuses] | split
theorem natSetPlan_fuses (x0 : Cmd) (x1 : State) (t : State) : ((natSetPlan x0 x1).run t).st.fuses = t.fuses := by
  unfold natSetPlan
  repeat' first | with_reducible rfl | simp only [↓Done_st_ok, ↓addRouterFlow_fuses, ↓removeRouterFlow_fuses] | split
theorem removeConn_fuses (x0 : ℕ) (x1 : State) : (removeConn x0 x1).fuses = x1.fuses := by unfold removeConn; split <;> simp only [↓removeFlow_fuses]
theorem flushConns_fuses (x0 : State) : (flushConns x0).fuses = x0.fuses := by
  unfold flushConns
  repeat' first | with_reducible rfl | simp only [↓removeConn_fuses] | split |
    with_reducible refine (foldl_fuses _ _ _ (fun _ _ => ?_)).trans ?_
theorem flushIf_fuses (c : Prop) [Decidable c] (s : State) : (if c then flushConns s else s).fuses = s.fuses := by
  split
  · exact flushConns_fuses ..
  · rfl
theorem aclAdd_fuses (d : Done) (f : State → State) (s : State) (hd : d.st.fuses = s.fuses) (hf : ∀ s, (f s).fuses = s.fuses) :
    (match d with
      | .reply s st d pr b => Done.reply (f s) st d pr b
      | .defer s => .defer s).st.fuses = s.fuses := by
  cases d with
  | reply t st d pr b => exact (hf t).trans hd
  | defer t => exact hd
theorem aclRemove_fuses (d : Done) (f : State → State) (s : State) (hd : d.st.fuses = s.fuses) (hf : ∀ s, (f s).fuses = s.fuses) :
    (match d with
      | .reply s st d pr b => Done.reply (if st = St.OK then f s else s) st d pr b
      | .defer s => .defer s).st.fuses = s.fuses := by
  cases d with
  | reply t st d pr b =>
    show (if st = St.OK then f t else t).fuses = _
    split
    · exact (hf t).trans hd
    · exact hd
  | defer t => exact hd
theorem aclSetPlan_fuses (c : Cmd) (s t : State) : ((aclSetPlan c s).run t).st.fuses = t.fuses := by
  unfold aclSetPlan
  dsimp only
  split
  · split
    · rw [Done_st_ok, flushIf_fuses, drainFlow_fuses, modFlow_fuses]
    · exact aclAdd_fuses _ _ _ (addRouterFlow_fuses ..) (fun s => flushIf_fuses _ s)
  · exact aclRemove_fuses _ _ _ (removeRouterFlow_fuses ..) (fun s => flushIf_fuses _ s)
  · rw [Done_st_ok, flushIf_fuses]
theorem connExpiry_fuses (x0 : ℕ) (x1 : State) : (connExpiry x0 x1).fuses = x1.fuses := by
  unfold connExpiry
  repeat' first | with_reducible rfl | simp only [↓bump_fuses, ↓removeConn_fuses, ↓tickTo_fuses] | split
theorem modSta_fuses (x0 : ℕ) (x1 : Sta → Sta) (x2 : State) : (modSta x0 x1 x2).fuses = x2.fuses := (rfl)
theorem modBss_fuses (x0 : ℕ) (x1 : Bss → Bss) (x2 : State) : (modBss x0 x1 x2).fuses = x2.fuses := (rfl)
theorem wlanEnqueue_fuses (x0 : ℕ) (x1 : ℕ) (x2 : State) : (wlanEnqueue x0 x1 x2).fuses = x2.fuses := by
  unfold wlanEnqueue
  repeat' first | with_reducible rfl | simp only [↓modSta_fuses, ↓bump_fuses] | split
theorem freeBytes_fuses (x0 : ℕ) (x1 : State) : (freeBytes x0 x1).2.fuses = x1.fuses := (rfl)
theorem freeBytes_fuses' {x0 : ℕ} {x1 : State} {r : State} {v : List Byte} (h : freeBytes x0 x1 = (v, r)) : r.fuses = x1.fuses := by
  have := freeBytes_fuses x0 x1; rw [h] at this; exact this
theorem tapTransmit_fuses (i n : Nat) (d : List Byte) (b : Bool) (f : Option Nat) (o : Word) (s : State) :
    (tapTransmit i n d b f o s).fuses = s.fuses := by
  unfold tapTransmit
  split
  · rfl
  · split
    rename_i body s1 heq
    have h1 : s1.fuses = s.fuses := by
      split at heq
      · exact freeBytes_fuses' heq
      · injection heq with _ h; rw [h]
    rw [← h1]
    clear heq h1
    extract_lets one s2
    have h2 : s2.fuses = s1.fuses := tap_fuses ..
    clear_value s2
    rw [← h2]
    split
    rename_i wire s3 heq
    have h1 : s3.fuses = s2.fuses := by
      split at heq
      · exact freeBytes_fuses' heq
      · injection heq with _ h; rw [h]
    rw [← h1]
    exact tap_fuses ..
theorem macsecOut_fuses (x0 : ℕ) (x1 : ℕ) (x2 : ℕ) (x3 : State) : (macsecOut x0 x1 x2 x3).2.fuses = x3.fuses := by
  unfold macsecOut
  repeat' first | with_reducible rfl | simp only [↓cipherSend_fuses, ↓bump_fuses, ↓takeFree_fuses] | split
theorem macsecOut_fuses' {x0 : ℕ} {x1 : ℕ} {x2 : ℕ} {x3 : State} {r : State} {v : (Bool × Bool)} (h : macsecOut x0 x1 x2 x3 = (v, r)) : r.fuses = x3.fuses := by
  have := macsecOut_fuses x0 x1 x2 x3; rw [h] at this; exact this
theorem transmit_fuses (x0 : ℕ) (x1 : ℕ) (x2 : ℕ) (x3 : List Byte) (x4 : Option ℕ) (x5 : Word) (x6 : State) : (transmit x0 x1 x2 x3 x4 x5 x6).fuses = x6.fuses := by
  unfold transmit
  repeat' first | with_reducible rfl | simp only [↓wlanEnqueue_fuses, ↓emit_fuses, ↓macsecOut_fuses, ↓tapTransmit_fuses, ↓bump_fuses, ↓bumpBy_fuses] | split
theorem sendMedia_fuses (x0 : ℕ) (x1 : ℕ) (x2 : ℕ) (x3 : Bool) (x4 : State) : (sendMedia x0 x1 x2 x3 x4).2.fuses = x4.fuses := by
  unfold sendMedia
  repeat' first | with_reducible rfl | simp only [↓bump_fuses, ↓cipherSend_fuses, ↓transmit_fuses] | split
theorem sendMedia_fuses' {x0 : ℕ} {x1 : ℕ} {x2 : ℕ} {x3 : Bool} {x4 : State} {r : State} {v : Bool} (h : sendMedia x0 x1 x2 x3 x4 = (v, r)) : r.fuses = x4.fuses := by
  have := sendMedia_fuses x0 x1 x2 x3 x4; rw [h] at this; exact this
theorem addLeg_fuses (x0 : ℕ) (x1 : Leg) (x2 : State) : (addLeg x0 x1 x2).fuses = x2.fuses := by
  unfold addLeg
  repeat' first | with_reducible rfl | simp only [↓placeDecode_fuses] | split
theorem legCreatePlan_fuses (x0 : Cmd) (x1 : State) (t : State) : ((legCreatePlan x0 x1).run t).st.fuses = t.fuses := by
  unfold legCreatePlan
  repeat' first | with_reducible rfl | simp only [↓Done_st_ok, ↓Done_st_okWith, ↓addLeg_fuses] | split
theorem legPlan_fuses (op : Nat) (c : Cmd) (s : State) (v : List LegState) (b : Bool) (run : Nat → State → Done) (t : State)
    (h : ∀ i t, (run i t).st.fuses = t.fuses) : ((legPlan op c s v b run).run t).st.fuses = t.fuses := h ..
theorem startLeg_fuses (x0 : ℕ) (x1 : State) : (startLeg x0 x1).fuses = x1.fuses := by unfold startLeg; simp only [↓refade_fuses, ↓idleJitter_fuses, ↓modLeg_fuses]
theorem legStartPlan_fuses (x0 : Cmd) (x1 : State) (t : State) : ((legStartPlan x0 x1).run t).st.fuses = t.fuses := by
  unfold legStartPlan
  repeat' first
    | with_reducible rfl
    | simp only [↓Done_st_ok, ↓startLeg_fuses]
    | split
    | with_reducible refine (legPlan_fuses _ _ _ _ _ _ _ (fun _ _ => ?_)).trans ?_
    | with_reducible refine (foldl_fuses _ _ _ (fun _ _ => ?_)).trans ?_
    | with_reducible refine (foldl_snd_fuses _ _ _ (fun _ _ => ?_)).trans ?_
theorem legHoldPlan_fuses (x0 : Cmd) (x1 : State) (t : State) : ((legHoldPlan x0 x1).run t).st.fuses = t.fuses := by
  unfold legHoldPlan
  repeat' first
    | with_reducible rfl
    | simp only [↓Done_st_ok, ↓refade_fuses, ↓idleJitter_fuses, ↓modLeg_fuses]
    | split
    | with_reducible refine (legPlan_fuses _ _ _ _ _ _ _ (fun _ _ => ?_)).trans ?_
    | with_reducible refine (foldl_fuses _ _ _ (fun _ _ => ?_)).trans ?_
    | with_reducible refine (foldl_snd_fuses _ _ _ (fun _ _ => ?_)).trans ?_
theorem legResumePlan_fuses (x0 : Cmd) (x1 : State) (t : State) : ((legResumePlan x0 x1).run t).st.fuses = t.fuses := by
  unfold legResumePlan
  repeat' first
    | with_reducible rfl
    | simp only [↓Done_st_ok, ↓startLeg_fuses]
    | split
    | with_reducible refine (legPlan_fuses _ _ _ _ _ _ _ (fun _ _ => ?_)).trans ?_
    | with_reducible refine (foldl_fuses _ _ _ (fun _ _ => ?_)).trans ?_
    | with_reducible refine (foldl_snd_fuses _ _ _ (fun _ _ => ?_)).trans ?_
theorem dropIdleEntries_fuses (x0 : ℕ) (x1 : State) : (dropIdleEntries x0 x1).fuses = x1.fuses := (rfl)
theorem legClosePlan_fuses (x0 : Cmd) (x1 : State) (t : State) : ((legClosePlan x0 x1).run t).st.fuses = t.fuses := by
  unfold legClosePlan
  repeat' first
    | with_reducible rfl
    | simp only [↓Done_st_defer, ↓legAdvance_fuses, ↓dropIdleEntries_fuses, ↓refade_fuses, ↓modLeg_fuses]
    | split
    | with_reducible refine (legPlan_fuses _ _ _ _ _ _ _ (fun _ _ => ?_)).trans ?_
    | with_reducible refine (foldl_fuses _ _ _ (fun _ _ => ?_)).trans ?_
    | with_reducible refine (foldl_snd_fuses _ _ _ (fun _ _ => ?_)).trans ?_
theorem legDrainComplete_fuses (x0 : ℕ) (x1 : State) : (legDrainComplete x0 x1).fuses = x1.fuses := by
  unfold legDrainComplete
  repeat' first | with_reducible rfl | simp only [↓legAdvance_fuses, ↓freeLeg_fuses] | split

end Sys2Proof.Machine
end

