-- ==== Sys2Proof/Laws/FuseFrame3.lean ====
section
/-! SUPPORT. Laws/FuseFrame3.lean: what the operations of Machine/ leave in the fuse store: one lemma an
operation, part 3. Only the operations of Machine/Firmware.lean and what plans them from outside write fuses. -/

set_option linter.all false

namespace Sys2Proof.Machine

theorem applyModify_fuses (x0 : ℕ) (x1 : Leg) (x2 : State) : (applyModify x0 x1 x2).fuses = x2.fuses := by
  unfold applyModify
  repeat' first | with_reducible rfl | simp only [↓modLeg_fuses, ↓placeDecode_fuses, ↓modJit_fuses, ↓reclass_fuses] | split
theorem legModifyPlan_fuses (x0 : Cmd) (x1 : State) (t : State) : ((legModifyPlan x0 x1).run t).st.fuses = t.fuses := by
  unfold legModifyPlan
  repeat' first | with_reducible rfl | simp only [↓Done_st_ok, ↓applyModify_fuses] | split
theorem legQueryPlan_fuses (x0 : Cmd) (x1 : State) (t : State) : ((legQueryPlan x0 x1).run t).st.fuses = t.fuses := (rfl)
theorem confCreatePlan_fuses (x0 : Cmd) (x1 : State) (t : State) : ((confCreatePlan x0 x1).run t).st.fuses = t.fuses := by
  unfold confCreatePlan
  repeat' first | with_reducible rfl | simp only [↓Done_st_ok, ↓Done_st_okWith] | split |
    with_reducible refine (foldl_fuses _ _ _ (fun _ _ => ?_)).trans ?_
theorem confJoinPlan_fuses (x0 : Cmd) (x1 : State) (t : State) : ((confJoinPlan x0 x1).run t).st.fuses = t.fuses := by unfold confJoinPlan; simp only [↓Done_st_okWith, ↓joinConf_fuses]
theorem confLeavePlan_fuses (x0 : Cmd) (x1 : State) (t : State) : ((confLeavePlan x0 x1).run t).st.fuses = t.fuses := by unfold confLeavePlan; simp only [↓Done_st_ok, ↓leaveConf_fuses]
theorem closeConf_fuses (x0 : ℕ) (x1 : State) : (closeConf x0 x1).fuses = x1.fuses := by
  unfold closeConf
  repeat' first | with_reducible rfl | simp only [↓holdLeg_fuses, ↓legAdvance_fuses, ↓modLeg_fuses, ↓leaveLeases_fuses, ↓finishRunning_fuses] | split |
    with_reducible refine (foldl_fuses _ _ _ (fun _ _ => ?_)).trans ?_
theorem confClosePlan_fuses (x0 : Cmd) (x1 : State) (t : State) : ((confClosePlan x0 x1).run t).st.fuses = t.fuses := by unfold confClosePlan; simp only [↓Done_st_ok, ↓closeConf_fuses]
theorem confQueryPlan_fuses (x0 : Cmd) (x1 : State) (t : State) : ((confQueryPlan x0 x1).run t).st.fuses = t.fuses := (rfl)
theorem modDec_fuses (x0 : ℕ) (x1 : Dec → Dec) (x2 : State) : (modDec x0 x1 x2).fuses = x2.fuses := (rfl)
theorem bumpDec_fuses (x0 : ℕ) (x1 : ℕ) (x2 : ℕ) (x3 : State) : (bumpDec x0 x1 x2 x3).fuses = x3.fuses := (rfl)
theorem modStream_fuses (x0 : ℕ) (x1 : VStream → VStream) (x2 : State) : (modStream x0 x1 x2).fuses = x2.fuses := (rfl)
theorem modKreq_fuses (x0 : ℕ) (x1 : KeyReq → KeyReq) (x2 : State) : (modKreq x0 x1 x2).fuses = x2.fuses := (rfl)
theorem sendKreq_fuses (x0 : ℕ) (x1 : ℕ) (x2 : List Word) (x3 : State) : (sendKreq x0 x1 x2 x3).fuses = x3.fuses := by
  unfold sendKreq
  repeat' first | with_reducible rfl | simp only [↓modKreq_fuses, ↓bump_fuses, ↓modDec_fuses, ↓modStream_fuses, ↓takeFree_fuses, ↓sendMedia_fuses] | split |
    with_reducible refine (foldl_fuses _ _ _ (fun _ _ => ?_)).trans ?_
theorem requestKey_fuses (x0 : ℕ) (x1 : ℕ) (x2 : Word) (x3 : State) : (requestKey x0 x1 x2 x3).fuses = x3.fuses := by
  unfold requestKey
  repeat' first | with_reducible rfl | simp only [↓sendKreq_fuses, ↓modKreq_fuses] | split
theorem cancelKey_fuses (x0 : ℕ) (x1 : Word) (x2 : State) : (cancelKey x0 x1 x2).fuses = x2.fuses := by unfold cancelKey; split <;> simp only [↓modKreq_fuses]
theorem takeFir_fuses (x0 : ℕ) (x1 : State) : (takeFir x0 x1).2.fuses = x1.fuses := (rfl)
theorem takeFir_fuses' {x0 : ℕ} {x1 : State} {r : State} {v : ℕ} (h : takeFir x0 x1 = (v, r)) : r.fuses = x1.fuses := by
  have := takeFir_fuses x0 x1; rw [h] at this; exact this
theorem feedEncs_fuses (x0 : Word) (x1 : ℕ) (x2 : Bool) (x3 : Bool) (x4 : State) : (feedEncs x0 x1 x2 x3 x4).fuses = x4.fuses := (rfl)
theorem placeDec_fuses (x0 : ℕ) (x1 : ℕ) (x2 : State) : (placeDec x0 x1 x2).fuses = x2.fuses := by
  unfold placeDec
  repeat' first | with_reducible rfl | simp only [↓placeUser_fuses, ↓modDec_fuses] | split |
    with_reducible refine (foldl_fuses _ _ _ (fun _ _ => ?_)).trans ?_
theorem clearWindow_fuses (x0 : List ℕ) (x1 : ℕ) (x2 : State) : (clearWindow x0 x1 x2).fuses = x2.fuses := by
  unfold clearWindow
  repeat' first | with_reducible rfl | simp only [↓setRg_fuses] | split |
    with_reducible refine (foldl_fuses _ _ _ (fun _ _ => ?_)).trans ?_
theorem askKey_fuses (x0 : ℕ) (x1 : State) : (askKey x0 x1).fuses = x1.fuses := by
  unfold askKey
  repeat' first | with_reducible rfl | simp only [↓requestKey_fuses] | split
theorem decCreatePlan_fuses (x0 : Cmd) (x1 : State) (t : State) : ((decCreatePlan x0 x1).run t).st.fuses = t.fuses := by
  unfold decCreatePlan
  repeat' first | with_reducible rfl | simp only [↓Done_st_ok, ↓Done_st_okWith, ↓clearWindow_fuses, ↓askKey_fuses, ↓placeDec_fuses] | split
theorem restartDec_fuses (x0 : ℕ) (x1 : State) : (restartDec x0 x1).fuses = x1.fuses := by
  unfold restartDec
  repeat' first | with_reducible rfl | simp only [↓cancelKey_fuses, ↓modDec_fuses] | split
theorem applyDec_fuses (x0 : ℕ) (x1 : Dec) (x2 : State) : (applyDec x0 x1 x2).fuses = x2.fuses := by
  unfold applyDec
  repeat' first | with_reducible rfl | simp only [↓restartDec_fuses, ↓modDec_fuses, ↓placeDec_fuses, ↓askKey_fuses] | split
theorem decModifyPlan_fuses (x0 : Cmd) (x1 : State) (t : State) : ((decModifyPlan x0 x1).run t).st.fuses = t.fuses := by unfold decModifyPlan; simp only [↓Done_st_ok, ↓applyDec_fuses]
theorem freeDec_fuses (x0 : ℕ) (x1 : State) : (freeDec x0 x1).fuses = x1.fuses := by
  unfold freeDec
  repeat' first | with_reducible rfl | simp only [↓cancelKey_fuses, ↓leaveLeases_fuses, ↓finishRunning_fuses] | split
theorem decDeletePlan_fuses (x0 : Cmd) (x1 : State) (t : State) : ((decDeletePlan x0 x1).run t).st.fuses = t.fuses := by
  unfold decDeletePlan
  repeat' first | with_reducible rfl | simp only [↓Done_st_defer, ↓modDec_fuses, ↓freeDec_fuses] | split
theorem decQueryPlan_fuses (x0 : Cmd) (x1 : State) (t : State) : ((decQueryPlan x0 x1).run t).st.fuses = t.fuses := (rfl)
theorem decArrive_fuses (x0 : ℕ) (x1 : ℕ) (x2 : ℕ) (x3 : Bool) (x4 : Bool) (x5 : State) : (decArrive x0 x1 x2 x3 x4 x5).fuses = x5.fuses := by
  unfold decArrive
  repeat' first | with_reducible rfl | simp only [↓bump_fuses, ↓modDec_fuses] | split
theorem reorderTimeout_fuses (x0 : ℕ) (x1 : State) : (reorderTimeout x0 x1).fuses = x1.fuses := by unfold reorderTimeout; split <;> simp only [↓tickTo_fuses, ↓modDec_fuses]
theorem decLimit_fuses (x0 : ℕ) (x1 : ℕ) (x2 : ℕ) (x3 : PicFacts) (x4 : State) : (decLimit x0 x1 x2 x3 x4).fuses = x4.fuses := by
  unfold decLimit
  repeat' first | with_reducible rfl | simp only [↓raiseUnless_fuses, ↓modDec_fuses] | split
theorem writePic_fuses (x0 : ℕ) (x1 : Pic) (x2 : State) : (writePic x0 x1 x2).fuses = x2.fuses := by
  unfold writePic
  repeat' first | with_reducible rfl | simp only [↓bumpDec_fuses, ↓modDec_fuses, ↓feedEncs_fuses, ↓setRg_fuses] | split
theorem openGap_fuses (x0 : ℕ) (x1 : ℕ) (x2 : ℕ) (x3 : ℕ) (x4 : State) : (openGap x0 x1 x2 x3 x4).fuses = x4.fuses := by
  unfold openGap
  repeat' first | with_reducible rfl | simp only [↓raiseUnless_fuses, ↓modDec_fuses, ↓writePic_fuses, ↓bumpDec_fuses, ↓askKey_fuses] | split
theorem settleTaint_fuses (x0 : ℕ) (x1 : ℕ) (x2 : State) : (settleTaint x0 x1 x2).fuses = x2.fuses := by
  unfold settleTaint
  repeat' first | with_reducible rfl | simp only [↓modDec_fuses, ↓cancelKey_fuses] | split
theorem decodeAllowed_fuses (x0 : ℕ) (x1 : DecPic) (x2 : PicFacts) (x3 : State) : (decodeAllowed x0 x1 x2 x3).fuses = x3.fuses := by
  unfold decodeAllowed
  repeat' first | with_reducible rfl | simp only [↓openGap_fuses, ↓bumpDec_fuses, ↓writePic_fuses, ↓modDec_fuses, ↓settleTaint_fuses] | split
theorem beyondLimit_fuses (x0 : ℕ) (x1 : ℕ) (x2 : ℕ) (x3 : DecPic) (x4 : PicFacts) (x5 : State) : (beyondLimit x0 x1 x2 x3 x4 x5).fuses = x5.fuses := by
  unfold beyondLimit
  repeat' first | with_reducible rfl | simp only [↓decLimit_fuses, ↓bump_fuses, ↓openGap_fuses] | split
theorem decodeOne_fuses (x0 : ℕ) (x1 : DecPic) (x2 : PicFacts) (x3 : State) : (decodeOne x0 x1 x2 x3).fuses = x3.fuses := by
  unfold decodeOne
  repeat' first
    | with_reducible rfl
    | (simp only [↓bump_fuses, ↓beyondLimit_fuses, ↓modDec_fuses, ↓decLimit_fuses, ↓bumpDec_fuses, ↓decodeAllowed_fuses, ↓trackMax_fuses]; done)
    | split
    | with_reducible refine (foldl_fuses _ _ _ (fun _ _ => ?_)).trans ?_
    | with_reducible refine (foldl_snd_fuses _ _ _ (fun _ _ => ?_)).trans ?_
    | simp only [↓bump_fuses, ↓beyondLimit_fuses, ↓modDec_fuses, ↓decLimit_fuses, ↓bumpDec_fuses, ↓decodeAllowed_fuses, ↓trackMax_fuses]
theorem pictureDecode_fuses (x0 : PicFacts) (x1 : State) : (pictureDecode x0 x1).fuses = x1.fuses := by
  unfold pictureDecode
  repeat' first | with_reducible rfl | simp only [↓tickToNs_fuses, ↓decodeOne_fuses, ↓modDec_fuses, ↓freeDec_fuses] | split
theorem keyRequestSend_fuses (x0 : ℕ) (x1 : ℕ) (x2 : State) : (keyRequestSend x0 x1 x2).fuses = x2.fuses := by
  unfold keyRequestSend
  repeat' first | with_reducible rfl | simp only [↓tickTo_fuses, ↓sendKreq_fuses, ↓requestKey_fuses, ↓takeFir_fuses] | split
theorem firRepeat_fuses (x0 : ℕ) (x1 : State) : (firRepeat x0 x1).fuses = x1.fuses := by
  unfold firRepeat
  repeat' first | with_reducible rfl | simp only [↓tickTo_fuses, ↓takeFir_fuses, ↓modDec_fuses, ↓requestKey_fuses] | split
theorem decNoKey_fuses (x0 : ℕ) (x1 : State) : (decNoKey x0 x1).fuses = x1.fuses := by
  unfold decNoKey
  repeat' first | with_reducible rfl | simp only [↓tickTo_fuses, ↓raise_fuses, ↓modDec_fuses] | split
theorem mixPlanPlan_fuses (x0 : Cmd) (x1 : State) (t : State) : ((mixPlanPlan x0 x1).run t).st.fuses = t.fuses := (rfl)
theorem applyRole_fuses (x0 : ℕ) (x1 : ℕ) (x2 : List Byte) (x3 : State) : (applyRole x0 x1 x2 x3).fuses = x3.fuses := by unfold applyRole; simp only [↓modLeg_fuses, ↓modMix_fuses, ↓refade_fuses, ↓reclass_fuses]
theorem mixRolePlan_fuses (x0 : Cmd) (x1 : State) (t : State) : ((mixRolePlan x0 x1).run t).st.fuses = t.fuses := by unfold mixRolePlan; simp only [↓Done_st_okWith, ↓applyRole_fuses]
theorem applyRoute_fuses (x0 : ℕ) (x1 : ℕ) (x2 : State) (x3 : Route) : (applyRoute x0 x1 x2 x3).fuses = x2.fuses := by unfold applyRoute; split <;> simp only [↓modBus_fuses]
theorem mixRoutePlan_fuses (x0 : Cmd) (x1 : State) (t : State) : ((mixRoutePlan x0 x1).run t).st.fuses = t.fuses := by
  unfold mixRoutePlan
  repeat' first | with_reducible rfl | simp only [↓Done_st_reply, ↓Done_st_ok, ↓applyRoute_fuses] | split |
    with_reducible refine (foldl_fuses _ _ _ (fun _ _ => ?_)).trans ?_
theorem mixParamPlan_fuses (x0 : Cmd) (x1 : State) (t : State) : ((mixParamPlan x0 x1).run t).st.fuses = t.fuses := (rfl)
theorem mixQueryPlan_fuses (x0 : Cmd) (x1 : State) (t : State) : ((mixQueryPlan x0 x1).run t).st.fuses = t.fuses := (rfl)
theorem modComp_fuses (x0 : ℕ) (x1 : Comp → Comp) (x2 : State) : (modComp x0 x1 x2).fuses = x2.fuses := (rfl)
theorem placeComp_fuses (x0 : ℕ) (x1 : ℕ) (x2 : State) : (placeComp x0 x1 x2).fuses = x2.fuses := by
  unfold placeComp
  repeat' first | with_reducible rfl | simp only [↓placeUser_fuses, ↓modComp_fuses] | split |
    with_reducible refine (foldl_fuses _ _ _ (fun _ _ => ?_)).trans ?_
theorem cmpCreatePlan_fuses (x0 : Cmd) (x1 : State) (t : State) : ((cmpCreatePlan x0 x1).run t).st.fuses = t.fuses := by
  unfold cmpCreatePlan
  repeat' first | with_reducible rfl | simp only [↓Done_st_ok, ↓Done_st_okWith, ↓placeComp_fuses, ↓clearWindow_fuses] | split
theorem commitChange_fuses (i : Nat) (c : Cmd) (op : LayoutOp) (a : Option Nat) (s : State) :
    (commitChange i c op a s).st.fuses = s.fuses := by
  unfold commitChange
  extract_lets x
  cases a with
  | none => exact modComp_fuses ..
  | some f =>
    by_cases h : decide (f < x.frame) = true
    · simp only [h, if_true]; rfl
    · simp only [h, if_false]; exact modComp_fuses ..
theorem entryErr_fuses (x0 : State) (x1 : ℕ × Err) : (entryErr x0 x1).st.fuses = x0.fuses := (rfl)
theorem cmpLayoutPlan_fuses (x0 : Cmd) (x1 : State) (t : State) : ((cmpLayoutPlan x0 x1).run t).st.fuses = t.fuses := by
  unfold cmpLayoutPlan
  repeat' first | with_reducible rfl | simp only [↓entryErr_fuses, ↓commitChange_fuses] | split
theorem cmpTilePlan_fuses (x0 : Cmd) (x1 : State) (t : State) : ((cmpTilePlan x0 x1).run t).st.fuses = t.fuses := by
  unfold cmpTilePlan
  repeat' first | with_reducible rfl | simp only [↓entryErr_fuses, ↓commitChange_fuses] | split
theorem cmpOverlayPlan_fuses (x0 : Cmd) (x1 : State) (t : State) : ((cmpOverlayPlan x0 x1).run t).st.fuses = t.fuses := by
  unfold cmpOverlayPlan
  repeat' first | with_reducible rfl | simp only [↓entryErr_fuses, ↓commitChange_fuses] | split
theorem freeComp_fuses (x0 : ℕ) (x1 : State) : (freeComp x0 x1).fuses = x1.fuses := by
  unfold freeComp
  repeat' first | with_reducible rfl | simp only [↓leaveLeases_fuses, ↓finishAll_fuses, ↓finishRunning_fuses] | split
theorem cmpDeletePlan_fuses (x0 : Cmd) (x1 : State) (t : State) : ((cmpDeletePlan x0 x1).run t).st.fuses = t.fuses := by
  unfold cmpDeletePlan
  repeat' first | with_reducible rfl | simp only [↓Done_st_defer, ↓modComp_fuses, ↓freeComp_fuses] | split
theorem loseTile_fuses (x0 : ℕ) (x1 : ℕ) (x2 : Tile) (x3 : ℕ) (x4 : State) : (loseTile x0 x1 x2 x3 x4).fuses = x4.fuses := by unfold loseTile; simp only [↓modComp_fuses, ↓raiseUnless_fuses, ↓bump_fuses]
theorem showTile_fuses (x0 : ℕ) (x1 : ℕ) (x2 : State) (x3 : ℕ) : (showTile x0 x1 x2 x3).fuses = x2.fuses := by
  unfold showTile
  repeat' first | with_reducible rfl | simp only [↓modComp_fuses, ↓loseTile_fuses, ↓bump_fuses] | split
theorem composeAt_fuses (x0 : ℕ) (x1 : ℕ) (x2 : State) : (composeAt x0 x1 x2).fuses = x2.fuses := by
  unfold composeAt
  repeat' first | with_reducible rfl | simp only [↓modComp_fuses, ↓showTile_fuses, ↓trackMax_fuses, ↓feedEncs_fuses, ↓bump_fuses, ↓raise_fuses, ↓finishRunning_fuses] | split |
    with_reducible refine (foldl_fuses _ _ _ (fun _ _ => ?_)).trans ?_
theorem compositionInstant_fuses (x0 : ℕ) (x1 : ℕ) (x2 : State) : (compositionInstant x0 x1 x2).fuses = x2.fuses := by
  unfold compositionInstant
  repeat' first | with_reducible rfl | simp only [↓composeAt_fuses, ↓tickToNs_fuses, ↓freeComp_fuses] | split
theorem cmpSourceLost_fuses (x0 : ℕ) (x1 : ℕ) (x2 : State) : (cmpSourceLost x0 x1 x2).fuses = x2.fuses := by
  unfold cmpSourceLost
  repeat' first | with_reducible rfl | simp only [↓tickToNs_fuses, ↓loseTile_fuses] | split
theorem cmpQueryPlan_fuses (x0 : Cmd) (x1 : State) (t : State) : ((cmpQueryPlan x0 x1).run t).st.fuses = t.fuses := (rfl)
theorem modEnc_fuses (x0 : ℕ) (x1 : Enc → Enc) (x2 : State) : (modEnc x0 x1 x2).fuses = x2.fuses := (rfl)
theorem placeEnc_fuses (x0 : ℕ) (x1 : ℕ) (x2 : State) : (placeEnc x0 x1 x2).fuses = x2.fuses := by
  unfold placeEnc
  repeat' first | with_reducible rfl | simp only [↓placeUser_fuses, ↓modEnc_fuses] | split |
    with_reducible refine (foldl_fuses _ _ _ (fun _ _ => ?_)).trans ?_
theorem encCreatePlan_fuses (x0 : Cmd) (x1 : State) (t : State) : ((encCreatePlan x0 x1).run t).st.fuses = t.fuses := by
  unfold encCreatePlan
  repeat' first | with_reducible rfl | simp only [↓Done_st_ok, ↓Done_st_okWith, ↓placeEnc_fuses, ↓clearWindow_fuses] | split
theorem requestEncKey_fuses (x0 : ℕ) (x1 : List ℕ) (x2 : ℕ) (x3 : State) : (requestEncKey x0 x1 x2 x3).fuses = x3.fuses := (rfl)
theorem forceKey_fuses (x0 : ℕ) (x1 : ℕ) (x2 : State) : (forceKey x0 x1 x2).fuses = x2.fuses := (rfl)
theorem applyEnc_fuses (x0 : ℕ) (x1 : Enc) (x2 : State) : (applyEnc x0 x1 x2).fuses = x2.fuses := by
  unfold applyEnc
  repeat' first | with_reducible rfl | simp only [↓modEnc_fuses, ↓placeEnc_fuses, ↓forceKey_fuses] | split
theorem encModifyPlan_fuses (x0 : Cmd) (x1 : State) (t : State) : ((encModifyPlan x0 x1).run t).st.fuses = t.fuses := by unfold encModifyPlan; simp only [↓Done_st_ok, ↓applyEnc_fuses]
theorem encKeyPlan_fuses (x0 : Cmd) (x1 : State) (t : State) : ((encKeyPlan x0 x1).run t).st.fuses = t.fuses := by
  unfold encKeyPlan
  repeat' first | with_reducible rfl | simp only [↓Done_st_defer, ↓modEnc_fuses, ↓forceKey_fuses, ↓bump_fuses] | split
theorem freeEnc_fuses (x0 : ℕ) (x1 : State) : (freeEnc x0 x1).fuses = x1.fuses := by
  unfold freeEnc
  repeat' first | with_reducible rfl | simp only [↓leaveLeases_fuses, ↓finishAll_fuses, ↓finishRunning_fuses] | split
theorem encDeletePlan_fuses (x0 : Cmd) (x1 : State) (t : State) : ((encDeletePlan x0 x1).run t).st.fuses = t.fuses := by
  unfold encDeletePlan
  repeat' first | with_reducible rfl | simp only [↓Done_st_defer, ↓modEnc_fuses, ↓freeEnc_fuses] | split
theorem encKeyEvent_fuses (x0 : ℕ) (x1 : ℕ) (x2 : ℕ) (x3 : ℕ) (x4 : State) : (encKeyEvent x0 x1 x2 x3 x4).fuses = x4.fuses := by unfold encKeyEvent; simp only [↓raiseUnless_fuses]
theorem encFloorEvent_fuses (x0 : ℕ) (x1 : ℕ) (x2 : ℕ) (x3 : ℕ) (x4 : RowsDone) (x5 : ℕ) (x6 : State) : (encFloorEvent x0 x1 x2 x3 x4 x5 x6).fuses = x6.fuses := by
  unfold encFloorEvent
  repeat' first | with_reducible rfl | simp only [↓raiseUnless_fuses, ↓modEnc_fuses] | split
theorem paceLayer_fuses (x0 : ℕ) (x1 : ℕ) (x2 : ℕ) (x3 : ℕ) (x4 : ℕ) (x5 : State) : (paceLayer x0 x1 x2 x3 x4 x5).fuses = x5.fuses := (rfl)
theorem codeLayer_fuses (i t : Nat) (p : SrcPic) (r : Bool) (keys points : List Nat) (facts : List (List (Nat × Nat × Nat))) (s : State)
    (l : Nat) : (codeLayer i t p r keys points facts s l).fuses = s.fuses := by
  unfold codeLayer
  extract_lets e key rep t1 rows floor fl b base target cap d excess overflow status s1 s2 s3 s4 s5 s6 s7 s8 s9
  have h1 : s1.fuses = s.fuses := modEnc_fuses ..
  have h2 : s2.fuses = s1.fuses := by unfold s2; simp only [↓bump_fuses, ↓bumpBy_fuses]
  have h3 : s3.fuses = s2.fuses := by
    unfold s3
    split
    · simp only [↓bump_fuses]
    · rfl
  have h4 : s4.fuses = s3.fuses := by
    unfold s4
    split
    · simp only [↓bump_fuses]
    · rfl
  have h5 : s5.fuses = s4.fuses := by
    unfold s5
    split
    · simp only [↓bump_fuses]
    · rfl
  have h6 : s6.fuses = s5.fuses := bumpBy_fuses ..
  have h7 : s7.fuses = s6.fuses := by
    unfold s7
    split
    · exact encFloorEvent_fuses ..
    · rfl
  have h8 : s8.fuses = s7.fuses := by
    unfold s8
    split
    · exact requestEncKey_fuses ..
    · rfl
  rw [paceLayer_fuses]
  exact h8.trans (h7.trans (h6.trans (h5.trans (h4.trans (h3.trans (h2.trans h1))))))
theorem serveWaiters_fuses (x0 : ℕ) (x1 : ℕ) (x2 : ℕ × ℕ → Bool) (x3 : State) : (serveWaiters x0 x1 x2 x3).fuses = x3.fuses := by
  unfold serveWaiters
  repeat' first | with_reducible rfl | simp only [↓finishRunning_fuses, ↓modEnc_fuses] | split |
    with_reducible refine (foldl_fuses _ _ _ (fun _ _ => ?_)).trans ?_
theorem encodeOne_fuses (x0 : ℕ) (x1 : SrcPic) (x2 : List (List (ℕ × ℕ × ℕ))) (x3 : State) : (encodeOne x0 x1 x2 x3).fuses = x3.fuses := by
  unfold encodeOne
  repeat' first | with_reducible rfl | simp only [↓codeLayer_fuses, ↓modEnc_fuses, ↓encKeyEvent_fuses, ↓serveWaiters_fuses] | split |
    with_reducible refine (foldl_fuses _ _ _ (fun _ _ => ?_)).trans ?_
theorem encodePicture_fuses (x0 : EncFacts) (x1 : State) : (encodePicture x0 x1).fuses = x1.fuses := by
  unfold encodePicture
  repeat' first | with_reducible rfl | simp only [↓tickToNs_fuses, ↓encodeOne_fuses, ↓modEnc_fuses, ↓bump32_fuses, ↓trackMax_fuses, ↓freeEnc_fuses] | split
theorem encQueryPlan_fuses (x0 : Cmd) (x1 : State) (t : State) : ((encQueryPlan x0 x1).run t).st.fuses = t.fuses := (rfl)
theorem noteLate_fuses (x0 : Word) (x1 : Option ℕ) (x2 : ℕ) (x3 : ℕ) (x4 : State) : (noteLate x0 x1 x2 x3 x4).fuses = x4.fuses := by unfold noteLate; split <;> simp only [↓bump_fuses, ↓raise_fuses]
theorem passInsert_fuses (x0 : ℕ × ℕ) (x1 : ℕ) (x2 : ℕ) (x3 : List ℤ) (x4 : ℕ) (x5 : State) : (passInsert x0 x1 x2 x3 x4 x5).2.fuses = x5.fuses := by
  unfold passInsert
  repeat' first | with_reducible rfl | simp only [↓bump_fuses, ↓raiseUnless_fuses, ↓modTask_fuses, ↓noteLate_fuses] | split
theorem passInsert_fuses' {x0 : ℕ × ℕ} {x1 : ℕ} {x2 : ℕ} {x3 : List ℤ} {x4 : ℕ} {x5 : State} {r : State} {v : List ℤ} (h : passInsert x0 x1 x2 x3 x4 x5 = (v, r)) : r.fuses = x5.fuses := by
  have := passInsert_fuses x0 x1 x2 x3 x4 x5; rw [h] at this; exact this
theorem passInserts_fuses (o : Nat × Nat) (n xf : Nat) (l : List Nat) (x : List Int) (s : State) :
    (passInserts o n xf l x s).2.fuses = s.fuses :=
  foldl_snd_fuses _ _ _ (fun _ _ => passInsert_fuses ..)
theorem passInserts_fuses' {x0 : ℕ × ℕ} {x1 : ℕ} {x2 : ℕ} {x3 : List ℕ} {x4 : List ℤ} {x5 : State} {r : State} {v : List ℤ} (h : passInserts x0 x1 x2 x3 x4 x5 = (v, r)) : r.fuses = x5.fuses := by
  have := passInserts_fuses x0 x1 x2 x3 x4 x5; rw [h] at this; exact this
theorem pushInserts_fuses (x0 : ℕ) (x1 : State) : (pushInserts x0 x1).fuses = x1.fuses := by
  unfold pushInserts
  repeat' first | with_reducible rfl | simp only [↓updateReady_fuses, ↓modTask_fuses] | split |
    with_reducible refine (foldl_fuses _ _ _ (fun _ _ => ?_)).trans ?_
theorem dropInserts_fuses (x0 : State) : (dropInserts x0).fuses = x0.fuses := (rfl)
theorem formBus_fuses (x0 : ℕ) (x1 : Tbl (List ℤ)) (x2 : ℕ) (x3 : State) : (formBus x0 x1 x2 x3).fuses = x3.fuses := by
  unfold formBus
  repeat' first | with_reducible rfl | simp only [↓bump_fuses, ↓bumpBy_fuses, ↓passInserts_fuses, ↓modBus_fuses, ↓raiseUnless_fuses] | split
theorem formBuses_fuses (x0 : ℕ) (x1 : Tbl (List ℤ)) (x2 : State) : (formBuses x0 x1 x2).fuses = x2.fuses := by
  unfold formBuses
  repeat' first | with_reducible rfl | simp only [↓formBus_fuses] | split |
    with_reducible refine (foldl_fuses _ _ _ (fun _ _ => ?_)).trans ?_
theorem formOutput_fuses (x0 : Tbl (List ℤ)) (x1 : ℕ) (x2 : ℕ) (x3 : State) : (formOutput x0 x1 x2 x3).fuses = x3.fuses := by
  unfold formOutput
  repeat' first | with_reducible rfl | simp only [↓bumpBy_fuses, ↓modMix_fuses] | split
theorem formOutputs_fuses (x0 : Tbl (List ℤ)) (x1 : State) : (formOutputs x0 x1).fuses = x1.fuses := by
  unfold formOutputs
  repeat' first | with_reducible rfl | simp only [↓formOutput_fuses, ↓modMix_fuses] | split |
    with_reducible refine (foldl_fuses _ _ _ (fun _ _ => ?_)).trans ?_
theorem noteInput_fuses (x0 : ℕ) (x1 : List LegInput) (x2 : ℤ) (x3 : List ℤ) (x4 : ℕ) (x5 : State) : (noteInput x0 x1 x2 x3 x4 x5).fuses = x5.fuses := (rfl)
theorem takeInputs_fuses (n : Nat) (inputs : List LegInput) (s : State) : (takeInputs n inputs s).2.fuses = s.fuses := by
  unfold takeInputs
  refine foldl_snd_fuses _ _ _ (fun a e => foldl_snd_fuses _ _ _ (fun a i => ?_))
  show (passInserts _ _ _ _ _ _).2.fuses = _
  rw [passInserts_fuses, noteInput_fuses]
  split
  · exact noteLate_fuses ..
  · rfl
theorem takeInputs_fuses' {x0 : ℕ} {x1 : List LegInput} {x2 : State} {r : State} {v : Tbl (List ℤ)} (h : takeInputs x0 x1 x2 = (v, r)) : r.fuses = x2.fuses := by
  have := takeInputs_fuses x0 x1 x2; rw [h] at this; exact this
theorem passRamps_fuses (x0 : State) : (passRamps x0).fuses = x0.fuses := (rfl)
theorem startRamps_fuses (x0 : State) : (startRamps x0).fuses = x0.fuses := (rfl)
theorem swapBus_fuses (x0 : ℕ) (x1 : ℕ) (x2 : State) : (swapBus x0 x1 x2).fuses = x2.fuses := by
  unfold swapBus
  repeat' first | with_reducible rfl | simp only [↓modBus_fuses, ↓raiseUnless_fuses, ↓bump_fuses, ↓finishRunning_fuses] | split
theorem swapBuses_fuses (x0 : ℕ) (x1 : State) : (swapBuses x0 x1).fuses = x1.fuses := by
  unfold swapBuses
  repeat' first | with_reducible rfl | simp only [↓swapBus_fuses] | split |
    with_reducible refine (foldl_fuses _ _ _ (fun _ _ => ?_)).trans ?_
theorem tickTasks_fuses (x0 : ℕ) (x1 : State) : (tickTasks x0 x1).fuses = x1.fuses := by
  unfold tickTasks
  repeat' first | with_reducible rfl | simp only [↓updateReady_fuses, ↓modTask_fuses] | split |
    with_reducible refine (foldl_fuses _ _ _ (fun _ _ => ?_)).trans ?_
theorem closeLegs_fuses (x0 : State) : (closeLegs x0).fuses = x0.fuses := by
  unfold closeLegs
  repeat' first | with_reducible rfl | simp only [↓legAdvance_fuses, ↓leaveConf_fuses] | split |
    with_reducible refine (foldl_fuses _ _ _ (fun _ _ => ?_)).trans ?_
theorem takePorts_fuses (x0 : State) : (takePorts x0).fuses = x0.fuses := (rfl)
theorem blockBoundary_fuses (x0 : List LegInput) (x1 : State) : (blockBoundary x0 x1).fuses = x1.fuses := by
  unfold blockBoundary
  repeat' first | with_reducible rfl | simp only [↓tickToNs_fuses, ↓takeInputs_fuses, ↓closeLegs_fuses, ↓formOutputs_fuses, ↓formBuses_fuses, ↓pushInserts_fuses, ↓bump_fuses, ↓passRamps_fuses, ↓selectAll_fuses, ↓swapBuses_fuses, ↓startRamps_fuses, ↓tickTasks_fuses, ↓takePorts_fuses, ↓dropInserts_fuses, ↓forgetLeft_fuses] | split
theorem stepTimebase_fuses (x0 : ℤ) (x1 : State) : (stepTimebase x0 x1).fuses = x1.fuses := by
  unfold stepTimebase
  repeat' first | with_reducible rfl | simp only [↓swapBuses_fuses] | split |
    with_reducible refine (foldl_fuses _ _ _ (fun _ _ => ?_)).trans ?_
theorem modRadio_fuses (x0 : ℕ) (x1 : Radio → Radio) (x2 : State) : (modRadio x0 x1 x2).fuses = x2.fuses := (rfl)
theorem modChain_fuses (x0 : ℕ) (x1 : Chain → Chain) (x2 : State) : (modChain x0 x1 x2).fuses = x2.fuses := (rfl)
theorem radioStateEvent_fuses (x0 : ℕ) (x1 : RadioState) (x2 : RadioState) (x3 : ℕ) (x4 : State) : (radioStateEvent x0 x1 x2 x3 x4).fuses = x4.fuses := by unfold radioStateEvent; simp only [↓raiseUnless_fuses]
theorem noteLimited_fuses (x0 : ℕ) (x1 : State) : (noteLimited x0 x1).fuses = x1.fuses := by
  unfold noteLimited
  repeat' first | with_reducible rfl | simp only [↓raiseUnless_fuses, ↓modRadio_fuses] | split
theorem refuseTx_fuses (x0 : ℕ) (x1 : State) : (refuseTx x0 x1).fuses = x1.fuses := (rfl)
theorem requestTx_fuses (x0 : ℕ) (x1 : TxReq) (x2 : State) : (requestTx x0 x1 x2).2.fuses = x2.fuses := by
  unfold requestTx
  repeat' first | with_reducible rfl | simp only [↓modRadio_fuses, ↓refuseTx_fuses, ↓bump_fuses] | split
theorem requestTx_fuses' {x0 : ℕ} {x1 : TxReq} {x2 : State} {r : State} {v : Bool} (h : requestTx x0 x1 x2 = (v, r)) : r.fuses = x2.fuses := by
  have := requestTx_fuses x0 x1 x2; rw [h] at this; exact this
theorem releaseTx_fuses (x0 : ℕ) (x1 : State) : (releaseTx x0 x1).fuses = x1.fuses := by
  unfold releaseTx
  repeat' first | with_reducible rfl | simp only [↓modRadio_fuses, ↓refuseTx_fuses, ↓tickToNs_fuses, ↓bump_fuses, ↓emit_fuses] | split
theorem retune_fuses (x0 : ℕ) (x1 : RadioChan) (x2 : Option (ℕ × Word)) (x3 : State) : (retune x0 x1 x2 x3).fuses = x3.fuses := (rfl)
theorem calWhole_fuses (x0 : ℕ) (x1 : CalRun) (x2 : State) : (calWhole x0 x1 x2).fuses = x2.fuses := (rfl)
theorem startJobs_fuses (x0 : ℕ) (x1 : State) : (startJobs x0 x1).fuses = x1.fuses := by
  unfold startJobs
  repeat' first | with_reducible rfl | simp only [↓retune_fuses, ↓modRadio_fuses, ↓finishRunning_fuses, ↓calWhole_fuses] | split
theorem wakeRadio_fuses (x0 : ℕ) (x1 : Option (ℕ × Word)) (x2 : State) : (wakeRadio x0 x1 x2).fuses = x2.fuses := (rfl)
theorem radioOff_fuses (x0 : ℕ) (x1 : State) : (radioOff x0 x1).fuses = x1.fuses := by
  unfold radioOff
  repeat' first | with_reducible rfl | simp only [↓refuseTx_fuses, ↓finishAll_fuses, ↓modRadio_fuses] | split |
    with_reducible refine (foldl_fuses _ _ _ (fun _ _ => ?_)).trans ?_
theorem radioStatePlan_fuses (x0 : Cmd) (x1 : State) (t : State) : ((radioStatePlan x0 x1).run t).st.fuses = t.fuses := by
  unfold radioStatePlan
  repeat' first | with_reducible rfl | simp only [↓Done_st_defer, ↓Done_st_ok, ↓wakeRadio_fuses, ↓radioOff_fuses] | split
theorem changeChannel_fuses (x0 : ℕ) (x1 : RadioChan) (x2 : Option (ℕ × Word)) (x3 : State) : (changeChannel x0 x1 x2 x3).fuses = x3.fuses := by
  unfold changeChannel
  repeat' first | with_reducible rfl | simp only [↓modRadio_fuses, ↓startJobs_fuses] | split
theorem radioChannelPlan_fuses (x0 : Cmd) (x1 : State) (t : State) : ((radioChannelPlan x0 x1).run t).st.fuses = t.fuses := by
  unfold radioChannelPlan
  repeat' first | with_reducible rfl | simp only [↓Done_st_defer, ↓Done_st_ok, ↓modRadio_fuses, ↓changeChannel_fuses] | split
theorem channelSwitchMove_fuses (x0 : ℕ) (x1 : State) : (channelSwitchMove x0 x1).fuses = x1.fuses := by unfold channelSwitchMove; split <;> simp only [↓changeChannel_fuses, ↓modRadio_fuses]
theorem radioPowerPlan_fuses (x0 : Cmd) (x1 : State) (t : State) : ((radioPowerPlan x0 x1).run t).st.fuses = t.fuses := by
  unfold radioPowerPlan
  repeat' first | with_reducible rfl | simp only [↓Done_st_okWith, ↓modChain_fuses, ↓noteLimited_fuses, ↓modRadio_fuses] | split |
    with_reducible refine (foldl_fuses _ _ _ (fun _ _ => ?_)).trans ?_
theorem radioCalPlan_fuses (x0 : Cmd) (x1 : State) (t : State) : ((radioCalPlan x0 x1).run t).st.fuses = t.fuses := by unfold radioCalPlan; simp only [↓Done_st_defer, ↓startJobs_fuses, ↓modRadio_fuses]
theorem femConfigPlan_fuses (x0 : Cmd) (x1 : State) (t : State) : ((femConfigPlan x0 x1).run t).st.fuses = t.fuses := by
  unfold femConfigPlan
  repeat' first | with_reducible rfl | simp only [↓Done_st_ok, ↓modRadio_fuses, ↓modChain_fuses, ↓noteLimited_fuses] | split |
    with_reducible refine (foldl_fuses _ _ _ (fun _ _ => ?_)).trans ?_
theorem faultChain_fuses (x0 : ℕ) (x1 : ℕ) (x2 : State) : (faultChain x0 x1 x2).fuses = x2.fuses := (rfl)
theorem failCal_fuses (x0 : ℕ) (x1 : ℕ) (x2 : ℕ) (x3 : State) : (failCal x0 x1 x2 x3).fuses = x3.fuses := by
  unfold failCal
  repeat' first | with_reducible rfl | simp only [↓bump_fuses, ↓modRadio_fuses, ↓raise_fuses, ↓faultChain_fuses] | split
theorem judgeProfile_fuses (x0 : ℕ) (x1 : State) (x2 : ℕ × ℕ × ℕ × Bool) : (judgeProfile x0 x1 x2).fuses = x1.fuses := by
  unfold judgeProfile
  repeat' first | with_reducible rfl | simp only [↓modChain_fuses, ↓raise_fuses, ↓faultChain_fuses] | split
theorem searchTuner_fuses (x0 : State) (x1 : ℕ) : (searchTuner x0 x1).fuses = x0.fuses := by unfold searchTuner; split <;> simp only [↓takeFree_fuses, ↓modChain_fuses]
theorem endCal_fuses (x0 : ℕ) (x1 : List ℕ) (x2 : CalFacts) (x3 : State) : (endCal x0 x1 x2 x3).fuses = x3.fuses := by
  unfold endCal
  repeat' first | with_reducible rfl | simp only [↓failCal_fuses, ↓modRadio_fuses, ↓judgeProfile_fuses, ↓searchTuner_fuses] | split |
    with_reducible refine (foldl_fuses _ _ _ (fun _ _ => ?_)).trans ?_
theorem failTuners_fuses (x0 : ℕ) (x1 : CalFacts) (x2 : State) : (failTuners x0 x1 x2).fuses = x2.fuses := by
  unfold failTuners
  repeat' first | with_reducible rfl | simp only [↓raise_fuses, ↓bump_fuses, ↓modChain_fuses] | split |
    with_reducible refine (foldl_fuses _ _ _ (fun _ _ => ?_)).trans ?_
theorem applyChainRole_fuses (x0 : ℕ) (x1 : State) : (applyChainRole x0 x1).fuses = x1.fuses := (rfl)
theorem synthLock_fuses (x0 : ℕ) (x1 : CalFacts) (x2 : State) : (synthLock x0 x1 x2).fuses = x2.fuses := by
  unfold synthLock
  repeat' first | with_reducible rfl | simp only [↓tickToNs_fuses, ↓failTuners_fuses, ↓endCal_fuses, ↓modRadio_fuses, ↓finishRunning_fuses, ↓applyChainRole_fuses, ↓bump_fuses, ↓raise_fuses, ↓startJobs_fuses, ↓noteLimited_fuses] | split
theorem synthUnlock_fuses (x0 : ℕ) (x1 : State) : (synthUnlock x0 x1).fuses = x1.fuses := by
  unfold synthUnlock
  repeat' first | with_reducible rfl | simp only [↓bump_fuses, ↓modRadio_fuses] | split
theorem synthRelockTimeout_fuses (x0 : ℕ) (x1 : State) : (synthRelockTimeout x0 x1).fuses = x1.fuses := by
  unfold synthRelockTimeout
  repeat' first | with_reducible rfl | simp only [↓tickToNs_fuses, ↓modRadio_fuses] | split
theorem judgeChain_fuses (x0 : ℕ) (x1 : State) (x2 : ChainMeas) : (judgeChain x0 x1 x2).fuses = x1.fuses := by
  unfold judgeChain
  repeat' first | with_reducible rfl | simp only [↓modChain_fuses, ↓modRadio_fuses, ↓raise_fuses, ↓faultChain_fuses] | split
theorem transmitEnd_fuses (x0 : ℕ) (x1 : List ChainMeas) (x2 : State) : (transmitEnd x0 x1 x2).fuses = x2.fuses := by
  unfold transmitEnd
  repeat' first | with_reducible rfl | simp only [↓tickToNs_fuses, ↓startJobs_fuses, ↓judgeChain_fuses, ↓modRadio_fuses] | split |
    with_reducible refine (foldl_fuses _ _ _ (fun _ _ => ?_)).trans ?_
theorem aerialProbe_fuses (x0 : ℕ) (x1 : ℕ) (x2 : State) : (aerialProbe x0 x1 x2).fuses = x2.fuses := by
  unfold aerialProbe
  repeat' first | with_reducible rfl | simp only [↓tickTo_fuses, ↓modChain_fuses, ↓raise_fuses] | split
theorem takePend_fuses (x0 : ℕ) (x1 : State) : (takePend x0 x1).fuses = x1.fuses := by
  unfold takePend
  repeat' first | with_reducible rfl | simp only [↓modRadio_fuses] | split
theorem nextClearing_fuses (x0 : ℕ) (x1 : State) : (nextClearing x0 x1).fuses = x1.fuses := (rfl)
theorem startClearing_fuses (x0 : ℕ) (x1 : State) : (startClearing x0 x1).fuses = x1.fuses := (rfl)
theorem clearing_fuses (x0 : ℕ) (x1 : Bool) (x2 : ℤ) (x3 : State) : (clearing x0 x1 x2 x3).fuses = x3.fuses := by
  unfold clearing
  repeat' first | with_reducible rfl | simp only [↓tickTo_fuses, ↓modRadio_fuses, ↓takePend_fuses, ↓startClearing_fuses, ↓bump_fuses] | split
theorem advanceRun_fuses (x0 : ℕ) (x1 : CalFacts) (x2 : State) : (advanceRun x0 x1 x2).fuses = x2.fuses := by
  unfold advanceRun
  repeat' first | with_reducible rfl | simp only [↓endCal_fuses, ↓modRadio_fuses, ↓finishRunning_fuses] | split
theorem calibrationComplete_fuses (x0 : ℕ) (x1 : CalFacts) (x2 : State) : (calibrationComplete x0 x1 x2).fuses = x2.fuses := by
  unfold calibrationComplete
  repeat' first | with_reducible rfl | simp only [↓tickToNs_fuses, ↓failTuners_fuses, ↓advanceRun_fuses, ↓endCal_fuses, ↓startJobs_fuses, ↓nextClearing_fuses, ↓modRadio_fuses] | split
theorem biasFault_fuses (x0 : ℕ) (x1 : State) : (biasFault x0 x1).fuses = x1.fuses := by unfold biasFault; split <;> simp only [↓raiseUnless_fuses, ↓modChain_fuses]
theorem biasRetry_fuses (x0 : ℕ) (x1 : Bool) (x2 : State) : (biasRetry x0 x1 x2).fuses = x2.fuses := by
  unfold biasRetry
  repeat' first | with_reducible rfl | simp only [↓tickTo_fuses, ↓raiseUnless_fuses, ↓modChain_fuses] | split
theorem radiosHold_fuses (x0 : State) : (radiosHold x0).fuses = x0.fuses := by
  unfold radiosHold
  repeat' first | with_reducible rfl | simp only [↓bump_fuses, ↓refuseTx_fuses, ↓radioStateEvent_fuses, ↓modRadio_fuses] | split |
    with_reducible refine (foldl_fuses _ _ _ (fun _ _ => ?_)).trans ?_
theorem radiosRelock_fuses (x0 : State) : (radiosRelock x0).fuses = x0.fuses := by
  unfold radiosRelock
  repeat' first | with_reducible rfl | simp only [↓radioStateEvent_fuses, ↓modRadio_fuses] | split |
    with_reducible refine (foldl_fuses _ _ _ (fun _ _ => ?_)).trans ?_
theorem modDom_fuses (x0 : ℕ) (x1 : TimeDomain → TimeDomain) (x2 : State) : (modDom x0 x1 x2).fuses = x2.fuses := (rfl)
theorem setRate_fuses (x0 : ℤ) (x1 : State) : (setRate x0 x1).fuses = x1.fuses := (rfl)
theorem lockRate_fuses (x0 : ℕ) (x1 : State) : (lockRate x0 x1).fuses = x1.fuses := (rfl)
theorem slewRate_fuses (x0 : ℕ) (x1 : State) : (slewRate x0 x1).fuses = x1.fuses := (rfl)
theorem leaveHold_fuses (x0 : State) : (leaveHold x0).fuses = x0.fuses := by unfold leaveHold; split <;> simp only [↓bumpBy_fuses]
theorem enterHold'_fuses (x0 : State) : (enterHold' x0).fuses = x0.fuses := by unfold enterHold'; split <;> simp only []
theorem toHoldover_fuses (x0 : State) : (toHoldover x0).fuses = x0.fuses := by unfold toHoldover; simp only [↓setRate_fuses, ↓enterHold'_fuses, ↓raise_fuses, ↓bump_fuses]
theorem switchTo_fuses (x0 : ℕ) (x1 : ℕ) (x2 : State) : (switchTo x0 x1 x2).fuses = x2.fuses := by
  unfold switchTo
  repeat' first | with_reducible rfl | simp only [↓leaveHold_fuses, ↓lockRate_fuses, ↓slewRate_fuses, ↓raise_fuses, ↓bump_fuses] | split
theorem reselect_fuses (x0 : State) : (reselect x0).fuses = x0.fuses := by unfold reselect; split <;> simp only [↓switchTo_fuses, ↓toHoldover_fuses]
theorem noteStep_fuses (x0 : ℕ) (x1 : ℤ) (x2 : State) : (noteStep x0 x1 x2).fuses = x2.fuses := by unfold noteStep; simp only [↓raise_fuses, ↓bump_fuses]
theorem firstLock_fuses (x0 : ℕ) (x1 : State) : (firstLock x0 x1).fuses = x1.fuses := by unfold firstLock; simp only [↓stepTimebase_fuses, ↓lockRate_fuses, ↓noteStep_fuses]
theorem domState_fuses (x0 : ℕ) (x1 : DomState) (x2 : ℕ) (x3 : State) : (domState x0 x1 x2 x3).fuses = x3.fuses := by
  unfold domState
  repeat' first | with_reducible rfl | simp only [↓bump_fuses, ↓raiseUnless_fuses, ↓modDom_fuses] | split
theorem loseDomain_fuses (x0 : ℕ) (x1 : ℕ) (x2 : State) : (loseDomain x0 x1 x2).fuses = x2.fuses := by
  unfold loseDomain
  repeat' first | with_reducible rfl | simp only [↓domState_fuses, ↓reselect_fuses] | split
theorem onQualified_fuses (x0 : ℕ) (x1 : State) : (onQualified x0 x1).fuses = x1.fuses := by
  unfold onQualified
  repeat' first | with_reducible rfl | simp only [↓firstLock_fuses, ↓switchTo_fuses] | split

end Sys2Proof.Machine
end

