-- ==== Sys2Proof/Laws/FuseFrame4.lean ====
section
/-! SUPPORT. Laws/FuseFrame4.lean: what the operations of Machine/ leave in the fuse store: one lemma an
operation, part 4. Only the operations of Machine/Firmware.lean and what plans them from outside write fuses. -/

set_option linter.all false

namespace Sys2Proof.Machine

theorem checkOffset_fuses (x0 : ℕ) (x1 : State) : (checkOffset x0 x1).fuses = x1.fuses := by
  unfold checkOffset
  repeat' first | with_reducible rfl | simp only [↓setRg_fuses, ↓raise_fuses, ↓modDom_fuses] | split
theorem domSync_fuses (x0 : ℕ) (x1 : ℤ) (x2 : ℤ) (x3 : ℕ) (x4 : ℕ) (x5 : ℤ) (x6 : State) : (domSync x0 x1 x2 x3 x4 x5 x6).fuses = x6.fuses := by
  unfold domSync
  repeat' first | with_reducible rfl | simp only [↓bump_fuses, ↓domState_fuses, ↓modDom_fuses, ↓checkOffset_fuses, ↓onQualified_fuses, ↓firstLock_fuses, ↓lockRate_fuses, ↓slewRate_fuses] | split
theorem domMessage_fuses (x0 : PtpView) (x1 : State) (x2 : ℕ) : (domMessage x0 x1 x2).fuses = x1.fuses := by
  unfold domMessage
  repeat' first | with_reducible rfl | simp only [↓modDom_fuses, ↓domState_fuses, ↓bump_fuses, ↓loseDomain_fuses, ↓domSync_fuses] | split
theorem ptpReceive_fuses (x0 : ℕ) (x1 : PtpView) (x2 : State) : (ptpReceive x0 x1 x2).fuses = x2.fuses := by
  unfold ptpReceive
  repeat' first | with_reducible rfl | simp only [↓domMessage_fuses] | split |
    with_reducible refine (foldl_fuses _ _ _ (fun _ _ => ?_)).trans ?_
theorem domainsLose_fuses (x0 : ℕ) (x1 : ℕ) (x2 : State) : (domainsLose x0 x1 x2).fuses = x2.fuses := by
  unfold domainsLose
  repeat' first | with_reducible rfl | simp only [↓loseDomain_fuses] | split |
    with_reducible refine (foldl_fuses _ _ _ (fun _ _ => ?_)).trans ?_
theorem domainTimeout_fuses (x0 : ℕ) (x1 : Bool) (x2 : State) : (domainTimeout x0 x1 x2).fuses = x2.fuses := by
  unfold domainTimeout
  repeat' first | with_reducible rfl | simp only [↓loseDomain_fuses, ↓tickTo_fuses] | split
theorem domainTakeover_fuses (x0 : ℕ) (x1 : State) : (domainTakeover x0 x1).fuses = x1.fuses := by
  unfold domainTakeover
  repeat' first | with_reducible rfl | simp only [↓switchTo_fuses, ↓tickTo_fuses] | split
theorem slewComplete_fuses (x0 : State) : (slewComplete x0).fuses = x0.fuses := by unfold slewComplete; split <;> simp only [↓lockRate_fuses, ↓tickTo_fuses]
theorem timeDomainPlan_fuses (x0 : Cmd) (x1 : State) (t : State) : ((timeDomainPlan x0 x1).run t).st.fuses = t.fuses := by
  unfold timeDomainPlan
  repeat' first | with_reducible rfl | simp only [↓Done_st_ok, ↓domState_fuses, ↓modDom_fuses, ↓reselect_fuses] | split
theorem timeSelectPlan_fuses (x0 : Cmd) (x1 : State) (t : State) : ((timeSelectPlan x0 x1).run t).st.fuses = t.fuses := by
  unfold timeSelectPlan
  repeat' first | with_reducible rfl | simp only [↓Done_st_okWith, ↓setRg_fuses, ↓switchTo_fuses] | split
theorem timeStep_fuses (x0 : List Byte) (x1 : State) : (timeStep x0 x1).1.fuses = x1.fuses := by
  unfold timeStep
  repeat' first | with_reducible rfl | simp only [↓stepTimebase_fuses, ↓lockRate_fuses, ↓noteStep_fuses, ↓enterHold'_fuses, ↓toHoldover_fuses] | split
theorem timeStep_fuses' {x0 : List Byte} {x1 : State} {r : State} {v : ℤ} (h : timeStep x0 x1 = (r, v)) : r.fuses = x1.fuses := by
  have := timeStep_fuses x0 x1; rw [h] at this; exact this
theorem timeStepPlan_fuses (x0 : Cmd) (x1 : State) (t : State) : ((timeStepPlan x0 x1).run t).st.fuses = t.fuses := by unfold timeStepPlan; simp only [↓Done_st_okWith, ↓timeStep_fuses]
theorem refLost_fuses (x0 : State) : (refLost x0).fuses = x0.fuses := by
  unfold refLost
  repeat' first | with_reducible rfl | simp only [↓bump_fuses, ↓enterHold'_fuses] | split
theorem refclkLost_fuses (x0 : ℕ) (x1 : State) : (refclkLost x0 x1).fuses = x1.fuses := by unfold refclkLost; split <;> simp only [↓radiosHold_fuses, ↓raise_fuses, ↓refLost_fuses]
theorem refclkRestored_fuses (x0 : State) : (refclkRestored x0).fuses = x0.fuses := by
  unfold refclkRestored
  repeat' first | with_reducible rfl | simp only [↓raise_fuses, ↓radiosRelock_fuses, ↓switchTo_fuses, ↓toHoldover_fuses] | split
theorem tsInsert_fuses (x0 : ℕ) (x1 : ℕ) (x2 : ℕ) (x3 : ℕ) (x4 : State) : (tsInsert x0 x1 x2 x3 x4).fuses = x4.fuses := by
  unfold tsInsert
  repeat' first | with_reducible rfl | simp only [↓bump_fuses, ↓raiseUnless_fuses, ↓setRg_fuses] | split
theorem tsQueueReadPlan_fuses (x0 : Cmd) (x1 : State) (t : State) : ((tsQueueReadPlan x0 x1).run t).st.fuses = t.fuses := by
  unfold tsQueueReadPlan
  repeat' first | with_reducible rfl | simp only [↓Done_st_reply, ↓setRg_fuses] | split
theorem synceFollow_fuses (x0 : State) : (synceFollow x0).fuses = x0.fuses := by
  unfold synceFollow
  repeat' first | with_reducible rfl | simp only [↓raiseUnless_fuses] | split |
    with_reducible refine (foldl_fuses _ _ _ (fun _ _ => ?_)).trans ?_
theorem ppsConfigPlan_fuses (x0 : Cmd) (x1 : State) (t : State) : ((ppsConfigPlan x0 x1).run t).st.fuses = t.fuses := by unfold ppsConfigPlan; simp only [↓Done_st_ok, ↓synceFollow_fuses]
theorem ppsOutEdge_fuses (x0 : State) : (ppsOutEdge x0).fuses = x0.fuses := by unfold ppsOutEdge; split <;> simp only [↓tickToNs_fuses, ↓emit_fuses]
theorem ppsInEdge_fuses (x0 : State) : (ppsInEdge x0).fuses = x0.fuses := by
  unfold ppsInEdge
  repeat' first | with_reducible rfl | simp only [↓domState_fuses, ↓takeFree_fuses, ↓domSync_fuses] | split |
    with_reducible refine (foldl_fuses _ _ _ (fun _ _ => ?_)).trans ?_
theorem timeQueryPlan_fuses (x0 : Cmd) (x1 : State) (t : State) : ((timeQueryPlan x0 x1).run t).st.fuses = t.fuses := by unfold timeQueryPlan; split <;> simp only [↓Done_st_okWith, ↓takeFree_fuses]
theorem sendMgmt_fuses (x0 : ℕ) (x1 : State) : (sendMgmt x0 x1).fuses = x1.fuses := by unfold sendMgmt; split <;> simp only [↓requestTx_fuses]
theorem listen_fuses (x0 : ℕ) (x1 : State) : (listen x0 x1).fuses = x1.fuses := by unfold listen; split <;> simp only [↓modRadio_fuses]
theorem wlanRolePlan_fuses (x0 : Cmd) (x1 : State) (t : State) : ((wlanRolePlan x0 x1).run t).st.fuses = t.fuses := by
  unfold wlanRolePlan
  repeat' first | with_reducible rfl | simp only [↓Done_st_ok, ↓listen_fuses] | split
theorem reserveKey_fuses {o : Word} {n : Nat} {s : State} {r : Nat × State} (h : reserveKey o n s = some r) :
    r.2.fuses = s.fuses := by
  unfold reserveKey at h
  split at h
  · contradiction
  · rw [Option.map_eq_some_iff] at h
    obtain ⟨a, -, rfl⟩ := h
    rfl
theorem reserveKeys_fuses (suite n : Nat) (s : State) : (reserveKeys suite n s).2.fuses = s.fuses := by
  induction n generalizing s with
  | zero => rfl
  | succ n ih =>
    unfold reserveKeys
    split
    · rfl
    · rename_i k s1 heq
      exact (ih s1).trans (reserveKey_fuses heq)
theorem reserveKeys_fuses' {x0 : ℕ} {x1 : ℕ} {x2 : State} {r : State} {v : List ℕ} (h : reserveKeys x0 x1 x2 = (v, r)) : r.fuses = x2.fuses := by
  have := reserveKeys_fuses x0 x1 x2; rw [h] at this; exact this
theorem renewKey_fuses (x0 : ℕ) (x1 : State) : (renewKey x0 x1).fuses = x1.fuses := (rfl)
theorem freeColour_fuses (x0 : State) : (freeColour x0).2.fuses = x0.fuses := (rfl)
theorem freeColour_fuses' {x0 : State} {r : State} {v : ℕ} (h : freeColour x0 = (v, r)) : r.fuses = x0.fuses := by
  have := freeColour_fuses x0; rw [h] at this; exact this
theorem bssCreatePlan_fuses (x0 : Cmd) (x1 : State) (t : State) : ((bssCreatePlan x0 x1).run t).st.fuses = t.fuses := by
  unfold bssCreatePlan
  repeat' first | with_reducible rfl | simp only [↓Done_st_ok, ↓freeColour_fuses, ↓reserveKeys_fuses, ↓renewKey_fuses] | split |
    with_reducible refine (foldl_fuses _ _ _ (fun _ _ => ?_)).trans ?_
theorem bssAdvance_fuses (x0 : ℕ) (x1 : State) : (bssAdvance x0 x1).fuses = x1.fuses := by
  unfold bssAdvance
  repeat' first | with_reducible rfl | simp only [↓zeroiseSlot_fuses, ↓finishRunning_fuses] | split |
    with_reducible refine (foldl_fuses _ _ _ (fun _ _ => ?_)).trans ?_
theorem clearStaCounters_fuses (x0 : ℕ) (x1 : State) : (clearStaCounters x0 x1).fuses = x1.fuses := (rfl)
theorem addSta_fuses (x0 : ℕ) (x1 : Sta) (x2 : State) : (addSta x0 x1 x2).fuses = x2.fuses := (rfl)
theorem toAuthorized_fuses (x0 : ℕ) (x1 : ℕ) (x2 : State) : (toAuthorized x0 x1 x2).fuses = x2.fuses := by
  unfold toAuthorized
  repeat' first | with_reducible rfl | simp only [↓modSta_fuses, ↓raiseUnless_fuses, ↓bump_fuses, ↓finishRunning_fuses] | split
theorem removing_fuses (x0 : ℕ) (x1 : ℕ) (x2 : Bool) (x3 : State) : (removing x0 x1 x2 x3).fuses = x3.fuses := by
  unfold removing
  repeat' first | with_reducible rfl | simp only [↓modSta_fuses, ↓raiseUnless_fuses, ↓finishRunning_fuses] | split
theorem freeSta_fuses (x0 : ℕ) (x1 : State) : (freeSta x0 x1).fuses = x1.fuses := by unfold freeSta; simp only [↓leaveLeases_fuses, ↓finishAll_fuses, ↓bssAdvance_fuses, ↓modBss_fuses]
theorem releaseSta_fuses (x0 : ℕ) (x1 : State) : (releaseSta x0 x1).fuses = x1.fuses := by
  unfold releaseSta
  repeat' first | with_reducible rfl | simp only [↓bumpBy_fuses, ↓modSta_fuses, ↓zeroiseSlot_fuses, ↓removeConn_fuses, ↓attachLost_fuses] | split |
    with_reducible refine (foldl_fuses _ _ _ (fun _ _ => ?_)).trans ?_
theorem staLeave_fuses (x0 : ℕ) (x1 : State) : (staLeave x0 x1).fuses = x1.fuses := by
  unfold staLeave
  repeat' first | with_reducible rfl | simp only [↓releaseSta_fuses, ↓freeSta_fuses] | split
theorem bssDeletePlan_fuses (x0 : Cmd) (x1 : State) (t : State) : ((bssDeletePlan x0 x1).run t).st.fuses = t.fuses := by
  unfold bssDeletePlan
  repeat' first | with_reducible rfl | simp only [↓Done_st_defer, ↓modBss_fuses, ↓removing_fuses, ↓sendMgmt_fuses, ↓bssAdvance_fuses] | split |
    with_reducible refine (foldl_fuses _ _ _ (fun _ _ => ?_)).trans ?_
theorem authFail_fuses (x0 : ℕ) (x1 : ℕ) (x2 : List Byte) (x3 : State) : (authFail x0 x1 x2 x3).fuses = x3.fuses := by unfold authFail; simp only [↓raiseUnless_fuses, ↓bump_fuses]
theorem associate_fuses (x0 : ℕ) (x1 : State) : (associate x0 x1).fuses = x1.fuses := by
  unfold associate
  repeat' first
    | with_reducible rfl
    | simp only [↓attachLost_fuses, ↓modSta_fuses, ↓toAuthorized_fuses, ↓sendMgmt_fuses]
    | split
    | with_reducible refine (reserveKey_fuses (by assumption)).trans ?_
    | with_reducible refine (foldl_fuses _ _ _ (fun _ _ => ?_)).trans ?_
    | with_reducible refine (foldl_snd_fuses _ _ _ (fun _ _ => ?_)).trans ?_
theorem handshakeDone_fuses (x0 : ℕ) (x1 : State) : (handshakeDone x0 x1).fuses = x1.fuses := by
  unfold handshakeDone
  repeat' first | with_reducible rfl | simp only [↓renewKey_fuses, ↓toAuthorized_fuses] | split
theorem handshakeFailed_fuses (x0 : ℕ) (x1 : ℕ) (x2 : State) : (handshakeFailed x0 x1 x2).fuses = x2.fuses := by unfold handshakeFailed; simp only [↓removing_fuses, ↓authFail_fuses]
theorem staAdmitPlan_fuses (x0 : Cmd) (x1 : State) (t : State) : ((staAdmitPlan x0 x1).run t).st.fuses = t.fuses := by
  unfold staAdmitPlan
  repeat' first | with_reducible rfl | simp only [↓Done_st_defer, ↓Done_st_ok, ↓Done_st_okWith, ↓associate_fuses, ↓sendMgmt_fuses, ↓modSta_fuses, ↓addSta_fuses] | split
theorem staRemovePlan_fuses (x0 : Cmd) (x1 : State) (t : State) : ((staRemovePlan x0 x1).run t).st.fuses = t.fuses := by
  unfold staRemovePlan
  repeat' first | with_reducible rfl | simp only [↓Done_st_defer, ↓modSta_fuses, ↓removing_fuses, ↓sendMgmt_fuses] | split
theorem staQueryPlan_fuses (x0 : Cmd) (x1 : State) (t : State) : ((staQueryPlan x0 x1).run t).st.fuses = t.fuses := (rfl)
theorem staProgressTimeout_fuses (x0 : ℕ) (x1 : State) : (staProgressTimeout x0 x1).fuses = x1.fuses := by
  unfold staProgressTimeout
  repeat' first | with_reducible rfl | simp only [↓bump_fuses, ↓tickTo_fuses, ↓finishRunning_fuses, ↓freeSta_fuses, ↓releaseSta_fuses] | split
theorem staRequestTimeout_fuses (x0 : ℕ) (x1 : State) : (staRequestTimeout x0 x1).fuses = x1.fuses := by unfold staRequestTimeout; split <;> simp only [↓sendMgmt_fuses, ↓bump_fuses, ↓modSta_fuses, ↓tickTo_fuses]
theorem staIdleProbe_fuses (x0 : ℕ) (x1 : Bool) (x2 : State) : (staIdleProbe x0 x1 x2).fuses = x2.fuses := by
  unfold staIdleProbe
  repeat' first | with_reducible rfl | simp only [↓tickTo_fuses, ↓sendMgmt_fuses, ↓modSta_fuses, ↓removing_fuses] | split
theorem handshakeRetry_fuses (x0 : ℕ) (x1 : State) : (handshakeRetry x0 x1).fuses = x1.fuses := by
  unfold handshakeRetry
  repeat' first | with_reducible rfl | simp only [↓tickTo_fuses, ↓sendMgmt_fuses, ↓modSta_fuses, ↓handshakeFailed_fuses] | split
theorem gtkRekey_fuses (x0 : ℕ) (x1 : State) : (gtkRekey x0 x1).fuses = x1.fuses := by
  unfold gtkRekey
  repeat' first | with_reducible rfl | simp only [↓tickTo_fuses, ↓renewKey_fuses, ↓modBss_fuses] | split |
    with_reducible refine (foldl_fuses _ _ _ (fun _ _ => ?_)).trans ?_
theorem bssColourChange_fuses (x0 : ℕ) (x1 : ℕ) (x2 : ℕ) (x3 : State) : (bssColourChange x0 x1 x2 x3).fuses = x3.fuses := by
  unfold bssColourChange
  repeat' first | with_reducible rfl | simp only [↓raiseUnless_fuses, ↓modBss_fuses] | split
theorem beaconTransmit_fuses (x0 : ℕ) (x1 : ℕ) (x2 : State) : (beaconTransmit x0 x1 x2).fuses = x2.fuses := by
  unfold beaconTransmit
  repeat' first | with_reducible rfl | simp only [↓tickToNs_fuses, ↓modBss_fuses, ↓requestTx_fuses] | split
theorem linkLost_fuses (x0 : ℕ) (x1 : ℕ) (x2 : State) : (linkLost x0 x1 x2).fuses = x2.fuses := by
  unfold linkLost
  repeat' first | with_reducible rfl | simp only [↓modSta_fuses, ↓raise_fuses, ↓removing_fuses] | split
theorem unreachable_fuses (x0 : ℕ) (x1 : ℕ) (x2 : State) : (unreachable x0 x1 x2).fuses = x2.fuses := by unfold unreachable; simp only [↓modSta_fuses, ↓attachLost_fuses, ↓raise_fuses]
theorem unreachHoldExpiry_fuses (x0 : ℕ) (x1 : State) : (unreachHoldExpiry x0 x1).fuses = x1.fuses := by
  unfold unreachHoldExpiry
  repeat' first | with_reducible rfl | simp only [↓tickTo_fuses, ↓bumpBy_fuses, ↓modSta_fuses] | split
theorem heardSta_fuses (x0 : ℕ) (x1 : State) : (heardSta x0 x1).fuses = x1.fuses := by
  unfold heardSta
  repeat' first | with_reducible rfl | simp only [↓modSta_fuses, ↓toAuthorized_fuses] | split
theorem firstSp_fuses (x0 : State) (x1 : ℕ) (x2 : ℕ) : (firstSp x0 x1 x2).2.fuses = x0.fuses := by unfold firstSp; split <;> simp only [↓takeFree_fuses]
theorem firstSp_fuses' {x0 : State} {x1 : ℕ} {x2 : ℕ} {r : State} {v : ℕ} (h : firstSp x0 x1 x2 = (v, r)) : r.fuses = x0.fuses := by
  have := firstSp_fuses x0 x1 x2; rw [h] at this; exact this
theorem twtSetPlan_fuses (x0 : Cmd) (x1 : State) (t : State) : ((twtSetPlan x0 x1).run t).st.fuses = t.fuses := by
  unfold twtSetPlan
  repeat' first | with_reducible rfl | simp only [↓Done_st_ok, ↓firstSp_fuses, ↓modSta_fuses, ↓modBss_fuses] | split
theorem advanceTwt_fuses (x0 : ℕ) (x1 : ℕ) (x2 : State) : (advanceTwt x0 x1 x2).fuses = x2.fuses := by unfold advanceTwt; split <;> simp only [↓modSta_fuses, ↓modBss_fuses]
theorem twtServicePeriod_fuses (x0 : ℕ) (x1 : ℕ) (x2 : Option ℤ) (x3 : State) : (twtServicePeriod x0 x1 x2 x3).fuses = x3.fuses := by
  unfold twtServicePeriod
  repeat' first | with_reducible rfl | simp only [↓tickToNs_fuses, ↓modSta_fuses, ↓heardSta_fuses, ↓advanceTwt_fuses, ↓bump_fuses, ↓unreachable_fuses] | split
theorem wurSetPlan_fuses (x0 : Cmd) (x1 : State) (t : State) : ((wurSetPlan x0 x1).run t).st.fuses = t.fuses := by
  unfold wurSetPlan
  repeat' first | with_reducible rfl | simp only [↓Done_st_ok] | split
theorem wurSend_fuses (x0 : ℕ) (x1 : ℕ) (x2 : State) : (wurSend x0 x1 x2).fuses = x2.fuses := by
  unfold wurSend
  repeat' first | with_reducible rfl | simp only [↓requestTx_fuses, ↓bump_fuses] | split
theorem wurBeacon_fuses (x0 : State) : (wurBeacon x0).fuses = x0.fuses := by unfold wurBeacon; split <;> simp only [↓wurSend_fuses, ↓tickToNs_fuses]
theorem wurWakeSend_fuses (x0 : ℕ) (x1 : Bool) (x2 : State) : (wurWakeSend x0 x1 x2).fuses = x2.fuses := by
  unfold wurWakeSend
  repeat' first | with_reducible rfl | simp only [↓wurSend_fuses, ↓tickToNs_fuses, ↓modSta_fuses, ↓heardSta_fuses] | split
theorem wurWakeFail_fuses (x0 : ℕ) (x1 : State) : (wurWakeFail x0 x1).fuses = x1.fuses := by
  unfold wurWakeFail
  repeat' first | with_reducible rfl | simp only [↓tickTo_fuses, ↓unreachable_fuses, ↓modSta_fuses, ↓raise_fuses, ↓bump_fuses] | split
theorem scanStartPlan_fuses (x0 : Cmd) (x1 : State) (t : State) : ((scanStartPlan x0 x1).run t).st.fuses = t.fuses := (rfl)
theorem scanDone_fuses (x0 : ℕ) (x1 : List ScanEntry) (x2 : State) : (scanDone x0 x1 x2).fuses = x2.fuses := by
  unfold scanDone
  repeat' first | with_reducible rfl | simp only [↓raise_fuses, ↓finishRunning_fuses, ↓sendMgmt_fuses, ↓addSta_fuses] | split
theorem loseLink_fuses (x0 : ℕ) (x1 : ℕ) (x2 : Sta) (x3 : ℕ) (x4 : State) : (loseLink x0 x1 x2 x3 x4).fuses = x4.fuses := by
  unfold loseLink
  repeat' first | with_reducible rfl | simp only [↓modSta_fuses, ↓domainsLose_fuses, ↓bump_fuses, ↓raise_fuses, ↓removing_fuses] | split
theorem beaconLoss_fuses (x0 : ℕ) (x1 : ℕ) (x2 : State) : (beaconLoss x0 x1 x2).fuses = x2.fuses := by
  unfold beaconLoss
  repeat' first | with_reducible rfl | simp only [↓modSta_fuses, ↓loseLink_fuses] | split
theorem fullReset_fuses (x0 : ℕ) (x1 : State) : (fullReset x0 x1).fuses = x1.fuses := (rfl)
theorem commandReset_fuses (x0 : State) : (commandReset x0).fuses = x0.fuses := by unfold commandReset; split <;> simp only [↓fullReset_fuses]
theorem resetPin_fuses (x0 : ℕ) (x1 : State) : (resetPin x0 x1).fuses = x1.fuses := by
  unfold resetPin
  repeat' first | with_reducible rfl | simp only [↓takeFree_fuses, ↓fullReset_fuses] | split
theorem watchdog_fuses (x0 : ℕ) (x1 : State) : (watchdog x0 x1).fuses = x1.fuses := by
  unfold watchdog
  repeat' first | with_reducible rfl | simp only [↓fullReset_fuses] | split
theorem modFwd_fuses (x0 : ℕ) (x1 : FwdSet → FwdSet) (x2 : State) : (modFwd x0 x1 x2).fuses = x2.fuses := (rfl)
theorem modEntryOf_fuses (x0 : ℕ) (x1 : ℕ) (x2 : FwdEntry → FwdEntry) (x3 : State) : (modEntryOf x0 x1 x2 x3).fuses = x3.fuses := (rfl)
theorem fwdPolicyPlan_fuses (x0 : Cmd) (x1 : State) (t : State) : ((fwdPolicyPlan x0 x1).run t).st.fuses = t.fuses := (rfl)
theorem applyItem_fuses (x0 : ℕ) (x1 : State) (x2 : FwdItem) : (applyItem x0 x1 x2).fuses = x1.fuses := by
  unfold applyItem
  repeat' first | with_reducible rfl | simp only [↓modEntryOf_fuses, ↓modFwd_fuses] | split
theorem fwdSetPlan_fuses (x0 : Cmd) (x1 : State) (t : State) : ((fwdSetPlan x0 x1).run t).st.fuses = t.fuses := by
  unfold fwdSetPlan
  repeat' first | with_reducible rfl | simp only [↓Done_st_ok, ↓entryErr_fuses, ↓applyItem_fuses] | split |
    with_reducible refine (foldl_fuses _ _ _ (fun _ _ => ?_)).trans ?_
theorem estimate_fuses (x0 : ℕ) (x1 : State) : (estimate x0 x1).fuses = x1.fuses := by
  unfold estimate
  repeat' first | with_reducible rfl | simp only [↓modFwd_fuses, ↓raiseUnless_fuses] | split
theorem assignRankEntries_fuses (x0 : ℕ) (x1 : State) : (assignRankEntries x0 x1).fuses = x1.fuses := by
  unfold assignRankEntries
  repeat' first | with_reducible rfl | simp only [↓modFwd_fuses] | split
theorem askSource_fuses (x0 : ℕ) (x1 : ℕ) (x2 : State) : (askSource x0 x1 x2).fuses = x2.fuses := by
  unfold askSource
  repeat' first | with_reducible rfl | simp only [↓modEntryOf_fuses, ↓requestKey_fuses, ↓bump_fuses, ↓requestEncKey_fuses, ↓modEnc_fuses] | split
theorem evaluateSet_fuses (x0 : ℕ) (x1 : State) : (evaluateSet x0 x1).fuses = x1.fuses := by
  unfold evaluateSet
  repeat' first | with_reducible rfl | simp only [↓assignRankEntries_fuses, ↓modFwd_fuses, ↓askSource_fuses] | split |
    with_reducible refine (foldl_fuses _ _ _ (fun _ _ => ?_)).trans ?_
theorem bweEvaluation_fuses (s : State) : (bweEvaluation s).fuses = s.fuses := by
  unfold bweEvaluation
  extract_lets i s1
  have h1 : s1.fuses = s.fuses := tickToNs_fuses ..
  clear_value s1
  rw [← h1]
  refine (foldl_fuses _ _ _ (fun _ _ => ?_)).trans rfl
  rw [evaluateSet_fuses, estimate_fuses]
theorem countMove_fuses (x0 : ℕ) (x1 : ℕ) (x2 : Option Layer) (x3 : Option Layer) (x4 : State) : (countMove x0 x1 x2 x3 x4).fuses = x4.fuses := by unfold countMove; split <;> simp only [↓bump_fuses, ↓modEntryOf_fuses]
theorem cutOver_fuses (x0 : ℕ) (x1 : ℕ) (x2 : SrcPicture) (x3 : Layer) (x4 : State) : (cutOver x0 x1 x2 x3 x4).fuses = x4.fuses := by
  unfold cutOver
  repeat' first | with_reducible rfl | simp only [↓modEntryOf_fuses, ↓bump_fuses, ↓countMove_fuses] | split
theorem dropEntry_fuses (x0 : ℕ) (x1 : ℕ) (x2 : State) : (dropEntry x0 x1 x2).fuses = x2.fuses := by unfold dropEntry; simp only [↓legAdvance_fuses, ↓modFwd_fuses]
theorem passPicture_fuses (x0 : ℕ) (x1 : ℕ) (x2 : SrcPicture) (x3 : State) : (passPicture x0 x1 x2 x3).fuses = x3.fuses := (rfl)
theorem layerSwitch_fuses (x0 : ℕ) (x1 : ℕ) (x2 : SrcPicture) (x3 : State) : (layerSwitch x0 x1 x2 x3).fuses = x3.fuses := by
  unfold layerSwitch
  repeat' first | with_reducible rfl | simp only [↓countMove_fuses, ↓modEntryOf_fuses, ↓dropEntry_fuses, ↓passPicture_fuses, ↓cutOver_fuses] | split
theorem sendPaced_fuses (x0 : ℕ) (x1 : PacePkt) (x2 : State) : (sendPaced x0 x1 x2).fuses = x2.fuses := by
  unfold sendPaced
  repeat' first | with_reducible rfl | simp only [↓trackMax_fuses, ↓sendMedia_fuses, ↓bump_fuses, ↓bumpBy_fuses, ↓modFwd_fuses] | split
theorem burst_fuses (leg n budget : Nat) (s : State) (sent : Nat) : (burst leg n budget s sent).1.fuses = s.fuses := by
  induction n generalizing budget s sent with
  | zero => rfl
  | succ n ih =>
    unfold burst
    split
    · rfl
    · split
      · rw [ih, sendPaced_fuses, modFwd_fuses]
      · rfl
theorem burst_fuses' {x0 : ℕ} {x1 : ℕ} {x2 : ℕ} {x3 : State} {x4 : ℕ} {r : State} {v : ℕ} (h : burst x0 x1 x2 x3 x4 = (r, v)) : r.fuses = x3.fuses := by
  have := burst_fuses x0 x1 x2 x3 x4; rw [h] at this; exact this
theorem pacingSend_fuses (x0 : ℕ) (x1 : State) : (pacingSend x0 x1).fuses = x1.fuses := by
  unfold pacingSend
  repeat' first | with_reducible rfl | simp only [↓modFwd_fuses, ↓tickToNs_fuses, ↓burst_fuses] | split
theorem fwdBacklog_fuses (x0 : ℕ) (x1 : State) : (fwdBacklog x0 x1).fuses = x1.fuses := by
  unfold fwdBacklog
  repeat' first | with_reducible rfl | simp only [↓tickToNs_fuses, ↓modEntryOf_fuses, ↓bump_fuses, ↓bump32_fuses, ↓askSource_fuses, ↓raiseUnless_fuses, ↓modFwd_fuses] | split
theorem fwdWaitKey_fuses (x0 : ℕ) (x1 : ℕ) (x2 : State) : (fwdWaitKey x0 x1 x2).fuses = x2.fuses := by
  unfold fwdWaitKey
  repeat' first | with_reducible rfl | simp only [↓tickToNs_fuses, ↓raiseUnless_fuses, ↓modEntryOf_fuses] | split
theorem senderReport_fuses (x0 : ℕ) (x1 : State) : (senderReport x0 x1).fuses = x1.fuses := by
  unfold senderReport
  repeat' first | with_reducible rfl | simp only [↓takeFree_fuses, ↓sendMedia_fuses, ↓tickToNs_fuses, ↓modSession_fuses, ↓modFwd_fuses] | split |
    with_reducible refine (foldl_fuses _ _ _ (fun _ _ => ?_)).trans ?_
theorem fwdQueryPlan_fuses (x0 : Cmd) (x1 : State) (t : State) : ((fwdQueryPlan x0 x1).run t).st.fuses = t.fuses := (rfl)
theorem bweQueryPlan_fuses (x0 : Cmd) (x1 : State) (t : State) : ((bweQueryPlan x0 x1).run t).st.fuses = t.fuses := (rfl)
theorem capSessionPlan_fuses (x0 : Cmd) (x1 : State) (t : State) : ((capSessionPlan x0 x1).run t).st.fuses = t.fuses := (rfl)
theorem capFilterPlan_fuses (x0 : Cmd) (x1 : State) (t : State) : ((capFilterPlan x0 x1).run t).st.fuses = t.fuses := (rfl)
theorem capTriggerPlan_fuses (x0 : Cmd) (x1 : State) (t : State) : ((capTriggerPlan x0 x1).run t).st.fuses = t.fuses := by
  unfold capTriggerPlan
  repeat' first | with_reducible rfl | simp only [↓Done_st_ok, ↓modSession_fuses, ↓capTrigger_fuses] | split
theorem captureTriggerInstant_fuses (x0 : ℕ) (x1 : State) : (captureTriggerInstant x0 x1).fuses = x1.fuses := by
  unfold captureTriggerInstant
  repeat' first | with_reducible rfl | simp only [↓tickToNs_fuses, ↓capTrigger_fuses, ↓modSession_fuses] | split
theorem capStartPlan_fuses (x0 : Cmd) (x1 : State) (t : State) : ((capStartPlan x0 x1).run t).st.fuses = t.fuses := (rfl)
theorem freeSession_fuses (x0 : ℕ) (x1 : State) : (freeSession x0 x1).fuses = x1.fuses := by unfold freeSession; simp only [↓leaveLeases_fuses, ↓freeRegion_fuses]
theorem capStopPlan_fuses (x0 : Cmd) (x1 : State) (t : State) : ((capStopPlan x0 x1).run t).st.fuses = t.fuses := by
  unfold capStopPlan
  repeat' first | with_reducible rfl | simp only [↓Done_st_okWith, ↓freeSession_fuses, ↓capDone_fuses] | split
theorem capReadoutPlan_fuses (x0 : Cmd) (x1 : State) (t : State) : ((capReadoutPlan x0 x1).run t).st.fuses = t.fuses := by
  unfold capReadoutPlan
  repeat' first | with_reducible rfl | simp only [↓Done_st_reply, ↓modSession_fuses, ↓emit_fuses] | split
theorem invalidPattern_fuses (x0 : State) (x1 : ℕ) (x2 : ℕ) : (invalidPattern x0 x1 x2).st.fuses = x0.fuses := (rfl)
theorem storePattern_fuses (x0 : ℕ) (x1 : List Rec) (x2 : State) : (storePattern x0 x1 x2).fuses = x2.fuses := by
  unfold storePattern
  repeat' first | with_reducible rfl | simp only [↓modSession_fuses, ↓ringBytes_fuses] | split |
    with_reducible refine (foldl_fuses _ _ _ (fun _ _ => ?_)).trans ?_
theorem replayLoadPlan_fuses (x0 : Cmd) (x1 : State) (t : State) : ((replayLoadPlan x0 x1).run t).st.fuses = t.fuses := by
  unfold replayLoadPlan
  repeat' first | with_reducible rfl | simp only [↓Done_st_reply, ↓invalidPattern_fuses, ↓storePattern_fuses] | split
theorem replayStartPlan_fuses (x0 : Cmd) (x1 : State) (t : State) : ((replayStartPlan x0 x1).run t).st.fuses = t.fuses := by
  unfold replayStartPlan
  repeat' first | with_reducible rfl | simp only [↓Done_st_reply, ↓Done_st_okWith, ↓invalidPattern_fuses, ↓modSession_fuses] | split
theorem replayDone_fuses (x0 : ℕ) (x1 : ℕ) (x2 : State) : (replayDone x0 x1 x2).fuses = x2.fuses := by unfold replayDone; simp only [↓raise_fuses, ↓modSession_fuses]
theorem replayStopPlan_fuses (x0 : Cmd) (x1 : State) (t : State) : ((replayStopPlan x0 x1).run t).st.fuses = t.fuses := by
  unfold replayStopPlan
  repeat' first | with_reducible rfl | simp only [↓Done_st_okWith, ↓replayDone_fuses] | split
theorem sessionFault_fuses (x0 : ℕ) (x1 : State) : (sessionFault x0 x1).fuses = x1.fuses := by
  unfold sessionFault
  repeat' first | with_reducible rfl | simp only [↓replayDone_fuses, ↓capDone_fuses] | split
theorem replayPrefetch_fuses (x0 : ℕ) (x1 : State) : (replayPrefetch x0 x1).fuses = x1.fuses := by
  unfold replayPrefetch
  repeat' first | with_reducible rfl | simp only [↓tickToNs_fuses, ↓modSession_fuses] | split
theorem replayLate_fuses (x0 : ℕ) (x1 : ℕ) (x2 : ℕ) (x3 : State) : (replayLate x0 x1 x2 x3).fuses = x3.fuses := by
  unfold replayLate
  repeat' first | with_reducible rfl | simp only [↓bump_fuses, ↓bump32_fuses, ↓modSession_fuses, ↓raiseUnless_fuses] | split
theorem replaySent_fuses (x0 : ℕ) (x1 : State) : (replaySent x0 x1).fuses = x1.fuses := (rfl)
theorem tapReplayed_fuses (x0 : ℕ) (x1 : Rec) (x2 : State) : (tapReplayed x0 x1 x2).fuses = x2.fuses := by unfold tapReplayed; simp only [↓tap_fuses]
theorem sendRecord_fuses (x0 : ℕ) (x1 : Session) (x2 : Rec) (x3 : Bool) (x4 : ℕ) (x5 : State) : (sendRecord x0 x1 x2 x3 x4 x5).2.fuses = x5.fuses := by
  unfold sendRecord
  repeat' first | with_reducible rfl | simp only [↓tsInsert_fuses, ↓tapReplayed_fuses, ↓emit_fuses, ↓bump_fuses, ↓bumpBy_fuses, ↓wlanEnqueue_fuses, ↓refuseTx_fuses, ↓requestTx_fuses, ↓flueChanged_fuses, ↓tapFlue_fuses, ↓pushAll_fuses, ↓placeRelease_fuses, ↓sendMedia_fuses] | split |
    with_reducible refine (foldl_fuses _ _ _ (fun _ _ => ?_)).trans ?_
theorem sendRecord_fuses' {x0 : ℕ} {x1 : Session} {x2 : Rec} {x3 : Bool} {x4 : ℕ} {x5 : State} {r : State} {v : Option ℕ} (h : sendRecord x0 x1 x2 x3 x4 x5 = (v, r)) : r.fuses = x5.fuses := by
  have := sendRecord_fuses x0 x1 x2 x3 x4 x5; rw [h] at this; exact this
theorem replayNext_fuses (x0 : ℕ) (x1 : State) : (replayNext x0 x1).fuses = x1.fuses := by
  unfold replayNext
  repeat' first | with_reducible rfl | simp only [↓modSession_fuses, ↓replayDone_fuses] | split
theorem replayRecordSend_fuses (x0 : ℕ) (x1 : Bool) (x2 : Bool) (x3 : ℕ) (x4 : State) : (replayRecordSend x0 x1 x2 x3 x4).fuses = x4.fuses := by
  unfold replayRecordSend
  repeat' first | with_reducible rfl | simp only [↓replayDone_fuses, ↓replayPrefetch_fuses, ↓tickToNs_fuses, ↓modSession_fuses, ↓sendRecord_fuses, ↓replayNext_fuses, ↓replayLate_fuses, ↓replaySent_fuses] | split
theorem capQueryPlan_fuses (x0 : Cmd) (x1 : State) (t : State) : ((capQueryPlan x0 x1).run t).st.fuses = t.fuses := by unfold capQueryPlan; split <;> simp only [↓Done_st_reply, ↓takeFree_fuses]
theorem ringError_fuses (x0 : ℕ) (x1 : ℕ) (x2 : ℕ) (x3 : State) : (ringError x0 x1 x2 x3).fuses = x3.fuses := by unfold ringError; split <;> simp only [↓modRing_fuses, ↓bump_fuses, ↓raise_fuses, ↓raiseCause_fuses]
theorem deliverBootLog_fuses (x0 : ℕ) (x1 : State) : (deliverBootLog x0 x1).fuses = x1.fuses := by
  unfold deliverBootLog
  repeat' first | with_reducible rfl | simp only [↓putEvent_fuses, ↓modRing_fuses] | split |
    with_reducible refine (foldl_fuses _ _ _ (fun _ _ => ?_)).trans ?_
theorem enableRing_fuses (x0 : ℕ) (x1 : RingDesc) (x2 : State) : (enableRing x0 x1 x2).fuses = x2.fuses := (rfl)
theorem refuseDesc_fuses (x0 : ℕ) (x1 : ℕ) (x2 : State) : (refuseDesc x0 x1 x2).fuses = x2.fuses := by unfold refuseDesc; simp only [↓modRing_fuses, ↓raiseCause_fuses, ↓bump_fuses]
theorem ignoredDoorbell_fuses (x0 : ℕ) (x1 : State) : (ignoredDoorbell x0 x1).fuses = x1.fuses := (rfl)
theorem setupDescriptor_fuses (x0 : ℕ) (x1 : ℕ) (x2 : ℕ) (x3 : RingDesc) (x4 : State) : (setupDescriptor x0 x1 x2 x3 x4).fuses = x4.fuses := by
  unfold setupDescriptor
  repeat' first | with_reducible rfl | simp only [↓ignoredDoorbell_fuses, ↓modPort_fuses, ↓refuseDesc_fuses, ↓deliverBootLog_fuses, ↓raiseCause_fuses, ↓enableRing_fuses, ↓modRing_fuses] | split
theorem ignoredWrite_fuses (x0 : ℕ) (x1 : ℕ) (x2 : State) : (ignoredWrite x0 x1 x2).fuses = x2.fuses := (rfl)
theorem sqTailDoorbell_fuses (x0 : ℕ) (x1 : ℕ) (x2 : ℕ) (x3 : State) : (sqTailDoorbell x0 x1 x2 x3).fuses = x3.fuses := by
  unfold sqTailDoorbell
  repeat' first | with_reducible rfl | simp only [↓ignoredWrite_fuses, ↓ignoredDoorbell_fuses, ↓ringError_fuses, ↓modRing_fuses] | split
theorem rplHeadDoorbell_fuses (x0 : ℕ) (x1 : ℕ) (x2 : ℕ) (x3 : State) : (rplHeadDoorbell x0 x1 x2 x3).fuses = x3.fuses := by
  unfold rplHeadDoorbell
  repeat' first | with_reducible rfl | simp only [↓ignoredWrite_fuses, ↓ignoredDoorbell_fuses, ↓ringError_fuses, ↓modRing_fuses, ↓drainWaiting_fuses] | split
theorem evtHeadDoorbell_fuses (x0 : ℕ) (x1 : ℕ) (x2 : ℕ) (x3 : State) : (evtHeadDoorbell x0 x1 x2 x3).fuses = x3.fuses := by
  unfold evtHeadDoorbell
  repeat' first | with_reducible rfl | simp only [↓ignoredWrite_fuses, ↓ignoredDoorbell_fuses, ↓ringError_fuses, ↓flushLost_fuses, ↓modRing_fuses] | split
theorem fireVectors_fuses (rs : Nat) (l : List Nat) (s : State) : (fireVectors rs l s).fuses = s.fuses := by
  induction l generalizing s with
  | nil => rfl
  | cons v l ih =>
    unfold fireVectors
    rw [ih, fireVector_fuses]
theorem intMaskWrite_fuses (x0 : ℕ) (x1 : Word) (x2 : State) : (intMaskWrite x0 x1 x2).fuses = x2.fuses := by unfold intMaskWrite; simp only [↓fireVectors_fuses, ↓setRg_fuses]
theorem intHoldoffExpiry_fuses (x0 : ℕ) (x1 : ℕ) (x2 : State) : (intHoldoffExpiry x0 x1 x2).fuses = x2.fuses := by
  unfold intHoldoffExpiry
  repeat' first | with_reducible rfl | simp only [↓tickTo_fuses, ↓modRing_fuses, ↓fireVector_fuses, ↓writeShadow_fuses] | split
theorem advanceSq_fuses (x0 : ℕ) (x1 : ℕ) (x2 : State) : (advanceSq x0 x1 x2).fuses = x2.fuses := by
  unfold advanceSq
  repeat' first | with_reducible rfl | simp only [↓modRing_fuses, ↓raiseCause_fuses] | split
theorem acceptPacket_fuses (x0 : ℕ) (x1 : Cmd) (x2 : State) : (acceptPacket x0 x1 x2).fuses = x2.fuses := by
  unfold acceptPacket
  repeat' first | with_reducible rfl | simp only [↓addEntry_fuses, ↓finishEntry_fuses, ↓tick_fuses] | split
theorem fetchFrom_fuses (x0 : ℕ) (x1 : Packet) (x2 : State) : (fetchFrom x0 x1 x2).fuses = x2.fuses := by
  unfold fetchFrom
  repeat' first | with_reducible rfl | simp only [↓ringError_fuses, ↓advanceSq_fuses, ↓acceptPacket_fuses] | split
theorem selectWrite_fuses (x0 : ℕ) (x1 : Word) (x2 : State) : (selectWrite x0 x1 x2).fuses = x2.fuses := by
  unfold selectWrite
  repeat' first | with_reducible rfl | simp only [↓setRg_fuses] | split
theorem discardWaiting_fuses (x0 : ℕ) (x1 : State) : (discardWaiting x0 x1).fuses = x1.fuses := (rfl)
theorem emberReply_fuses (x0 : ℕ) (x1 : State) : (emberReply x0 x1).fuses = x1.fuses := by
  unfold emberReply
  repeat' first | with_reducible rfl | simp only [↓finishRunning_fuses] | split
theorem portLink_fuses (x0 : ℕ) (x1 : Bool) (x2 : ℕ) (x3 : ℕ) (x4 : State) : (portLink x0 x1 x2 x3 x4).fuses = x4.fuses := by
  unfold portLink
  repeat' first | with_reducible rfl | simp only [↓modPort_fuses, ↓flushLost_fuses, ↓discardWaiting_fuses, ↓raise_fuses, ↓emberReply_fuses] | split |
    with_reducible refine (foldl_fuses _ _ _ (fun _ _ => ?_)).trans ?_
theorem endCrossing_fuses (x0 : ℕ) (x1 : ℕ) (x2 : ℕ) (x3 : State) : (endCrossing x0 x1 x2 x3).fuses = x3.fuses := (rfl)
theorem finishCrossing_fuses (x0 : ℕ) (x1 : ℕ) (x2 : State) (x3 : ℕ) : (finishCrossing x0 x1 x2 x3).fuses = x2.fuses := by
  unfold finishCrossing
  repeat' first | with_reducible rfl | simp only [↓bump_fuses, ↓modMix_fuses, ↓endCrossing_fuses, ↓settleClass_fuses] | split
theorem startLeaving_fuses (x0 : ℕ) (x1 : ℕ) (x2 : ℕ) (x3 : ℕ) (x4 : State) (x5 : ℕ) : (startLeaving x0 x1 x2 x3 x4 x5).fuses = x4.fuses := by
  unfold startLeaving
  repeat' first | with_reducible rfl | simp only [↓noteTalkers_fuses, ↓modMix_fuses] | split
theorem startEntering_fuses (x0 : ℕ) (x1 : ℕ) (x2 : ℕ) (x3 : ℕ) (x4 : State) (x5 : ℕ) : (startEntering x0 x1 x2 x3 x4 x5).fuses = x4.fuses := by
  unfold startEntering
  repeat' first | with_reducible rfl | simp only [↓modMix_fuses, ↓trackMax_fuses, ↓placeEncode_fuses, ↓noteTalkers_fuses, ↓bump_fuses] | split
theorem startMoving_fuses (x0 : ℕ) (x1 : ℕ) (x2 : ℕ) (x3 : State) (x4 : ℕ) : (startMoving x0 x1 x2 x3 x4).fuses = x3.fuses := by
  unfold startMoving
  repeat' first | with_reducible rfl | simp only [↓placeEncode_fuses, ↓modMix_fuses] | split
theorem sendFrame_fuses (x0 : State) (x1 : ℕ) : (sendFrame x0 x1).fuses = x0.fuses := by unfold sendFrame; split <;> simp only [↓takeFree_fuses, ↓sendMedia_fuses]
theorem classFrame_fuses (x0 : ℕ) (x1 : ℕ) (x2 : State) : (classFrame x0 x1 x2).fuses = x2.fuses := by
  unfold classFrame
  repeat' first | with_reducible rfl | simp only [↓tickToNs_fuses, ↓modConf_fuses, ↓finishCrossing_fuses, ↓startLeaving_fuses, ↓startEntering_fuses, ↓startMoving_fuses, ↓bump_fuses, ↓sendFrame_fuses] | split |
    with_reducible refine (foldl_fuses _ _ _ (fun _ _ => ?_)).trans ?_
theorem memberFrame_fuses (x0 : ℕ) (x1 : ℕ) (x2 : ℕ) (x3 : State) : (memberFrame x0 x1 x2 x3).fuses = x3.fuses := by
  unfold memberFrame
  repeat' first | with_reducible rfl | simp only [↓sendFrame_fuses, ↓bump_fuses] | split
theorem resync_fuses (x0 : ℕ) (x1 : ℕ) (x2 : State) : (resync x0 x1 x2).fuses = x2.fuses := by unfold resync; simp only [↓modJit_fuses, ↓modMix_fuses, ↓raiseUnless_fuses]
theorem anchorJitter_fuses (x0 : ℕ) (x1 : Leg) (x2 : JbPkt) (x3 : ℕ) (x4 : State) : (anchorJitter x0 x1 x2 x3 x4).fuses = x4.fuses := (rfl)
theorem jbArrive_fuses (x0 : ℕ) (x1 : ℕ) (x2 : ℕ) (x3 : ℕ) (x4 : ℕ) (x5 : State) : (jbArrive x0 x1 x2 x3 x4 x5).fuses = x5.fuses := by
  unfold jbArrive
  repeat' first | with_reducible rfl | simp only [↓modJit_fuses, ↓anchorJitter_fuses, ↓resync_fuses, ↓bump_fuses] | split
theorem jbRelease_fuses (x0 : ℕ) (x1 : State) : (jbRelease x0 x1).fuses = x1.fuses := by
  unfold jbRelease
  repeat' first | with_reducible rfl | simp only [↓tickToNs_fuses, ↓modJit_fuses] | split
theorem followTarget_fuses (x0 : ℕ) (x1 : Leg) (x2 : State) : (followTarget x0 x1 x2).fuses = x2.fuses := by
  unfold followTarget
  repeat' first | with_reducible rfl | simp only [↓takeFree_fuses, ↓modJit_fuses] | split
theorem jbTargetRecompute_fuses (x0 : ℕ) (x1 : State) : (jbTargetRecompute x0 x1).fuses = x1.fuses := by
  unfold jbTargetRecompute
  repeat' first | with_reducible rfl | simp only [↓followTarget_fuses, ↓modJit_fuses, ↓takeFree_fuses, ↓resync_fuses] | split
theorem advanceFrame_fuses (x0 : ℕ) (x1 : ℕ) (x2 : State) : (advanceFrame x0 x1 x2).fuses = x2.fuses := (rfl)
theorem concealFrame_fuses (x0 : ℕ) (x1 : Leg) (x2 : State) : (concealFrame x0 x1 x2).fuses = x2.fuses := by
  unfold concealFrame
  repeat' first | with_reducible rfl | simp only [↓bump_fuses, ↓modJit_fuses, ↓modMix_fuses, ↓raise_fuses] | split
theorem decodedFrame_fuses (x0 : ℕ) (x1 : State) : (decodedFrame x0 x1).fuses = x1.fuses := by
  unfold decodedFrame
  repeat' first | with_reducible rfl | simp only [↓bump_fuses, ↓modJit_fuses, ↓modMix_fuses, ↓refade_fuses] | split

end Sys2Proof.Machine
end

