-- ==== Sys2Proof/Laws/FuseFrame5.lean ====
section
/-! SUPPORT. Laws/FuseFrame5.lean: what the operations of Machine/ leave in the fuse store: one lemma an
operation, part 5. Only the operations of Machine/Firmware.lean and what plans them from outside write fuses. -/

set_option linter.all false

namespace Sys2Proof.Machine

theorem noteMismatch_fuses (x0 : ℕ) (x1 : Leg) (x2 : VoiceFrame) (x3 : State) : (noteMismatch x0 x1 x2 x3).fuses = x3.fuses := by
  unfold noteMismatch
  repeat' first | with_reducible rfl | simp only [↓modJit_fuses, ↓raiseUnless_fuses] | split
theorem voiceDecode_fuses (x0 : VoiceFrame) (x1 : State) : (voiceDecode x0 x1).fuses = x1.fuses := by
  unfold voiceDecode
  repeat' first | with_reducible rfl | simp only [↓advanceFrame_fuses, ↓noteMismatch_fuses, ↓decodedFrame_fuses, ↓concealFrame_fuses, ↓modJit_fuses] | split
theorem modAsp_fuses (x0 : ℕ) (x1 : AspPort → AspPort) (x2 : State) : (modAsp x0 x1 x2).fuses = x2.fuses := (rfl)
theorem refadePort_fuses (x0 : ℕ) (x1 : State) : (refadePort x0 x1).fuses = x1.fuses := by
  unfold refadePort
  repeat' first | with_reducible rfl | simp only [↓refade_fuses] | split |
    with_reducible refine (foldl_fuses _ _ _ (fun _ _ => ?_)).trans ?_
theorem aspConfigPlan_fuses (x0 : Cmd) (x1 : State) (t : State) : ((aspConfigPlan x0 x1).run t).st.fuses = t.fuses := (rfl)
theorem aspStartPlan_fuses (x0 : Cmd) (x1 : State) (t : State) : ((aspStartPlan x0 x1).run t).st.fuses = t.fuses := (rfl)
theorem fireArm_fuses (x0 : ℕ) (x1 : State) : (fireArm x0 x1).fuses = x1.fuses := by
  unfold fireArm
  repeat' first | with_reducible rfl | simp only [↓modAsp_fuses] | split |
    with_reducible refine (foldl_fuses _ _ _ (fun _ _ => ?_)).trans ?_
theorem aspTrigIn_fuses (x0 : ℕ) (x1 : ℕ) (x2 : State) : (aspTrigIn x0 x1 x2).fuses = x2.fuses := by
  unfold aspTrigIn
  repeat' first | with_reducible rfl | simp only [↓fireArm_fuses, ↓setRg_fuses] | split
theorem aspArmPlan_fuses (x0 : Cmd) (x1 : State) (t : State) : ((aspArmPlan x0 x1).run t).st.fuses = t.fuses := by
  unfold aspArmPlan
  repeat' first | with_reducible rfl | simp only [↓Done_st_defer, ↓modAsp_fuses, ↓fireArm_fuses] | split |
    with_reducible refine (foldl_fuses _ _ _ (fun _ _ => ?_)).trans ?_
theorem portStarted_fuses (x0 : ℕ) (x1 : State) : (portStarted x0 x1).fuses = x1.fuses := by
  unfold portStarted
  repeat' first | with_reducible rfl | simp only [↓modAsp_fuses, ↓finishRunning_fuses] | split
theorem aspStartInstant_fuses (x0 : ℕ) (x1 : State) : (aspStartInstant x0 x1).fuses = x1.fuses := by
  unfold aspStartInstant
  repeat' first | with_reducible rfl | simp only [↓tickToNs_fuses, ↓setRg_fuses, ↓modAsp_fuses, ↓refadePort_fuses, ↓emit_fuses, ↓portStarted_fuses] | split
theorem aspNoClock_fuses (x0 : ℕ) (x1 : State) : (aspNoClock x0 x1).fuses = x1.fuses := by
  unfold aspNoClock
  repeat' first | with_reducible rfl | simp only [↓tickToNs_fuses, ↓finishRunning_fuses, ↓modAsp_fuses] | split
theorem disarm_fuses (x0 : ℕ) (x1 : State) : (disarm x0 x1).fuses = x1.fuses := by
  unfold disarm
  repeat' first | with_reducible rfl | simp only [↓modAsp_fuses, ↓finishRunning_fuses] | split
theorem aspStopPlan_fuses (x0 : Cmd) (x1 : State) (t : State) : ((aspStopPlan x0 x1).run t).st.fuses = t.fuses := by
  unfold aspStopPlan
  repeat' first | with_reducible rfl | simp only [↓Done_st_defer, ↓Done_st_okWith, ↓disarm_fuses, ↓finishRunning_fuses, ↓refadePort_fuses, ↓modAsp_fuses] | split
theorem aspStopComplete_fuses (x0 : ℕ) (x1 : State) : (aspStopComplete x0 x1).fuses = x1.fuses := by
  unfold aspStopComplete
  repeat' first | with_reducible rfl | simp only [↓tickTo_fuses, ↓flushRelease_fuses, ↓modAsp_fuses, ↓finishRunning_fuses] | split
theorem aspMaskPlan_fuses (x0 : Cmd) (x1 : State) (t : State) : ((aspMaskPlan x0 x1).run t).st.fuses = t.fuses := (rfl)
theorem applyMask_fuses (x0 : ℕ) (x1 : List MaskSet) (x2 : State) (x3 : Bool) : (applyMask x0 x1 x2 x3).fuses = x2.fuses := by
  unfold applyMask
  repeat' first | with_reducible rfl | simp only [↓modAsp_fuses, ↓bump_fuses, ↓raiseUnless_fuses, ↓refadePort_fuses, ↓finishAll_fuses] | split
theorem aspUnderrun_fuses (x0 : ℕ) (x1 : State) : (aspUnderrun x0 x1).fuses = x1.fuses := by unfold aspUnderrun; simp only [↓deadlineMiss_fuses, ↓bump_fuses]
theorem frameIn_fuses (x0 : ℕ) (x1 : AudioFrame) (x2 : State) : (frameIn x0 x1 x2).fuses = x2.fuses := by
  unfold frameIn
  repeat' first | with_reducible rfl | simp only [↓bump_fuses, ↓modAsp_fuses] | split
theorem frameOut_fuses (x0 : ℕ) (x1 : AudioFrame) (x2 : State) : (frameOut x0 x1 x2).fuses = x2.fuses := by
  unfold frameOut
  repeat' first | with_reducible rfl | simp only [↓aspUnderrun_fuses, ↓bumpBy_fuses, ↓bump_fuses, ↓modAsp_fuses] | split
theorem aspFrame_fuses (x0 : AudioFrame) (x1 : State) : (aspFrame x0 x1).fuses = x1.fuses := by
  unfold aspFrame
  repeat' first | with_reducible rfl | simp only [↓tickToNs_fuses, ↓modAsp_fuses, ↓bump_fuses, ↓applyMask_fuses, ↓frameOut_fuses, ↓frameIn_fuses] | split |
    with_reducible refine (foldl_fuses _ _ _ (fun _ _ => ?_)).trans ?_
theorem enterHold_fuses (x0 : ℕ) (x1 : ℕ) (x2 : State) : (enterHold x0 x1 x2).fuses = x2.fuses := by unfold enterHold; simp only [↓flushRelease_fuses, ↓modAsp_fuses, ↓bump_fuses, ↓raise_fuses]
theorem aspClockLost_fuses (x0 : ℕ) (x1 : State) : (aspClockLost x0 x1).fuses = x1.fuses := by
  unfold aspClockLost
  repeat' first | with_reducible rfl | simp only [↓enterHold_fuses, ↓tickToNs_fuses] | split
theorem aspHoldFade_fuses (x0 : ℕ) (x1 : State) : (aspHoldFade x0 x1).fuses = x1.fuses := by
  unfold aspHoldFade
  repeat' first | with_reducible rfl | simp only [↓tickTo_fuses, ↓modAsp_fuses, ↓modMix_fuses] | split |
    with_reducible refine (foldl_fuses _ _ _ (fun _ _ => ?_)).trans ?_
theorem aspRateChange_fuses (x0 : ℕ) (x1 : State) : (aspRateChange x0 x1).fuses = x1.fuses := by
  unfold aspRateChange
  repeat' first | with_reducible rfl | simp only [↓raise_fuses, ↓modAsp_fuses, ↓bump_fuses, ↓enterHold_fuses] | split
theorem aspConverged_fuses (x0 : ℕ) (x1 : State) : (aspConverged x0 x1).fuses = x1.fuses := by
  unfold aspConverged
  repeat' first | with_reducible rfl | simp only [↓modAsp_fuses, ↓modMix_fuses, ↓portStarted_fuses, ↓refadePort_fuses] | split |
    with_reducible refine (foldl_fuses _ _ _ (fun _ _ => ?_)).trans ?_
theorem aspPinFault_fuses (x0 : ℕ) (x1 : ℕ) (x2 : ℕ) (x3 : State) : (aspPinFault x0 x1 x2 x3).fuses = x3.fuses := by
  unfold aspPinFault
  repeat' first | with_reducible rfl | simp only [↓modAsp_fuses, ↓raiseUnless_fuses, ↓bump_fuses, ↓enterHold_fuses] | split
theorem aspPinRetry_fuses (x0 : ℕ) (x1 : ℕ) (x2 : Bool) (x3 : State) : (aspPinRetry x0 x1 x2 x3).fuses = x3.fuses := by
  unfold aspPinRetry
  repeat' first | with_reducible rfl | simp only [↓tickTo_fuses, ↓modAsp_fuses, ↓raiseUnless_fuses, ↓raise_fuses, ↓bump_fuses] | split
theorem aspQueryPlan_fuses (x0 : Cmd) (x1 : State) (t : State) : ((aspQueryPlan x0 x1).run t).st.fuses = t.fuses := (rfl)
theorem sleepPin_fuses (x0 : ℕ) (x1 : State) : (sleepPin x0 x1).fuses = x1.fuses := (rfl)
theorem enterCold_fuses (x0 : ℕ) (x1 : ℕ) (x2 : State) : (enterCold x0 x1 x2).fuses = x2.fuses := (rfl)
theorem leaveCold_fuses (x0 : State) : (leaveCold x0).fuses = x0.fuses := (rfl)
theorem endEntry_fuses (x0 : Refuser) (x1 : State) : (endEntry x0 x1).fuses = x1.fuses := by
  unfold endEntry
  repeat' first | with_reducible rfl | simp only [↓finishRunning_fuses, ↓bump32_fuses, ↓raise_fuses] | split
theorem enterEmber_fuses (x0 : State) : (enterEmber x0).fuses = x0.fuses := by
  unfold enterEmber
  repeat' first | with_reducible rfl | simp only [↓raiseUnless_fuses, ↓portLink_fuses, ↓bump32_fuses, ↓bump_fuses] | split |
    with_reducible refine (foldl_fuses _ _ _ (fun _ _ => ?_)).trans ?_
theorem passPoint_fuses (x0 : State) : (passPoint x0).fuses = x0.fuses := by
  unfold passPoint
  repeat' first | with_reducible rfl | simp only [↓trackMax_fuses, ↓enterCold_fuses, ↓enterEmber_fuses] | split
theorem entryStep_fuses (x0 : Bool) (x1 : State) : (entryStep x0 x1).fuses = x1.fuses := by
  unfold entryStep
  repeat' first | with_reducible rfl | simp only [↓bump_fuses, ↓endEntry_fuses, ↓passPoint_fuses] | split
theorem drainTimeout_fuses (x0 : State) : (drainTimeout x0).fuses = x0.fuses := by unfold drainTimeout; split <;> simp only [↓endEntry_fuses, ↓tickTo_fuses]
theorem pwrStatePlan_fuses (x0 : Cmd) (x1 : State) (t : State) : ((pwrStatePlan x0 x1).run t).st.fuses = t.fuses := by
  unfold pwrStatePlan
  repeat' first | with_reducible rfl | simp only [↓Done_st_defer, ↓Done_st_ok] | split
theorem pwrWakePlan_fuses (x0 : Cmd) (x1 : State) (t : State) : ((pwrWakePlan x0 x1).run t).st.fuses = t.fuses := (rfl)
theorem wakeEvent_fuses (x0 : ℕ) (x1 : ℕ) (x2 : State) : (wakeEvent x0 x1 x2).fuses = x2.fuses := by unfold wakeEvent; simp only [↓raiseUnless_fuses]
theorem wakeSource_fuses (x0 : ℕ) (x1 : State) : (wakeSource x0 x1).fuses = x1.fuses := by
  unfold wakeSource
  repeat' first | with_reducible rfl | simp only [↓tickToNs_fuses, ↓wakeEvent_fuses, ↓bumpBy_fuses, ↓leaveCold_fuses] | split
theorem lose_fuses (x0 : Word) (x1 : ℕ) (x2 : ℕ) (x3 : Word) (x4 : State) : (lose x0 x1 x2 x3 x4).fuses = x4.fuses := (rfl)
theorem retentionLegs_fuses (x0 : List Word) (x1 : State) : (retentionLegs x0 x1).fuses = x1.fuses := by
  unfold retentionLegs
  repeat' first | with_reducible rfl | simp only [↓holdLeg_fuses, ↓legEvent_fuses] | split |
    with_reducible refine (foldl_fuses _ _ _ (fun _ _ => ?_)).trans ?_
theorem restoreCore_fuses (x0 : ℕ) (x1 : State) : (restoreCore x0 x1).fuses = x1.fuses := by
  unfold restoreCore
  repeat' first | with_reducible rfl | simp only [↓dmemWrite_fuses] | split |
    with_reducible refine (foldl_fuses _ _ _ (fun _ _ => ?_)).trans ?_
theorem loseBank_fuses (x0 : ℕ) (x1 : State) : (loseBank x0 x1).2.fuses = x1.fuses := by
  unfold loseBank
  repeat' first | with_reducible rfl | simp only [↓lose_fuses, ↓modFlow_fuses, ↓retentionLegs_fuses, ↓modKey_fuses, ↓restoreCore_fuses] | split |
    with_reducible refine (foldl_fuses _ _ _ (fun _ _ => ?_)).trans ?_
theorem loseBank_fuses' {x0 : ℕ} {x1 : State} {r : State} {v : List Word} (h : loseBank x0 x1 = (v, r)) : r.fuses = x1.fuses := by
  have := loseBank_fuses x0 x1; rw [h] at this; exact this
theorem retentionLost_fuses (x0 : State) (x1 : ℕ) : (retentionLost x0 x1).fuses = x0.fuses := by unfold retentionLost; split <;> simp only [↓loseBank_fuses, ↓raise_fuses, ↓bump_fuses]
theorem selfRefreshExit_fuses (x0 : ℤ) (x1 : State) : (selfRefreshExit x0 x1).fuses = x1.fuses := by
  unfold selfRefreshExit
  repeat' first | with_reducible rfl | simp only [↓modChan_fuses, ↓startRetrain_fuses] | split |
    with_reducible refine (foldl_fuses _ _ _ (fun _ _ => ?_)).trans ?_
theorem logicReady_fuses (x0 : State) : (logicReady x0).fuses = x0.fuses := by
  unfold logicReady
  repeat' first | with_reducible rfl | simp only [↓trackMax_fuses, ↓wakeEvent_fuses, ↓raiseUnless_fuses, ↓emberReply_fuses] | split
theorem wakeReady_fuses (x0 : List ℕ) (x1 : ℤ) (x2 : State) : (wakeReady x0 x1 x2).fuses = x2.fuses := by
  unfold wakeReady
  repeat' first | with_reducible rfl | simp only [↓selfRefreshExit_fuses, ↓retentionLost_fuses, ↓logicReady_fuses] | split |
    with_reducible refine (foldl_fuses _ _ _ (fun _ _ => ?_)).trans ?_
theorem wakeStepTimeout_fuses (x0 : State) : (wakeStepTimeout x0).fuses = x0.fuses := by
  unfold wakeStepTimeout
  repeat' first | with_reducible rfl | simp only [↓tickTo_fuses, ↓bump_fuses, ↓leaveCold_fuses, ↓enterCold_fuses] | split
theorem pwrQueryPlan_fuses (x0 : Cmd) (x1 : State) (t : State) : ((pwrQueryPlan x0 x1).run t).st.fuses = t.fuses := (rfl)
theorem unstart_fuses (x0 : ℕ) (x1 : State) : (unstart x0 x1).fuses = x1.fuses := (rfl)
theorem discardStart_fuses {e : OutCmd} {s : State} {r : State × Nat} (h : discardStart e s = some r) : r.1.fuses = s.fuses := by
  unfold discardStart at h
  extract_lets a at h
  split at h
  · injection h with h; rw [← h]; exact unstart_fuses ..
  · contradiction
theorem discardArm_fuses {x0 : OutCmd} {x1 : State} {r : State × ℕ} (h : discardArm x0 x1 = some r) : r.1.fuses = x1.fuses := by
  unfold discardArm at h
  repeat' first | contradiction | (injection h with h; subst h) | split at h
  repeat' first | with_reducible rfl | simp only [↓unstart_fuses] | split |
    with_reducible refine (foldl_fuses _ _ _ (fun _ _ => ?_)).trans ?_
theorem discardMask_fuses {x0 : OutCmd} {x1 : State} {r : State × ℕ} (h : discardMask x0 x1 = some r) : r.1.fuses = x1.fuses := by
  unfold discardMask at h
  repeat' first | contradiction | (injection h with h; subst h) | split at h
  repeat' first | with_reducible rfl | simp only [↓modAsp_fuses] | split
theorem discardLayout_fuses {x0 : OutCmd} {x1 : State} {r : State × ℕ} (h : discardLayout x0 x1 = some r) : r.1.fuses = x1.fuses := by
  unfold discardLayout at h
  repeat' first | contradiction | (injection h with h; subst h) | split at h
  repeat' first | with_reducible rfl | simp only [↓modComp_fuses] | split
theorem discardTrain_fuses {x0 : OutCmd} {x1 : State} {r : State × ℕ} (h : discardTrain x0 x1 = some r) : r.1.fuses = x1.fuses := by
  unfold discardTrain at h
  repeat' first | contradiction | (injection h with h; subst h) | split at h
  repeat' first | with_reducible rfl | simp only [↓modChan_fuses, ↓kickTrains_fuses] | split
theorem discardParam_fuses {x0 : OutCmd} {x1 : State} {r : State × ℕ} (h : discardParam x0 x1 = some r) : r.1.fuses = x1.fuses := by
  unfold discardParam at h
  repeat' first | contradiction | (injection h with h; subst h) | split at h
  repeat' first | with_reducible rfl | simp only [↓modTask_fuses, ↓writeShadowParam_fuses] | split
theorem discardKey_fuses {x0 : OutCmd} {x1 : State} {r : State × ℕ} (h : discardKey x0 x1 = some r) : r.1.fuses = x1.fuses := by
  unfold discardKey at h
  repeat' first | contradiction | (injection h with h; subst h) | split at h
  repeat' first | with_reducible rfl | simp only [↓modEnc_fuses] | split
theorem discardInstall_fuses {x0 : OutCmd} {x1 : State} {r : State × ℕ} (h : discardInstall x0 x1 = some r) : r.1.fuses = x1.fuses := by
  unfold discardInstall at h
  repeat' first | contradiction | (injection h with h; subst h) | split at h
  repeat' first | with_reducible rfl | simp only [] | split
theorem discardShadow_fuses {x0 : OutCmd} {x1 : State} {r : State × ℕ} (h : discardShadow x0 x1 = some r) : r.1.fuses = x1.fuses := by
  unfold discardShadow at h
  repeat' first | contradiction | (injection h with h; subst h) | split at h
  repeat' first | with_reducible rfl | simp only [↓modBus_fuses] | split
theorem discardChannel_fuses {e : OutCmd} {s : State} {r : State × Nat} (h : discardChannel e s = some r) : r.1.fuses = s.fuses := by
  unfold discardChannel at h
  extract_lets i mine x at h
  split at h
  · injection h with h; rw [← h]; exact modRadio_fuses ..
  · split at h
    · injection h with h; rw [← h]; exact modRadio_fuses ..
    · contradiction
theorem discardCal_fuses {e : OutCmd} {s : State} {r : State × Nat} (h : discardCal e s = some r) : r.1.fuses = s.fuses := by
  unfold discardCal at h
  extract_lets i mine x at h
  split at h
  · split at h
    · injection h with h; rw [← h]
      show (startJobs _ _).fuses = _
      rw [startJobs_fuses, modRadio_fuses]
    · split at h
      · injection h with h; rw [← h]; exact modRadio_fuses ..
      · contradiction
  · split at h
    · injection h with h; rw [← h]; exact modRadio_fuses ..
    · contradiction
theorem discardScan_fuses {x0 : OutCmd} {x1 : State} {r : State × ℕ} (h : discardScan x0 x1 = some r) : r.1.fuses = x1.fuses := by
  unfold discardScan at h
  repeat' first | contradiction | (injection h with h; subst h) | split at h
  repeat' first | with_reducible rfl | simp only [] | split
theorem discardAdmit_fuses {x0 : OutCmd} {x1 : State} {r : State × ℕ} (h : discardAdmit x0 x1 = some r) : r.1.fuses = x1.fuses := by
  unfold discardAdmit at h
  repeat' first | contradiction | (injection h with h; subst h) | split at h
  repeat' first | with_reducible rfl | simp only [↓freeSta_fuses, ↓releaseSta_fuses, ↓modSta_fuses] | split
theorem discardBoot_fuses {x0 : OutCmd} {x1 : State} {r : State × ℕ} (h : discardBoot x0 x1 = some r) : r.1.fuses = x1.fuses := by
  unfold discardBoot at h
  repeat' first | contradiction | (injection h with h; subst h) | split at h
  repeat' first | with_reducible rfl | simp only [] | split
theorem discard_fuses {e : OutCmd} {s : State} {r : State × Nat} (h : discard e s = some r) : r.1.fuses = s.fuses := by
  unfold discard at h
  split at h
  · exact discardShadow_fuses h
  · exact discardStart_fuses h
  · exact discardMask_fuses h
  · exact discardArm_fuses h
  · exact discardParam_fuses h
  · exact discardLayout_fuses h
  · exact discardLayout_fuses h
  · exact discardLayout_fuses h
  · exact discardKey_fuses h
  · exact discardInstall_fuses h
  · exact discardInstall_fuses h
  · exact discardInstall_fuses h
  · exact discardInstall_fuses h
  · exact discardAdmit_fuses h
  · exact discardScan_fuses h
  · exact discardChannel_fuses h
  · exact discardCal_fuses h
  · exact discardBoot_fuses h
  · exact discardBoot_fuses h
  · exact discardTrain_fuses h
  · contradiction
theorem abortRun_fuses (x0 : Cmd) (x1 : State) : (abortRun x0 x1).st.fuses = x1.fuses := by
  unfold abortRun
  repeat' first
    | with_reducible rfl
    | simp only [↓Done_st_reply, ↓Done_st_defer, ↓Done_st_ok, ↓Done_st_okWith, ↓finishEntry_fuses]
    | split
    | with_reducible refine (discard_fuses (by assumption)).trans ?_
    | with_reducible refine (foldl_fuses _ _ _ (fun _ _ => ?_)).trans ?_
    | with_reducible refine (foldl_snd_fuses _ _ _ (fun _ _ => ?_)).trans ?_
theorem devAbortPlan_fuses (x0 : Cmd) (x1 : State) (t : State) : ((devAbortPlan x0 x1).run t).st.fuses = t.fuses := by unfold devAbortPlan; simp only [↓abortRun_fuses]
theorem readSensor_fuses (x0 : ℕ) (x1 : ℤ) (x2 : State) : (readSensor x0 x1 x2).fuses = x2.fuses := (rfl)
theorem thermalHigh_fuses (x0 : ℕ) (x1 : ℤ) (x2 : State) : (thermalHigh x0 x1 x2).fuses = x2.fuses := by
  unfold thermalHigh
  repeat' first | with_reducible rfl | simp only [↓readSensor_fuses, ↓raiseUnless_fuses] | split
theorem thermalTrip_fuses (x0 : ℕ) (x1 : ℤ) (x2 : State) : (thermalTrip x0 x1 x2).fuses = x2.fuses := by
  unfold thermalTrip
  repeat' first | with_reducible rfl | simp only [↓readSensor_fuses, ↓enterCold_fuses, ↓raise_fuses] | split
theorem supplyFault_fuses (x0 : ℕ) (x1 : ℕ) (x2 : ℕ) (x3 : State) : (supplyFault x0 x1 x2 x3).fuses = x3.fuses := by
  unfold supplyFault
  repeat' first | with_reducible rfl | simp only [↓fullReset_fuses, ↓enterCold_fuses, ↓raise_fuses] | split
theorem makePlan_fuses (x0 : List (List ℕ)) (x1 : ℕ) (x2 : ℕ) (x3 : State) : (makePlan x0 x1 x2 x3).fuses = x3.fuses := by
  unfold makePlan
  repeat' first | with_reducible rfl | simp only [↓raise_fuses] | split
theorem marginPlan_fuses (x0 : List (List ℕ)) (x1 : ℕ) (x2 : ℕ) (x3 : State) : (marginPlan x0 x1 x2 x3).fuses = x3.fuses := by unfold marginPlan; split <;> simp only [↓makePlan_fuses, ↓tickTo_fuses]
theorem canaryMeasure_fuses (x0 : List ℕ) (x1 : State) : (canaryMeasure x0 x1).fuses = x1.fuses := by
  unfold canaryMeasure
  repeat' first | with_reducible rfl | simp only [↓tick_fuses] | split |
    with_reducible refine (foldl_fuses _ _ _ (fun _ _ => ?_)).trans ?_
theorem putEngine_fuses (x0 : ℕ) (x1 : ℕ) (x2 : Engine) (x3 : State) : (putEngine x0 x1 x2 x3).fuses = x3.fuses := (rfl)
theorem engineUncovered_fuses (x0 : ℕ) (x1 : ℕ) (x2 : ℕ) (x3 : State) : (engineUncovered x0 x1 x2 x3).fuses = x3.fuses := by
  unfold engineUncovered
  repeat' first | with_reducible rfl | simp only [↓raise_fuses, ↓finishEntry_fuses, ↓sessionFault_fuses] | split |
    with_reducible refine (foldl_fuses _ _ _ (fun _ _ => ?_)).trans ?_
theorem moveWork_fuses (x0 : ℕ) (x1 : ℕ) (x2 : State) : (moveWork x0 x1 x2).2.fuses = x2.fuses := by
  unfold moveWork
  repeat' first | with_reducible rfl | simp only [↓coreMigration_fuses, ↓finishEntry_fuses, ↓takeFree_fuses, ↓bump_fuses] | split |
    with_reducible refine (foldl_fuses _ _ _ (fun _ _ => ?_)).trans ?_
theorem moveWork_fuses' {x0 : ℕ} {x1 : ℕ} {x2 : State} {r : State} {v : ℕ} (h : moveWork x0 x1 x2 = (v, r)) : r.fuses = x2.fuses := by
  have := moveWork_fuses x0 x1 x2; rw [h] at this; exact this
theorem engineMigrated_fuses (x0 : ℕ) (x1 : ℕ) (x2 : ℕ) (x3 : ℕ) (x4 : State) : (engineMigrated x0 x1 x2 x3 x4).fuses = x4.fuses := by
  unfold engineMigrated
  repeat' first | with_reducible rfl | simp only [↓engineUncovered_fuses, ↓putEngine_fuses, ↓moveWork_fuses, ↓bump_fuses, ↓raiseUnless_fuses, ↓raise_fuses] | split
theorem engineSelftest_fuses (x0 : ℕ) (x1 : ℕ) (x2 : Bool) (x3 : State) : (engineSelftest x0 x1 x2 x3).fuses = x3.fuses := by
  unfold engineSelftest
  repeat' first | with_reducible rfl | simp only [↓bump_fuses, ↓putEngine_fuses] | split
theorem hltQueryPlan_fuses (x0 : Cmd) (x1 : State) (t : State) : ((hltQueryPlan x0 x1).run t).st.fuses = t.fuses := (rfl)
theorem hltMarginPlan_fuses (x0 : Cmd) (x1 : State) (t : State) : ((hltMarginPlan x0 x1).run t).st.fuses = t.fuses := (rfl)
theorem hltSparePlan_fuses (x0 : Cmd) (x1 : State) (t : State) : ((hltSparePlan x0 x1).run t).st.fuses = t.fuses := (rfl)
theorem retryHandoffs_fuses (i n : Nat) (s : State) : (retryHandoffs i n s).fuses = s.fuses := by
  induction n generalizing s with
  | zero => rfl
  | succ n ih =>
    unfold retryHandoffs
    split
    · split
      · rw [ih, flueChanged_fuses, tapFlue_fuses]
        refine (foldl_fuses _ _ _ (fun s it => ?_)).trans rfl
        split
        · split
          · exact pushFirst_fuses ..
          · exact pushNext_fuses ..
        · rfl
      · rfl
    · rfl
    · rfl
theorem flueOp_fuses (i : Nat) (cb : List Nat) (op : Flue → State → State) (s : State)
    (h : ∀ f s, (op f s).fuses = s.fuses) : (flueOp i cb op s).fuses = s.fuses := by
  unfold flueOp
  extract_lets s1
  have h1 : s1.fuses = s.fuses := (flueChanged_fuses ..).trans (atBank_fuses _ _ _ _ h)
  clear_value s1
  rw [← h1]
  split
  · rfl
  · exact retryHandoffs_fuses ..
theorem pushOp_fuses (x0 : ℕ) (x1 : ℕ) (x2 : Item) (x3 : Flue) (x4 : State) : (pushOp x0 x1 x2 x3 x4).fuses = x4.fuses := by
  unfold pushOp
  repeat' first | with_reducible rfl | simp only [↓pushItem_fuses, ↓tapFlue_fuses] | split
theorem abandonOp_fuses (x0 : ℕ) (x1 : ℕ) (x2 : Flue) (x3 : State) : (abandonOp x0 x1 x2 x3).fuses = x3.fuses := by unfold abandonOp; split <;> simp only [↓closePacket_fuses]
theorem popOp_fuses (x0 : ℕ) (x1 : ℕ) (x2 : Flue) (x3 : State) : (popOp x0 x1 x2 x3).fuses = x3.fuses := by unfold popOp; split <;> simp only [↓popFlue_fuses, ↓emit_fuses]
theorem consumerOp_fuses (i c : Nat) (op : Nat → Flue → State → State) (f : Flue) (s : State)
    (h : ∀ i f s, (op i f s).fuses = s.fuses) : (consumerOp i c op f s).fuses = s.fuses := by
  unfold consumerOp
  split
  · exact h ..
  · rfl
theorem bufDrop_fuses (x0 : ℕ) (x1 : State) : (bufDrop x0 x1).fuses = x1.fuses := by
  unfold bufDrop
  repeat' first | with_reducible rfl | simp only [↓bump_fuses, ↓raiseUnless_fuses] | split
theorem macsecIn_fuses (x0 : ℕ) (x1 : ℕ) (x2 : ℕ × ℕ × ℕ × Bool) (x3 : State) : (macsecIn x0 x1 x2 x3).2.fuses = x3.fuses := by
  unfold macsecIn
  repeat' first | with_reducible rfl | simp only [↓bump_fuses, ↓cipherReceive_fuses] | split
theorem macsecIn_fuses' {x0 : ℕ} {x1 : ℕ} {x2 : ℕ × ℕ × ℕ × Bool} {x3 : State} {r : State} {v : Bool} (h : macsecIn x0 x1 x2 x3 = (v, r)) : r.fuses = x3.fuses := by
  have := macsecIn_fuses x0 x1 x2 x3; rw [h] at this; exact this
theorem lookup_fuses (x0 : List Byte) (x1 : State) : (lookup x0 x1).2.fuses = x1.fuses := by
  unfold lookup
  repeat' first | with_reducible rfl | simp only [↓bump_fuses, ↓modFlow_fuses] | split
theorem lookup_fuses' {x0 : List Byte} {x1 : State} {r : State} {v : Option (ℕ × Flow)} (h : lookup x0 x1 = (v, r)) : r.fuses = x1.fuses := by
  have := lookup_fuses x0 x1; rw [h] at this; exact this
theorem frameItems_fuses (x0 : ℕ) (x1 : List Byte) (x2 : State) : (frameItems x0 x1 x2).2.fuses = x2.fuses := by unfold frameItems; split <;> simp only [↓freeBytes_fuses]
theorem frameItems_fuses' {x0 : ℕ} {x1 : List Byte} {x2 : State} {r : State} {v : List Item} (h : frameItems x0 x1 x2 = (v, r)) : r.fuses = x2.fuses := by
  have := frameItems_fuses x0 x1 x2; rw [h] at this; exact this
theorem toFlue_fuses (x0 : ℕ) (x1 : ℕ) (x2 : ℕ) (x3 : List Byte) (x4 : State) : (toFlue x0 x1 x2 x3 x4).fuses = x4.fuses := by unfold toFlue; simp only [↓takeFree_fuses, ↓frameItems_fuses, ↓retryHandoffs_fuses]
theorem retryAll_fuses (x0 : State) : (retryAll x0).fuses = x0.fuses := by
  unfold retryAll
  repeat' first | with_reducible rfl | simp only [↓retryHandoffs_fuses] | split |
    with_reducible refine (foldl_fuses _ _ _ (fun _ _ => ?_)).trans ?_
theorem lfwPicture_fuses (x0 : ℕ) (x1 : ℕ) (x2 : VideoView) (x3 : State) : (lfwPicture x0 x1 x2 x3).fuses = x3.fuses := by
  unfold lfwPicture
  repeat' first | with_reducible rfl | simp only [↓modStream_fuses, ↓requestKey_fuses, ↓cancelKey_fuses, ↓evaluateSet_fuses] | split |
    with_reducible refine (foldl_fuses _ _ _ (fun _ _ => ?_)).trans ?_
theorem forwardPkt_fuses (x0 : ℕ) (x1 : ℕ) (x2 : VideoView) (x3 : State) : (forwardPkt x0 x1 x2 x3).fuses = x3.fuses := by
  unfold forwardPkt
  repeat' first | with_reducible rfl | simp only [↓bump_fuses] | split
theorem videoArrive_fuses (x0 : ℕ) (x1 : ℕ) (x2 : Frame) (x3 : State) : (videoArrive x0 x1 x2 x3).fuses = x3.fuses := by
  unfold videoArrive
  repeat' first | with_reducible rfl | simp only [↓bump_fuses, ↓modStream_fuses, ↓lfwPicture_fuses, ↓forwardPkt_fuses, ↓decArrive_fuses] | split |
    with_reducible refine (foldl_fuses _ _ _ (fun _ _ => ?_)).trans ?_
theorem heardReport_fuses (x0 : ℕ) (x1 : State) : (heardReport x0 x1).fuses = x1.fuses := (rfl)
theorem ccFeedback_fuses (x0 : ℕ) (x1 : List (ℕ × Option ℤ)) (x2 : State) : (ccFeedback x0 x1 x2).fuses = x2.fuses := (rfl)
theorem receiverReport_fuses (x0 : ℕ) (x1 : ℕ) (x2 : State) : (receiverReport x0 x1 x2).fuses = x2.fuses := (rfl)
theorem pliArrive_fuses (x0 : ℕ) (x1 : ℕ) (x2 : State) : (pliArrive x0 x1 x2).fuses = x2.fuses := by
  unfold pliArrive
  repeat' first | with_reducible rfl | simp only [↓bump_fuses, ↓requestEncKey_fuses, ↓requestKey_fuses] | split
theorem rtcpItem_fuses (x0 : ℕ) (x1 : State) (x2 : RtcpItem) : (rtcpItem x0 x1 x2).fuses = x1.fuses := by
  unfold rtcpItem
  repeat' first | with_reducible rfl | simp only [↓ccFeedback_fuses, ↓receiverReport_fuses, ↓pliArrive_fuses, ↓bump_fuses] | split
theorem srtcpReceive_fuses (x0 : ℕ) (x1 : ℕ) (x2 : RtpView) (x3 : State) : (srtcpReceive x0 x1 x2 x3).2.fuses = x3.fuses := by
  unfold srtcpReceive
  repeat' first | with_reducible rfl | simp only [↓bump_fuses, ↓chargePipe_fuses, ↓dropHeld_fuses, ↓modKey_fuses] | split
theorem srtcpReceive_fuses' {x0 : ℕ} {x1 : ℕ} {x2 : RtpView} {x3 : State} {r : State} {v : Bool} (h : srtcpReceive x0 x1 x2 x3 = (v, r)) : r.fuses = x3.fuses := by
  have := srtcpReceive_fuses x0 x1 x2 x3; rw [h] at this; exact this
theorem srtpIn_fuses (x0 : ℕ) (x1 : Bool) (x2 : Frame) (x3 : State) : (srtpIn x0 x1 x2 x3).2.fuses = x3.fuses := by
  unfold srtpIn
  repeat' first | with_reducible rfl | simp only [↓bump_fuses, ↓srtcpReceive_fuses, ↓cipherReceive_fuses] | split
theorem srtpIn_fuses' {x0 : ℕ} {x1 : Bool} {x2 : Frame} {x3 : State} {r : State} {v : Bool} (h : srtpIn x0 x1 x2 x3 = (v, r)) : r.fuses = x3.fuses := by
  have := srtpIn_fuses x0 x1 x2 x3; rw [h] at this; exact this
theorem tapClear_fuses (f : Frame) (fl : Option (Nat × Flow)) (o b : Bool) (s : State) : (tapClear f fl o b s).fuses = s.fuses := by
  unfold tapClear
  split
  · rfl
  · split
    rename_i d s1 heq
    have h1 : s1.fuses = s.fuses := by
      split at heq
      · exact freeBytes_fuses' heq
      · injection heq with _ h; rw [h]
    rw [← h1]
    exact tap_fuses ..
theorem audioSsrc_fuses (x0 : ℕ) (x1 : Flow) (x2 : ℕ) (x3 : State) : (audioSsrc x0 x1 x2 x3).2.fuses = x3.fuses := by
  unfold audioSsrc
  repeat' first | with_reducible rfl | simp only [↓modFlow_fuses] | split
theorem audioSsrc_fuses' {x0 : ℕ} {x1 : Flow} {x2 : ℕ} {x3 : State} {r : State} {v : Bool} (h : audioSsrc x0 x1 x2 x3 = (v, r)) : r.fuses = x3.fuses := by
  have := audioSsrc_fuses x0 x1 x2 x3; rw [h] at this; exact this
theorem rtpArrive_fuses (x0 : ℕ) (x1 : ℕ) (x2 : Flow) (x3 : Frame) (x4 : State) : (rtpArrive x0 x1 x2 x3 x4).fuses = x4.fuses := by
  unfold rtpArrive
  repeat' first | with_reducible rfl | simp only [↓videoArrive_fuses, ↓audioSsrc_fuses, ↓jbArrive_fuses, ↓modLeg_fuses] | split
theorem mediaArrive_fuses (x0 : ℕ) (x1 : Flow) (x2 : Frame) (x3 : State) : (mediaArrive x0 x1 x2 x3).fuses = x3.fuses := by
  unfold mediaArrive
  repeat' first | with_reducible rfl | simp only [↓modLeg_fuses, ↓srtpIn_fuses, ↓tapClear_fuses, ↓rtcpItem_fuses, ↓rtpArrive_fuses] | split |
    with_reducible refine (foldl_fuses _ _ _ (fun _ _ => ?_)).trans ?_
theorem entryArrive_fuses (x0 : ℕ) (x1 : Flow) (x2 : Frame) (x3 : State) : (entryArrive x0 x1 x2 x3).fuses = x3.fuses := by unfold entryArrive; split <;> simp only [↓toFlue_fuses, ↓tapClear_fuses, ↓mediaArrive_fuses]
theorem answerTo_fuses (x0 : Frame) (x1 : Option ℕ) (x2 : State) : (answerTo x0 x1 x2).fuses = x2.fuses := by
  unfold answerTo
  repeat' first | with_reducible rfl | simp only [↓takeFree_fuses, ↓wlanEnqueue_fuses, ↓transmit_fuses] | split
theorem maybeAnswer_fuses (x0 : Frame) (x1 : Option ℕ) (x2 : State) : (maybeAnswer x0 x1 x2).fuses = x2.fuses := by
  unfold maybeAnswer
  repeat' first | with_reducible rfl | simp only [↓takeFree_fuses, ↓answerTo_fuses] | split
theorem learnNeighbour_fuses (x0 : List Byte) (x1 : List Byte) (x2 : ℕ) (x3 : State) : (learnNeighbour x0 x1 x2 x3).fuses = x3.fuses := by unfold learnNeighbour; split <;> simp only [↓putNeighbour_fuses]
theorem hearthFrame_fuses (x0 : Frame) (x1 : Option ℕ) (x2 : State) : (hearthFrame x0 x1 x2).fuses = x2.fuses := by unfold hearthFrame; split <;> simp only [↓bump_fuses, ↓maybeAnswer_fuses, ↓learnNeighbour_fuses]
theorem dhcpServe_fuses (x0 : Frame) (x1 : ℕ) (x2 : State) : (dhcpServe x0 x1 x2).fuses = x2.fuses := by
  unfold dhcpServe
  repeat' first | with_reducible rfl | simp only [↓maybeAnswer_fuses, ↓answerTo_fuses, ↓learnNeighbour_fuses] | split
theorem icmpError_fuses (x0 : Frame) (x1 : Option ℕ) (x2 : State) : (icmpError x0 x1 x2).fuses = x2.fuses := by
  unfold icmpError
  repeat' first | with_reducible rfl | simp only [↓answerTo_fuses] | split
theorem natExhausted_fuses (x0 : ℕ) (x1 : ℕ) (x2 : State) : (natExhausted x0 x1 x2).fuses = x2.fuses := by
  unfold natExhausted
  repeat' first | with_reducible rfl | simp only [↓bump_fuses, ↓raiseUnless_fuses] | split
theorem createConn_fuses {pc st n rp p : Nat} {v6 : Bool} {rem : List Byte} {la : Option Nat} {s r : State}
    (h : createConn pc st n rp p v6 rem la s = some r) : r.fuses = s.fuses := by
  unfold createConn at h
  split at h
  · contradiction
  · split at h
    rename_i v s1 heq
    have h1 : s1.fuses = s.fuses := by
      split at heq
      · injection heq with _ h; rw [h]
      · exact takeFree_fuses' heq
    rw [← h1]
    clear heq h1
    extract_lets head tail_ out inb now at h
    clear_value out inb now
    split at h
    · contradiction
    · rename_i heq
      split at h
      · contradiction
      · rename_i heq2
        injection h with h
        rw [← h, bump_fuses]
        exact (addFlow_fuses heq2).trans (addFlow_fuses heq)
theorem useConn_fuses (x0 : ℕ) (x1 : ℕ) (x2 : Frame) (x3 : State) : (useConn x0 x1 x2 x3).fuses = x3.fuses := by
  unfold useConn
  repeat' first | with_reducible rfl | simp only [↓modFlow_fuses] | split
theorem sendHop_fuses (x0 : Frame) (x1 : ℕ) (x2 : List Byte) (x3 : State) : (sendHop x0 x1 x2 x3).fuses = x3.fuses := by
  unfold sendHop
  repeat' first | with_reducible rfl | simp only [↓wlanEnqueue_fuses, ↓transmit_fuses, ↓takeFree_fuses] | split
theorem followRoute_fuses (x0 : Frame) (x1 : ℕ × Flow) (x2 : State) : (followRoute x0 x1 x2).fuses = x2.fuses := by unfold followRoute; simp only [↓modFlow_fuses, ↓sendHop_fuses]
theorem usableRoute_fuses (x0 : Frame) (x1 : Option ℕ) (x2 : State) : (usableRoute x0 x1 x2).2.fuses = x2.fuses := by
  unfold usableRoute
  repeat' first | with_reducible rfl | simp only [↓icmpError_fuses, ↓bump_fuses, ↓maybeAnswer_fuses] | split
theorem usableRoute_fuses' {x0 : Frame} {x1 : Option ℕ} {x2 : State} {r : State} {v : Option (ℕ × Flow)} (h : usableRoute x0 x1 x2 = (v, r)) : r.fuses = x2.fuses := by
  have := usableRoute_fuses x0 x1 x2; rw [h] at this; exact this
theorem firstOut_fuses (x0 : ℕ) (x1 : ℕ) (x2 : Frame) (x3 : ℕ × Flow) (x4 : State) : (firstOut x0 x1 x2 x3 x4).fuses = x4.fuses := by
  unfold firstOut
  repeat' first
    | with_reducible rfl
    | simp only [↓bump_fuses, ↓natExhausted_fuses, ↓followRoute_fuses]
    | split
    | with_reducible refine (createConn_fuses (by assumption)).trans ?_
    | with_reducible refine (foldl_fuses _ _ _ (fun _ _ => ?_)).trans ?_
    | with_reducible refine (foldl_snd_fuses _ _ _ (fun _ _ => ?_)).trans ?_
theorem routeOut_fuses (x0 : ℕ) (x1 : Frame) (x2 : Option ℕ) (x3 : State) : (routeOut x0 x1 x2 x3).fuses = x3.fuses := by
  unfold routeOut
  repeat' first
    | with_reducible rfl
    | simp only [↓lookup_fuses, ↓usableRoute_fuses, ↓useConn_fuses, ↓followRoute_fuses, ↓wlanEnqueue_fuses, ↓firstOut_fuses]
    | split
    | with_reducible refine (lookup_fuses' (by assumption)).trans ?_
    | with_reducible refine (usableRoute_fuses' (by assumption)).trans ?_
    | with_reducible refine (foldl_fuses _ _ _ (fun _ _ => ?_)).trans ?_
    | with_reducible refine (foldl_snd_fuses _ _ _ (fun _ _ => ?_)).trans ?_
theorem firstIn_fuses (x0 : ℕ) (x1 : Frame) (x2 : State) : (firstIn x0 x1 x2).fuses = x2.fuses := by
  unfold firstIn
  repeat' first
    | with_reducible rfl
    | simp only [↓usableRoute_fuses, ↓bump_fuses, ↓natExhausted_fuses, ↓followRoute_fuses]
    | split
    | with_reducible refine (usableRoute_fuses' (by assumption)).trans ?_
    | with_reducible refine (createConn_fuses (by assumption)).trans ?_
    | with_reducible refine (foldl_fuses _ _ _ (fun _ _ => ?_)).trans ?_
    | with_reducible refine (foldl_snd_fuses _ _ _ (fun _ _ => ?_)).trans ?_
theorem routeIn_fuses (x0 : ℕ) (x1 : Frame) (x2 : State) : (routeIn x0 x1 x2).fuses = x2.fuses := by
  unfold routeIn
  repeat' first
    | with_reducible rfl
    | simp only [↓lookup_fuses, ↓wlanEnqueue_fuses, ↓useConn_fuses, ↓firstIn_fuses, ↓natExhausted_fuses, ↓bump_fuses]
    | split
    | with_reducible refine (lookup_fuses' (by assumption)).trans ?_
    | with_reducible refine (createConn_fuses (by assumption)).trans ?_
    | with_reducible refine (foldl_fuses _ _ _ (fun _ _ => ?_)).trans ?_
    | with_reducible refine (foldl_snd_fuses _ _ _ (fun _ _ => ?_)).trans ?_
theorem routePacket_fuses (x0 : Frame) (x1 : Option ℕ) (x2 : State) : (routePacket x0 x1 x2).fuses = x2.fuses := by
  unfold routePacket
  repeat' first
    | with_reducible rfl
    | simp only [↓icmpError_fuses, ↓bump_fuses, ↓routeOut_fuses, ↓routeIn_fuses, ↓takeFree_fuses, ↓usableRoute_fuses, ↓followRoute_fuses]
    | split
    | with_reducible refine (takeFree_fuses' (by assumption)).trans ?_
    | with_reducible refine (usableRoute_fuses' (by assumption)).trans ?_
    | with_reducible refine (foldl_fuses _ _ _ (fun _ _ => ?_)).trans ?_
    | with_reducible refine (foldl_snd_fuses _ _ _ (fun _ _ => ?_)).trans ?_
theorem classify_fuses (x0 : Frame) (x1 : Option ℕ) (x2 : State) : (classify x0 x1 x2).fuses = x2.fuses := by
  unfold classify
  repeat' first | with_reducible rfl | simp only [↓toFlue_fuses, ↓ptpReceive_fuses, ↓hearthFrame_fuses, ↓dhcpServe_fuses, ↓bump_fuses, ↓maybeAnswer_fuses, ↓answerTo_fuses, ↓modLeg_fuses, ↓entryArrive_fuses, ↓lookup_fuses, ↓routePacket_fuses] | split
theorem acceptFrame_fuses (x0 : Frame) (x1 : Option (ℕ × Flow)) (x2 : State) : (acceptFrame x0 x1 x2).fuses = x2.fuses := by
  unfold acceptFrame
  repeat' first | with_reducible rfl | simp only [↓classify_fuses, ↓tapClear_fuses, ↓macsecIn_fuses, ↓bump_fuses] | split
theorem frameReceive_fuses (x0 : Frame) (x1 : State) : (frameReceive x0 x1).fuses = x1.fuses := by
  unfold frameReceive
  repeat' first | with_reducible rfl | simp only [↓retryAll_fuses, ↓tap_fuses, ↓bumpBy_fuses, ↓bump_fuses, ↓bufDrop_fuses, ↓acceptFrame_fuses, ↓trackMin_fuses] | split
theorem readMonitors_fuses (x0 : List (ℕ × ℕ)) (x1 : State) : (readMonitors x0 x1).fuses = x1.fuses := (rfl)
theorem supplyCheck_fuses (x0 : List (ℕ × ℕ)) (x1 : State) : (supplyCheck x0 x1).fuses = x1.fuses := by
  unfold supplyCheck
  repeat' first | with_reducible rfl | simp only [↓readMonitors_fuses, ↓logBoot_fuses] | split

end Sys2Proof.Machine
end

