-- ==== Sys2Proof/Laws/FuseFrame6.lean ====
section
/-! SUPPORT. Laws/FuseFrame6.lean: what the operations of Machine/ leave in the fuse store: one lemma an
operation, part 6. Only the operations of Machine/Firmware.lean and what plans them from outside write fuses. -/

set_option linter.all false

namespace Sys2Proof.Machine

theorem supplyRecheck_fuses (x0 : List (ℕ × ℕ)) (x1 : State) : (supplyRecheck x0 x1).fuses = x1.fuses := by
  unfold supplyRecheck
  repeat' first | with_reducible rfl | simp only [↓supplyCheck_fuses, ↓tick_fuses, ↓readMonitors_fuses] | split
theorem startBeat_fuses (x0 : State) : (startBeat x0).fuses = x0.fuses := (rfl)
theorem checkGens_fuses (t : Nat) (l : List FuseGen) (n : Nat) (s : State) : (checkGens t l n s).fuses = s.fuses := by
  induction l generalizing n s with
  | nil => rfl
  | cons g l ih =>
    unfold checkGens
    rw [ih]
    split
    · rfl
    · exact raise_fuses ..
theorem bootStep2_fuses (x0 : State) : (bootStep2 x0).fuses = x0.fuses := by
  unfold bootStep2
  repeat' first | with_reducible rfl | simp only [↓modPort_fuses, ↓checkGens_fuses] | split |
    with_reducible refine (foldl_fuses _ _ _ (fun _ _ => ?_)).trans ?_
theorem bootStep3_fuses (x0 : BootFacts) (x1 : State) : (bootStep3 x0 x1).fuses = x1.fuses := by unfold bootStep3; split <;> simp only [↓makePlan_fuses, ↓raise_fuses, ↓refLost_fuses]
theorem bootStep4_fuses (x0 : List (ℕ × ℕ × ℕ)) (x1 : State) : (bootStep4 x0 x1).fuses = x1.fuses := by
  unfold bootStep4
  repeat' first | with_reducible rfl | simp only [↓modPort_fuses] | split |
    with_reducible refine (foldl_fuses _ _ _ (fun _ _ => ?_)).trans ?_
theorem bootStep5_fuses (x0 : List (ℕ × ℕ)) (x1 : State) : (bootStep5 x0 x1).fuses = x1.fuses := by
  unfold bootStep5
  repeat' first | with_reducible rfl | simp only [↓spareRow_fuses] | split |
    with_reducible refine (foldl_fuses _ _ _ (fun _ _ => ?_)).trans ?_
theorem bootTries_fuses (c : Nat) (l : List (Nat × Nat)) (n : Nat) (s : State) : (bootTries c l n s).fuses = s.fuses := by
  induction l generalizing n s with
  | nil => exact retireChannel_fuses ..
  | cons e l ih =>
    unfold bootTries
    extract_lets s1
    have h1 : s1.fuses = s.fuses := modChan_fuses ..
    clear_value s1
    rw [← h1]
    split
    · exact modChan_fuses ..
    · split
      · exact ih ..
      · split
        · rw [ih, changeSp_fuses, modChan_fuses]
        · exact retireChannel_fuses ..
theorem trainBoot_fuses (x0 : ℕ) (x1 : ChanFit) (x2 : ℤ) (x3 : State) : (trainBoot x0 x1 x2 x3).fuses = x3.fuses := by unfold trainBoot; simp only [↓bootTries_fuses, ↓modChan_fuses]
theorem bootStep6_fuses (x0 : BootFacts) (x1 : State) : (bootStep6 x0 x1).fuses = x1.fuses := by
  unfold bootStep6
  repeat' first | with_reducible rfl | simp only [↓modChan_fuses, ↓trainBoot_fuses] | split |
    with_reducible refine (foldl_fuses _ _ _ (fun _ _ => ?_)).trans ?_
theorem bootCause_fuses (x0 : ℕ) (x1 : ℕ) (x2 : State) : (bootCause x0 x1 x2).2.fuses = x2.fuses := by
  unfold bootCause
  repeat' first | with_reducible rfl | simp only [↓takeFree_fuses] | split
theorem bootCause_fuses' {x0 : ℕ} {x1 : ℕ} {x2 : State} {r : State} {v : ℕ} (h : bootCause x0 x1 x2 = (v, r)) : r.fuses = x2.fuses := by
  have := bootCause_fuses x0 x1 x2; rw [h] at this; exact this
theorem bootImage_fuses (x0 : ℕ) (x1 : ℕ) (x2 : State) : (bootImage x0 x1 x2).2.fuses = x2.fuses := by
  unfold bootImage
  repeat' first | with_reducible rfl | simp only [↓bootCause_fuses, ↓raise_fuses, ↓rejectImage_fuses] | split
theorem bootImage_fuses' {x0 : ℕ} {x1 : ℕ} {x2 : State} {r : State} {v : Bool} (h : bootImage x0 x1 x2 = (v, r)) : r.fuses = x2.fuses := by
  have := bootImage_fuses x0 x1 x2; rw [h] at this; exact this
theorem bootSlot_fuses (x0 : ℕ) (x1 : State) : (bootSlot x0 x1).2.fuses = x1.fuses := by unfold bootSlot; simp only [↓bootImage_fuses]
theorem bootSlot_fuses' {x0 : ℕ} {x1 : State} {r : State} {v : Bool} (h : bootSlot x0 x1 = (v, r)) : r.fuses = x1.fuses := by
  have := bootSlot_fuses x0 x1; rw [h] at this; exact this
theorem trySlot_fuses (x0 : List ℕ) (x1 : ℕ) (x2 : State) : (trySlot x0 x1 x2).2.fuses = x2.fuses := by
  unfold trySlot
  repeat' first | with_reducible rfl | simp only [↓bootSlot_fuses] | split
theorem trySlot_fuses' {x0 : List ℕ} {x1 : ℕ} {x2 : State} {r : State} {v : ℕ} (h : trySlot x0 x1 x2 = (v, r)) : r.fuses = x2.fuses := by
  have := trySlot_fuses x0 x1 x2; rw [h] at this; exact this
theorem fallback_fuses (x0 : ℕ) (x1 : ℕ) (x2 : ℕ) (x3 : State) : (fallback x0 x1 x2 x3).fuses = x3.fuses := by unfold fallback; simp only [↓raise_fuses, ↓bump_fuses]
theorem chooseSlot_fuses (x0 : List ℕ) (x1 : State) : (chooseSlot x0 x1).2.fuses = x1.fuses := by
  unfold chooseSlot
  repeat' first | with_reducible rfl | simp only [↓rewriteDir_fuses, ↓trySlot_fuses, ↓fallback_fuses] | split
theorem chooseSlot_fuses' {x0 : List ℕ} {x1 : State} {r : State} {v : Option ℕ} (h : chooseSlot x0 x1 = (v, r)) : r.fuses = x1.fuses := by
  have := chooseSlot_fuses x0 x1; rw [h] at this; exact this
theorem takeImages_fuses (x0 : ℕ) (x1 : State) : (takeImages x0 x1).fuses = x1.fuses := (rfl)
theorem sealTable_fuses (x0 : State) : (sealTable x0).fuses = x0.fuses := (rfl)
theorem drawSeeds_fuses (x0 : State) : (drawSeeds x0).fuses = x0.fuses := (rfl)
theorem setReady_fuses (x0 : ℕ) (x1 : State) : (setReady x0 x1).fuses = x1.fuses := by unfold setReady; simp only [↓drawSeeds_fuses, ↓sealTable_fuses, ↓setRg_fuses, ↓deliverBootLog_fuses, ↓enableRing_fuses]
theorem enterSafeHold_fuses (x0 : ℕ) (x1 : ℕ) (x2 : State) : (enterSafeHold x0 x1 x2).fuses = x2.fuses := by unfold enterSafeHold; simp only [↓setReady_fuses, ↓raise_fuses]
theorem bootImages_fuses (x0 : BootFacts) (x1 : ℕ) (x2 : State) : (bootImages x0 x1 x2).fuses = x2.fuses := by
  unfold bootImages
  repeat' first | with_reducible rfl | simp only [↓chooseSlot_fuses, ↓enterSafeHold_fuses, ↓takeImages_fuses, ↓setReady_fuses] | split
theorem bootFrom2_fuses (x0 : BootFacts) (x1 : State) : (bootFrom2 x0 x1).fuses = x1.fuses := by
  unfold bootFrom2
  repeat' first | with_reducible rfl | simp only [↓bootStep2_fuses, ↓tick_fuses, ↓bump_fuses, ↓bootStep6_fuses, ↓bootStep5_fuses, ↓bootStep4_fuses, ↓bootStep3_fuses, ↓enterSafeHold_fuses, ↓bootImages_fuses] | split
theorem leaveHold'_fuses (x0 : ℕ) (x1 : Word) (x2 : Bool) (x3 : State) : (leaveHold' x0 x1 x2 x3).fuses = x3.fuses := by unfold leaveHold'; simp only [↓finishRunning_fuses, ↓sealTable_fuses]
theorem resumeStart_fuses (x0 : ℕ) (x1 : Word) (x2 : State) : (resumeStart x0 x1 x2).fuses = x2.fuses := by
  unfold resumeStart
  repeat' first | with_reducible rfl | simp only [↓finishRunning_fuses, ↓rejectImage_fuses, ↓takeImages_fuses, ↓leaveHold'_fuses, ↓raise_fuses] | split
theorem coldRails_fuses {x0 : List (ℕ × ℕ)} {x1 : State} {r : State} (h : coldRails x0 x1 = some r) : r.fuses = x1.fuses := by
  unfold coldRails at h
  repeat' first | contradiction | (injection h with h; subst h) | split at h
  repeat' first | with_reducible rfl | simp only [↓fullReset_fuses, ↓enterCold_fuses, ↓raise_fuses] | split
theorem kindlingBoot_fuses (x0 : BootFacts) (x1 : State) : (kindlingBoot x0 x1).fuses = x1.fuses := by
  unfold kindlingBoot
  repeat' first
    | with_reducible rfl
    | simp only [↓leaveHold'_fuses, ↓tick_fuses, ↓resumeStart_fuses, ↓readMonitors_fuses, ↓bootFrom2_fuses, ↓startBeat_fuses, ↓supplyCheck_fuses]
    | split
    | with_reducible refine (coldRails_fuses (by assumption)).trans ?_
    | with_reducible refine (foldl_fuses _ _ _ (fun _ _ => ?_)).trans ?_
    | with_reducible refine (foldl_snd_fuses _ _ _ (fun _ _ => ?_)).trans ?_
theorem cipherOperation_fuses (x0 : CipherOp) (x1 : State) : (cipherOperation x0 x1).fuses = x1.fuses := by unfold cipherOperation; split <;> simp only [↓cipherReceive_fuses, ↓cipherSend_fuses]
theorem keyHoldEnd_fuses (x0 : ℕ) (x1 : State) : (keyHoldEnd x0 x1).fuses = x1.fuses := by unfold keyHoldEnd; split <;> simp only [↓dropHeld_fuses, ↓tickTo_fuses]
theorem keyWritePlan_fuses (x0 : Cmd) (x1 : State) (t : State) : ((keyWritePlan x0 x1).run t).st.fuses = t.fuses := by unfold keyWritePlan; simp only [↓Done_st_okWith, ↓bumpBy_fuses, ↓reinstalled_fuses]
theorem keyErasePlan_fuses (x0 : Cmd) (x1 : State) (t : State) : ((keyErasePlan x0 x1).run t).st.fuses = t.fuses := by
  unfold keyErasePlan
  repeat' first | with_reducible rfl | simp only [↓Done_st_defer, ↓Done_st_ok, ↓reinstalled_fuses, ↓bumpBy_fuses, ↓modKey_fuses, ↓finishRunning_fuses, ↓zeroiseSlot_fuses, ↓eraseSlot_fuses] | split
theorem keyQueryPlan_fuses (x0 : Cmd) (x1 : State) (t : State) : ((keyQueryPlan x0 x1).run t).st.fuses = t.fuses := (rfl)
theorem macsecSaPlan_fuses (x0 : Cmd) (x1 : State) (t : State) : ((macsecSaPlan x0 x1).run t).st.fuses = t.fuses := by
  unfold macsecSaPlan
  repeat' first | with_reducible rfl | simp only [↓Done_st_ok] | split
theorem cipQueryPlan_fuses (c : Cmd) (s t : State) : ((cipQueryPlan c s).run t).st.fuses = t.fuses := by
  unfold cipQueryPlan
  rw [Done_st_okWith]
  exact foldl_snd_fuses _ _ _ (fun a p => takeFree_fuses ..)
theorem linkChange_fuses (x0 : ℕ) (x1 : Bool) (x2 : ℕ) (x3 : ℕ) (x4 : State) : (linkChange x0 x1 x2 x3 x4).fuses = x4.fuses := by unfold linkChange; split <;> simp only [↓synceFollow_fuses, ↓ethLink_fuses, ↓domainsLose_fuses]
theorem trigEdge_fuses (x0 : ℕ) (x1 : ℕ) (x2 : State) : (trigEdge x0 x1 x2).fuses = x2.fuses := by
  unfold trigEdge
  repeat' first | with_reducible rfl | simp only [↓aspTrigIn_fuses, ↓capTrigger_fuses, ↓wakeSource_fuses] | split |
    with_reducible refine (foldl_fuses _ _ _ (fun _ _ => ?_)).trans ?_
theorem radioQueryPlan_fuses (x0 : Cmd) (x1 : State) (t : State) : ((radioQueryPlan x0 x1).run t).st.fuses = t.fuses := by
  unfold radioQueryPlan
  repeat' first | with_reducible rfl | simp only [↓Done_st_reply, ↓takeFree_fuses] | split
theorem wurFrame_fuses (x0 : Bool) (x1 : ℕ) (x2 : ℤ) (x3 : State) : (wurFrame x0 x1 x2 x3).fuses = x3.fuses := by
  unfold wurFrame
  repeat' first | with_reducible rfl | simp only [↓bump_fuses, ↓wakeSource_fuses] | split
theorem sramAccess_fuses (x0 : ℕ) (x1 : ℕ) (x2 : Option DWord) (x3 : ℕ) (x4 : State) : (sramAccess x0 x1 x2 x3 x4).fuses = x4.fuses := by
  unfold sramAccess
  repeat' first | with_reducible rfl | simp only [↓emit_fuses, ↓poisonWord_fuses, ↓correctRow_fuses] | split
theorem sramScrub_fuses (x0 : ℕ) (x1 : ℕ) (x2 : ℕ) (x3 : Option ℕ) (x4 : State) : (sramScrub x0 x1 x2 x3 x4).fuses = x4.fuses := by
  unfold sramScrub
  repeat' first | with_reducible rfl | simp only [↓correctRow_fuses, ↓poisonWord_fuses, ↓bump_fuses] | split
theorem moveBank_fuses (x0 : ℕ) (x1 : State) (x2 : ℕ) : (moveBank x0 x1 x2).fuses = x1.fuses := (rfl)
theorem memPoolAssignPlan_fuses (x0 : Cmd) (x1 : State) (t : State) : ((memPoolAssignPlan x0 x1).run t).st.fuses = t.fuses := by
  unfold memPoolAssignPlan
  repeat' first | with_reducible rfl | simp only [↓Done_st_reply, ↓moveBank_fuses] | split |
    with_reducible refine (foldl_fuses _ _ _ (fun _ _ => ?_)).trans ?_
theorem dbgWindowPlan_fuses (x0 : Cmd) (x1 : State) (t : State) : ((dbgWindowPlan x0 x1).run t).st.fuses = t.fuses := (rfl)
theorem modBoard_fuses (x0 : ℕ) (x1 : ℕ) (x2 : Scoreboard → Scoreboard) (x3 : State) : (modBoard x0 x1 x2 x3).fuses = x3.fuses := (rfl)
theorem takeReady_fuses (x0 : ℕ) (x1 : ℕ) (x2 : State) : (takeReady x0 x1 x2).fuses = x2.fuses := by
  unfold takeReady
  repeat' first | with_reducible rfl | simp only [↓classify_fuses, ↓modBoard_fuses] | split |
    with_reducible refine (foldl_fuses _ _ _ (fun _ _ => ?_)).trans ?_
theorem takeMpdu_fuses (x0 : ℕ) (x1 : State) (x2 : Mpdu) : (takeMpdu x0 x1 x2).fuses = x1.fuses := by
  unfold takeMpdu
  repeat' first | with_reducible rfl | simp only [↓modBoard_fuses, ↓takeReady_fuses, ↓bump_fuses] | split
theorem reorderHoldTimeout_fuses (x0 : ℕ) (x1 : ℕ) (x2 : State) : (reorderHoldTimeout x0 x1 x2).fuses = x2.fuses := by
  unfold reorderHoldTimeout
  repeat' first | with_reducible rfl | simp only [↓takeReady_fuses, ↓modBoard_fuses, ↓tickTo_fuses] | split
theorem tapRadio_fuses (x0 : Ppdu) (x1 : Bool) (x2 : Option ℕ) (x3 : State) : (tapRadio x0 x1 x2 x3).fuses = x3.fuses := by
  unfold tapRadio
  repeat' first | with_reducible rfl | simp only [↓tap_fuses] | split |
    with_reducible refine (foldl_fuses _ _ _ (fun _ _ => ?_)).trans ?_
theorem respond_fuses (x0 : Ppdu) (x1 : Option ℕ) (x2 : State) : (respond x0 x1 x2).fuses = x2.fuses := by
  unfold respond
  repeat' first | with_reducible rfl | simp only [↓requestTx_fuses] | split
theorem commitFrames_fuses (x0 : ℕ) (x1 : ℕ) (x2 : State) : (commitFrames x0 x1 x2).fuses = x2.fuses := (rfl)
theorem sendCommitted_fuses (x0 : ℕ) (x1 : ℕ) (x2 : State) : (sendCommitted x0 x1 x2).fuses = x2.fuses := by
  unfold sendCommitted
  repeat' first | with_reducible rfl | simp only [↓modSta_fuses, ↓bumpBy_fuses, ↓requestTx_fuses] | split
theorem onAuth_fuses (x0 : Ppdu) (x1 : ℕ) (x2 : ℕ) (x3 : Bool) (x4 : State) : (onAuth x0 x1 x2 x3 x4).fuses = x4.fuses := by
  unfold onAuth
  repeat' first | with_reducible rfl | simp only [↓authFail_fuses, ↓modSta_fuses, ↓addSta_fuses, ↓finishRunning_fuses, ↓freeSta_fuses, ↓releaseSta_fuses] | split
theorem onRefused_fuses (x0 : ℕ) (x1 : ℕ) (x2 : State) : (onRefused x0 x1 x2).fuses = x2.fuses := by
  unfold onRefused
  repeat' first | with_reducible rfl | simp only [↓finishRunning_fuses, ↓freeSta_fuses, ↓releaseSta_fuses] | split
theorem onAssoc_fuses (x0 : ℕ) (x1 : ℕ) (x2 : ℕ) (x3 : Bool) (x4 : Bool) (x5 : Bool) (x6 : Bool) (x7 : ℕ) (x8 : State) : (onAssoc x0 x1 x2 x3 x4 x5 x6 x7 x8).fuses = x8.fuses := by
  unfold onAssoc
  repeat' first | with_reducible rfl | simp only [↓associate_fuses, ↓modSta_fuses, ↓raise_fuses] | split
theorem onAddba_fuses (x0 : ℕ) (x1 : ℕ) (x2 : ℕ) (x3 : State) : (onAddba x0 x1 x2 x3).fuses = x3.fuses := by
  unfold onAddba
  repeat' first | with_reducible rfl | simp only [↓modBoard_fuses] | split
theorem onTwt_fuses (x0 : ℕ) (x1 : ℕ) (x2 : ℕ) (x3 : ℕ) (x4 : ℕ) (x5 : State) : (onTwt x0 x1 x2 x3 x4 x5).fuses = x5.fuses := by
  unfold onTwt
  repeat' first | with_reducible rfl | simp only [↓modSta_fuses, ↓firstSp_fuses, ↓sendMgmt_fuses] | split
theorem onWur_fuses (x0 : ℕ) (x1 : ℕ) (x2 : Bool) (x3 : ℕ) (x4 : ℕ) (x5 : State) : (onWur x0 x1 x2 x3 x4 x5).fuses = x5.fuses := by
  unfold onWur
  repeat' first | with_reducible rfl | simp only [↓modSta_fuses, ↓sendMgmt_fuses] | split
theorem onMgmt_fuses (x0 : Ppdu) (x1 : Option ℕ) (x2 : State) : (onMgmt x0 x1 x2).fuses = x2.fuses := by
  unfold onMgmt
  repeat' first | with_reducible rfl | simp only [↓onAuth_fuses, ↓onAssoc_fuses, ↓handshakeDone_fuses, ↓handshakeFailed_fuses, ↓removing_fuses, ↓onAddba_fuses, ↓modBoard_fuses, ↓onTwt_fuses, ↓modSta_fuses, ↓onWur_fuses, ↓commitFrames_fuses, ↓onRefused_fuses] | split
theorem ppduReceive_fuses (x0 : Ppdu) (x1 : State) : (ppduReceive x0 x1).fuses = x1.fuses := by
  unfold ppduReceive
  repeat' first
    | with_reducible rfl
    | (simp only [↓listen_fuses, ↓bump_fuses, ↓tapRadio_fuses, ↓heardSta_fuses, ↓modSta_fuses, ↓onMgmt_fuses, ↓takeMpdu_fuses, ↓respond_fuses, ↓sendCommitted_fuses]; done)
    | split
    | with_reducible refine (foldl_fuses _ _ _ (fun _ _ => ?_)).trans ?_
    | with_reducible refine (foldl_snd_fuses _ _ _ (fun _ _ => ?_)).trans ?_
    | simp only [↓listen_fuses, ↓bump_fuses, ↓tapRadio_fuses, ↓heardSta_fuses, ↓modSta_fuses, ↓onMgmt_fuses, ↓takeMpdu_fuses, ↓respond_fuses, ↓sendCommitted_fuses]
theorem servedUser_fuses (x0 : ℕ) (x1 : ℕ) (x2 : List TxopUser) (x3 : State) (x4 : ℕ) : (servedUser x0 x1 x2 x3 x4).fuses = x3.fuses := by
  unfold servedUser
  repeat' first | with_reducible rfl | simp only [↓takeFree_fuses, ↓modSta_fuses, ↓bumpBy_fuses, ↓bump_fuses, ↓linkLost_fuses] | split
theorem dlTxop_fuses (x0 : ℕ) (x1 : ℕ) (x2 : List TxopUser) (x3 : State) : (dlTxop x0 x1 x2 x3).fuses = x3.fuses := by
  unfold dlTxop
  repeat' first | with_reducible rfl | simp only [↓takeFree_fuses, ↓requestTx_fuses, ↓emit_fuses, ↓bump_fuses, ↓trackMax_fuses, ↓servedUser_fuses] | split |
    with_reducible refine (foldl_fuses _ _ _ (fun _ _ => ?_)).trans ?_
theorem clearRc_fuses (x0 : RegRow) (x1 : ℕ) (x2 : State) : (clearRc x0 x1 x2).fuses = x2.fuses := by
  unfold clearRc
  repeat' first | with_reducible rfl | simp only [↓setRg_fuses] | split
theorem latchTime_fuses (x0 : State) : (latchTime x0).fuses = x0.fuses := (rfl)
theorem readFirst_fuses (x0 : RegRow) (x1 : ℕ) (x2 : State) : (readFirst x0 x1 x2).2.fuses = x2.fuses := by
  unfold readFirst
  repeat' first | with_reducible rfl | simp only [↓takeFree_fuses, ↓clearRc_fuses, ↓latchTime_fuses] | split
theorem readFirst_fuses' {x0 : RegRow} {x1 : ℕ} {x2 : State} {r : State} {v : ℕ} (h : readFirst x0 x1 x2 = (v, r)) : r.fuses = x2.fuses := by
  have := readFirst_fuses x0 x1 x2; rw [h] at this; exact this
theorem readReg_fuses (x0 : ℕ) (x1 : State) : (readReg x0 x1).2.fuses = x1.fuses := by
  unfold readReg
  repeat' first | with_reducible rfl | simp only [↓readFirst_fuses] | split
theorem readReg_fuses' {x0 : ℕ} {x1 : State} {r : State} {v : ℕ} (h : readReg x0 x1 = (v, r)) : r.fuses = x1.fuses := by
  have := readReg_fuses x0 x1; rw [h] at this; exact this
theorem hostRead_fuses (x0 : ℕ) (x1 : State) : (hostRead x0 x1).fuses = x1.fuses := by unfold hostRead; simp only [↓readReg_fuses, ↓emit_fuses]
theorem readMany_fuses (l : List Nat) (s : State) : (readMany l s).2.fuses = s.fuses := by
  induction l generalizing s with
  | nil => rfl
  | cons o l ih =>
    unfold readMany
    exact (ih ..).trans (readReg_fuses ..)
theorem readMany_fuses' {x0 : List ℕ} {x1 : State} {r : State} {v : List Byte} (h : readMany x0 x1 = (v, r)) : r.fuses = x1.fuses := by
  have := readMany_fuses x0 x1; rw [h] at this; exact this
theorem devRegReadPlan_fuses (x0 : Cmd) (x1 : State) (t : State) : ((devRegReadPlan x0 x1).run t).st.fuses = t.fuses := by unfold devRegReadPlan; simp only [↓Done_st_reply, ↓readMany_fuses]
theorem autoChanged_fuses (x0 : State) : (autoChanged x0).fuses = x0.fuses := by
  unfold autoChanged
  repeat' first | with_reducible rfl | simp only [↓switchTo_fuses] | split
theorem writeReg_fuses (x0 : ℕ) (x1 : ℕ) (x2 : ℕ) (x3 : State) : (writeReg x0 x1 x2 x3).fuses = x3.fuses := by
  unfold writeReg
  repeat' first | with_reducible rfl | simp only [↓intMaskWrite_fuses, ↓autoChanged_fuses, ↓setRg_fuses] | split
theorem devRegWritePlan_fuses (x0 : Cmd) (x1 : State) (t : State) : ((devRegWritePlan x0 x1).run t).st.fuses = t.fuses := by
  unfold devRegWritePlan
  repeat' first | with_reducible rfl | simp only [↓Done_st_reply, ↓writeReg_fuses] | split |
    with_reducible refine (foldl_fuses _ _ _ (fun _ _ => ?_)).trans ?_
theorem devInfoPlan_fuses (x0 : Cmd) (x1 : State) (t : State) : ((devInfoPlan x0 x1).run t).st.fuses = t.fuses := (rfl)
theorem histClear_fuses (x0 : Word) (x1 : State) : (histClear x0 x1).fuses = x1.fuses := by
  unfold histClear
  repeat' first | with_reducible rfl | simp only [↓setRg_fuses] | split |
    with_reducible refine (foldl_fuses _ _ _ (fun _ _ => ?_)).trans ?_
theorem takeEntry_fuses (x0 : ℕ) (x1 : ℕ) (x2 : State) : (takeEntry x0 x1 x2).2.fuses = x2.fuses := by
  unfold takeEntry
  repeat' first | with_reducible rfl | simp only [↓deadlineMiss_fuses] | split |
    with_reducible refine (foldl_fuses _ _ _ (fun _ _ => ?_)).trans ?_
theorem takeEntry_fuses' {x0 : ℕ} {x1 : ℕ} {x2 : State} {r : State} {v : Option RelEntry} (h : takeEntry x0 x1 x2 = (v, r)) : r.fuses = x2.fuses := by
  have := takeEntry_fuses x0 x1 x2; rw [h] at this; exact this
theorem tapSent_fuses (x0 : ℕ) (x1 : State) : (tapSent x0 x1).fuses = x1.fuses := by unfold tapSent; split <;> simp only [↓takeFree_fuses, ↓freeBytes_fuses, ↓tap_fuses]
theorem releaseRadio_fuses (x0 : ℕ) (x1 : State) : (releaseRadio x0 x1).fuses = x1.fuses := by
  unfold releaseRadio
  repeat' first | with_reducible rfl | simp only [↓releaseTx_fuses, ↓replayLate_fuses, ↓tapSent_fuses] | split
theorem releaseUser_fuses (x0 : ℕ) (x1 : ℕ) (x2 : Option RelEntry) (x3 : State) : (releaseUser x0 x1 x2 x3).fuses = x3.fuses := by
  unfold releaseUser
  repeat' first | with_reducible rfl | simp only [↓emit_fuses, ↓releaseRadio_fuses] | split
theorem dropRequest_fuses (x0 : ℕ) (x1 : TxWhat → Bool) (x2 : State) : (dropRequest x0 x1 x2).fuses = x2.fuses := (rfl)
theorem missAction_fuses (x0 : ℕ) (x1 : ℕ) (x2 : Option RelEntry) (x3 : State) : (missAction x0 x1 x2 x3).fuses = x3.fuses := by
  unfold missAction
  repeat' first | with_reducible rfl | simp only [↓dropRequest_fuses, ↓emit_fuses, ↓bump_fuses, ↓takeFree_fuses, ↓tsInsert_fuses, ↓replayLate_fuses] | split
theorem deadlineRelease_fuses (x0 : Deadline) (x1 : State) : (deadlineRelease x0 x1).fuses = x1.fuses := by
  unfold deadlineRelease
  repeat' first | with_reducible rfl | simp only [↓takeEntry_fuses, ↓tickToNs_fuses, ↓releaseUser_fuses, ↓trackMin_fuses, ↓missAction_fuses, ↓deadlineMiss_fuses] | split
theorem idle_fuses (x0 : State) : (idle x0).fuses = x0.fuses := by unfold idle; simp only [↓portTimeouts_fuses, ↓tick_fuses]

end Sys2Proof.Machine
end

