-- ==== Sys2Proof/Laws/Memory.lean ====
section
/-! SUPPORT. Laws/Memory.lean: the laws of the byte memories: a read gives what was written, a write leaves
every other byte, and every operation keeps the canonical form. -/

namespace Sys2Proof.Machine

/-- Every listed address is at least `a`. -/
def Memory.above (a : Nat) (m : List Host.Cell) : Prop := ∀ c ∈ m, a ≤ c.1

theorem Memory.wf_cons (k : Nat) (c : Byte) (m : List Host.Cell) :
    Memory.wf ((k, c) :: m) = true ↔ c ≠ Memory.fill ∧ Memory.above (k + 1) m ∧ Memory.wf m = true := by
  induction m generalizing k c with
  | nil => simp [Memory.wf, Memory.above]
  | cons d m ih =>
    obtain ⟨j, d⟩ := d
    simp only [Memory.wf, Bool.and_eq_true, decide_eq_true_eq, ih]
    constructor
    · rintro ⟨⟨h1, h2⟩, h3, h4, h5⟩
      refine ⟨h1, ?_, h3, h4, h5⟩
      intro e he
      rcases List.mem_cons.1 he with rfl | he
      · exact h2
      · have := h4 e he; omega
    · rintro ⟨h1, h2, h3, h4, h5⟩
      exact ⟨⟨h1, h2 _ (List.mem_cons_self ..)⟩, h3, h4, h5⟩

theorem Memory.read_of_above {a : Nat} {m : List Host.Cell} (h : Memory.above (a + 1) m) : Memory.read m a = Memory.fill := by
  induction m with
  | nil => rfl
  | cons d m ih =>
    obtain ⟨k, c⟩ := d
    have hk : a + 1 ≤ k := h _ (List.mem_cons_self ..)
    rw [Memory.read, if_neg (by omega)]
    exact ih fun e he => h e (List.mem_cons_of_mem _ he)

theorem Memory.write_above {j a : Nat} (b : Byte) {m : List Host.Cell} (hm : Memory.above j m) (ha : j ≤ a) :
    Memory.above j (Memory.write m a b) := by
  induction m with
  | nil =>
    unfold Memory.write
    split
    · exact hm
    · intro c hc; rw [List.mem_singleton.1 hc]; exact ha
  | cons d m ih =>
    obtain ⟨k, c⟩ := d
    have hk : j ≤ k := hm _ (List.mem_cons_self ..)
    have ht : Memory.above j m := fun e he => hm e (List.mem_cons_of_mem _ he)
    unfold Memory.write
    intro e he
    split at he
    · split at he
      · exact hm e he
      · rcases List.mem_cons.1 he with rfl | he
        · exact ha
        · exact hm e he
    · split at he
      · split at he
        · exact ht e he
        · rcases List.mem_cons.1 he with rfl | he
          · exact ha
          · exact ht e he
      · rcases List.mem_cons.1 he with rfl | he
        · exact hk
        · exact ih ht e he

/-- A write keeps the canonical form. -/
theorem Memory.write_wf {m : List Host.Cell} (a : Nat) (b : Byte) (h : Memory.wf m = true) :
    Memory.wf (Memory.write m a b) = true := by
  induction m with
  | nil =>
    unfold Memory.write
    split
    · rfl
    · simp [Memory.wf, *]
  | cons d m ih =>
    obtain ⟨k, c⟩ := d
    have hw := (Memory.wf_cons k c m).1 h
    unfold Memory.write
    split
    · split
      · exact h
      · refine (Memory.wf_cons _ _ _).2 ⟨‹_›, ?_, h⟩
        intro e he
        rcases List.mem_cons.1 he with rfl | he
        · exact ‹a < k›
        · have := hw.2.1 e he; omega
    · split
      · split
        · exact hw.2.2
        · subst a; exact (Memory.wf_cons _ _ _).2 ⟨‹_›, hw.2⟩
      · exact (Memory.wf_cons _ _ _).2 ⟨hw.1, Memory.write_above b hw.2.1 (by omega), ih hw.2.2⟩

/-- A read of the byte written. -/
theorem Memory.read_write_same {m : List Host.Cell} (a : Nat) (b : Byte) (h : Memory.wf m = true) :
    Memory.read (Memory.write m a b) a = b := by
  induction m with
  | nil =>
    unfold Memory.write
    split
    · simp [Memory.read, *]
    · simp [Memory.read]
  | cons d m ih =>
    obtain ⟨k, c⟩ := d
    have hw := (Memory.wf_cons k c m).1 h
    unfold Memory.write
    split
    · split
      · subst b
        refine Memory.read_of_above ?_
        intro e he
        rcases List.mem_cons.1 he with rfl | he
        · exact ‹a < k›
        · have := hw.2.1 e he; omega
      · simp [Memory.read]
    · split
      · subst a
        split
        · subst b; exact Memory.read_of_above hw.2.1
        · simp [Memory.read]
      · rw [Memory.read, if_neg (by omega)]; exact ih hw.2.2

/-- A write leaves every other byte. -/
theorem Memory.read_write_other (m : List Host.Cell) {a x : Nat} (b : Byte) (hx : x ≠ a) :
    Memory.read (Memory.write m a b) x = Memory.read m x := by
  induction m with
  | nil =>
    unfold Memory.write
    split
    · rfl
    · simp [Memory.read, Ne.symm hx]
  | cons d m ih =>
    obtain ⟨k, c⟩ := d
    unfold Memory.write
    split
    · split
      · rfl
      · rw [Memory.read, if_neg (Ne.symm hx)]
    · split
      · subst a
        split
        · rw [Memory.read, if_neg (Ne.symm hx)]
        · rw [Memory.read, if_neg (Ne.symm hx), Memory.read, if_neg (Ne.symm hx)]
      · rw [Memory.read, Memory.read, ih]

/-- A write of several bytes keeps the canonical form. -/
theorem Memory.writeN_wf {m : List Host.Cell} (a : Nat) (bs : List Byte) (h : Memory.wf m = true) :
    Memory.wf (Memory.writeN m a bs) = true := by
  induction bs generalizing m a with
  | nil => exact h
  | cons b bs ih => exact ih (a + 1) (Memory.write_wf a b h)

/-- A write of several bytes leaves every byte outside them. -/
theorem Memory.read_writeN_other {m : List Host.Cell} {a x : Nat} (bs : List Byte) (hx : x < a ∨ a + bs.length ≤ x) :
    Memory.read (Memory.writeN m a bs) x = Memory.read m x := by
  induction bs generalizing m a with
  | nil => rfl
  | cons b bs ih =>
    rw [List.length_cons] at hx
    rw [Memory.writeN, ih (by omega), Memory.read_write_other m b (by omega)]

/-- Dropping cells keeps the canonical form. -/
theorem Memory.filter_wf {m : List Host.Cell} (p : Host.Cell → Bool) (h : Memory.wf m = true) : Memory.wf (m.filter p) = true := by
  induction m with
  | nil => rfl
  | cons d m ih =>
    obtain ⟨k, c⟩ := d
    have hw := (Memory.wf_cons k c m).1 h
    rw [List.filter_cons]
    split
    · exact (Memory.wf_cons _ _ _).2 ⟨hw.1, fun e he => hw.2.1 e (List.mem_filter.1 he).1, ih hw.2.2⟩
    · exact ih hw.2.2

/-- Clearing a range keeps the canonical form. -/
theorem Memory.clear_wf {m : List Host.Cell} (a n : Nat) (h : Memory.wf m = true) : Memory.wf (Memory.clear m a n) = true :=
  Memory.filter_wf _ h

end Sys2Proof.Machine
end

