-- ==== Sys2Proof/Laws/Reply.lean ====
section
/-! SUPPORT. Laws/Reply.lean: what answering a command, raising an event and letting time pass leave: all of the
device but host bookkeeping (State.device). -/

set_option linter.all false

namespace Sys2Proof.Machine

theorem tick_device (n : Nat) (s : State) : (tick n s).device = s.device := (rfl)
theorem takeFree_device (s : State) : (takeFree s).2.device = s.device := (rfl)
theorem emit_device (o : Output) (s : State) : (emit o s).device = s.device := (rfl)
theorem setRg_device (k v : Nat) (s : State) : (setRg k v s).device = s.device := (rfl)
theorem bumpBy_device (k n : Nat) (s : State) : (bumpBy k n s).device = s.device := (rfl)
theorem bump_device (k : Nat) (s : State) : (bump k s).device = s.device := (rfl)
theorem modRing_device (rs : Nat) (f : RingSet → RingSet) (s : State) : (modRing rs f s).device = s.device := (rfl)
theorem modPort_device (p : Nat) (f : Port → Port) (s : State) : (modPort p f s).device = s.device := (rfl)
theorem modEntry_device (n : Nat) (f : OutCmd → OutCmd) (s : State) : (modEntry n f s).device = s.device := (rfl)
theorem addEntry_device (op : Nat) (c : Cmd) (s : State) : (addEntry op c s).device = s.device := (rfl)
theorem mpWrite_device (o : Nat) (b : List Byte) (s : State) : (mpWrite o b s).device = s.device := (rfl)

theorem foldl_device {α : Type} (g : State → α → State) (l : List α) (s : State)
    (h : ∀ s a, (g s a).device = s.device) : (l.foldl g s).device = s.device := by
  induction l generalizing s with
  | nil => rfl
  | cons a l ih => rw [List.foldl_cons, ih, h]

theorem fireVector_device (rs v : Nat) (s : State) : (fireVector rs v s).device = s.device := by
  unfold fireVector
  extract_lets m r s1
  have h1 : s1.device = s.device := by
    unfold s1
    split
    · exact modRing_device ..
    · rfl
  clear_value s1
  split
  · exact modRing_device ..
  · split
    · exact h1
    · exact h1

theorem writeShadow_device (rs : Nat) (s : State) : (writeShadow rs s).device = s.device := by
  unfold writeShadow
  extract_lets r lost s1
  have h1 : s1.device = s.device := modRing_device ..
  clear_value s1
  split
  · exact (mpWrite_device ..).trans h1
  · exact h1

theorem raiseCause_device (rs v : Nat) (s : State) : (raiseCause rs v s).device = s.device := by
  unfold raiseCause
  extract_lets s1 key st s2
  have h1 : s1.device = s.device := writeShadow_device ..
  have h2 : s2.device = s.device := h1
  clear_value s1 s2
  split
  · exact h1
  · split
    · exact h2
    · exact (fireVector_device ..).trans h2

theorem putEvent_device (rs : Nat) (e : Event) (s : State) : (putEvent rs e s).device = s.device := by
  unfold putEvent
  extract_lets r s1
  have h1 : s1.device = s.device := by
    unfold s1
    split
    · rfl
    · rfl
  clear_value s1
  exact (raiseCause_device ..).trans h1

theorem loseEvent_device (rs : Nat) (s : State) : (loseEvent rs s).device = s.device := (rfl)

theorem flushLost_device (rs : Nat) (s : State) : (flushLost rs s).device = s.device := by
  unfold flushLost
  extract_lets r
  split
  · rfl
  · exact (putEvent_device ..).trans (modRing_device ..)

theorem sendEvent_device (rs : Nat) (e : Event) (s : State) : (sendEvent rs e s).device = s.device := by
  unfold sendEvent
  split
  · rfl
  · extract_lets s1
    have h1 : s1.device = s.device := flushLost_device ..
    clear_value s1
    split
    · exact (loseEvent_device ..).trans h1
    · exact (putEvent_device ..).trans h1

theorem sendAll_device (e : Event) (l : List Nat) (s : State) : (sendAll e l s).device = s.device := by
  induction l generalizing s with
  | nil => rfl
  | cons a l ih =>
    unfold sendAll
    rw [ih]
    split
    · exact sendEvent_device ..
    · rfl

/-- Raising an event changes nothing but host bookkeeping. -/
theorem raise_device (k : EvKind) (h : Word) (d : List Byte) (s : State) : (raise k h d s).device = s.device := by
  have hm : (markFatal k s).device = s.device := by
    unfold markFatal
    split
    · rfl
    · rfl
  unfold raise
  extract_lets e s1
  have h1 : s1.device = s.device := hm
  clear_value s1
  split
  · exact (sendAll_device ..).trans h1
  · unfold logBoot
    split
    · exact h1
    · exact h1

theorem raiseUnless_device (m n : Nat) (k : EvKind) (h : Word) (d : List Byte) (s : State) :
    (raiseUnless m n k h d s).device = s.device := by
  unfold raiseUnless
  split
  · rfl
  · exact raise_device ..

theorem raiseTo_device (p : Nat) (k : EvKind) (h : Word) (d : List Byte) (s : State) : (raiseTo p k h d s).device = s.device :=
  sendEvent_device ..

theorem putPacket_device (rs n : Nat) (p : Reply) (s : State) : (putPacket rs n p s).device = s.device := by
  unfold putPacket
  extract_lets r s1
  have h1 : s1.device = s.device := by
    unfold s1
    split
    · rfl
    · rfl
  clear_value s1
  exact h1

theorem putReply_device (rs : Nat) (p : Reply) (s : State) : (putReply rs p s).device = s.device := by
  unfold putReply
  extract_lets n r s1
  have h1 : s1.device = s.device := by
    unfold s1
    split
    · rfl
    · exact putPacket_device ..
  clear_value s1
  exact (raiseCause_device ..).trans ((putPacket_device ..).trans h1)

theorem drainWaiting_device (rs n : Nat) (s : State) : (drainWaiting rs n s).device = s.device := by
  induction n generalizing s with
  | zero => rfl
  | succ n ih =>
    unfold drainWaiting
    split
    · rfl
    · split
      · rw [ih, putReply_device, modRing_device]
      · rfl

/-- Handing over a reply changes nothing but host bookkeeping. -/
theorem sendReply_device (rs : Nat) (p : Reply) (s : State) : (sendReply rs p s).device = s.device := by
  unfold sendReply
  split
  · exact (drainWaiting_device ..).trans (modRing_device ..)
  · exact bump_device ..

theorem setDoze_device (d : Nat) (on : Bool) (s : State) : (setDoze d on s).device = s.device :=
  (raiseUnless_device ..).trans rfl

theorem settleDomains_device (s : State) : (settleDomains s).device = s.device := by
  refine foldl_device _ _ _ (fun s d => ?_)
  dsimp only
  split
  · rfl
  · exact setDoze_device ..

theorem finishOne_device (e : OutCmd) (st d p : Nat) (r : List Byte) (s : State) : (finishOne e st d p r s).device = s.device := by
  unfold finishOne
  extract_lets src s1 s2 s3
  have h1 : s1.device = s.device := (settleDomains_device ..).trans rfl
  have h2 : s2.device = s.device := (bump_device ..).trans h1
  have h3 : s3.device = s.device := (modRing_device ..).trans h2
  clear_value s1 s2 s3
  split
  · exact (sendReply_device ..).trans h3
  · exact h3

theorem finishChain_device (n : Nat) (e : OutCmd) (st d p : Nat) (r : List Byte) (s : State) :
    (finishChain n e st d p r s).device = s.device := by
  induction n generalizing e st d p r s with
  | zero => exact finishOne_device ..
  | succ n ih =>
    unfold finishChain
    refine (foldl_device _ _ _ (fun s a => ?_)).trans (finishOne_device ..)
    split
    · exact ih ..
    · rfl

/-- The completion of a command, its reply and the DEV_ABORTs that wait for it change nothing but host bookkeeping. -/
theorem finishEntry_device (e : OutCmd) (st d p : Nat) (r : List Byte) (s : State) : (finishEntry e st d p r s).device = s.device :=
  finishChain_device ..

theorem finishRunning_device (rs : Nat) (tag : Word) (st d p : Nat) (r : List Byte) (s : State) :
    (finishRunning rs tag st d p r s).device = s.device := by
  unfold finishRunning
  split
  · exact finishEntry_device ..
  · rfl

/-- What a command leaves is its effect but for host bookkeeping. -/
theorem after_device (e : OutCmd) (d : Done) : (d.after e).device = d.st.device := by
  cases d with
  | reply s st de p r => exact finishEntry_device ..
  | defer s => rfl

theorem startedAs_device (p : Plan) (e : OutCmd) (s : State) : (startedAs p e s).device = s.device := (rfl)

theorem fetchedFor_device (op : Nat) (c : Cmd) (s : State) : (fetchedFor op c s).device = s.device := by
  unfold fetchedFor
  split
  · exact addEntry_device ..
  · rfl

/-- A host command that comes up now: refused by a check it only answers, as a dry run it only answers, else it commits. -/
theorem hostCmd_comesUp {op : Nat} {plan : Cmd → State → Plan} {c : Cmd} {s : State} {e : OutCmd} (h : ComesUp op c s e) :
    hostCmd op plan c s = runPlan (plan c (tick 1 (fetchedFor op c s))) e (tick 1 (fetchedFor op c s)) := by
  obtain ⟨h1, h2, h3⟩ := h
  unfold hostCmd
  extract_lets s1
  have hs : s1 = fetchedFor op c s := rfl
  clear_value s1
  subst hs
  rw [h1]
  show (if heldBack e _ = true then _ else _) = _
  rw [h2]
  show comeUp _ _ _ = _
  unfold comeUp
  extract_lets s2
  rw [h3]
  rfl

/-- A host command that runs now leaves what its plan does, and its reply. -/
theorem hostCmd_runs {op : Nat} {plan : Cmd → State → Plan} {c : Cmd} {s : State} {e : OutCmd} (h : RunsNow op plan c s e) :
    hostCmd op plan c s = (doneOf op plan c s e).after e := by
  obtain ⟨hc, hd, hk⟩ := h
  rw [hostCmd_comesUp hc]
  unfold runPlan
  extract_lets s1
  have hn : checkAll (plan c (tick 1 (fetchedFor op c s))) e s1 = none := Option.isNone_iff_eq_none.1 hk
  rw [hn]
  show (if Cmd.dryRun e.cmd = true then _ else _) = _
  rw [hd]
  show _ = Done.after e ((plan c (tick 1 (fetchedFor op c s))).run s1)
  rw [if_neg (by decide)]
  cases (plan c (tick 1 (fetchedFor op c s))).run s1 with
  | reply s' st d p r => rfl
  | defer s' => rfl

end Sys2Proof.Machine
end

