-- ==== Sys2Proof/Laws/Table.lean ====
section
/-! SUPPORT. Laws/Table.lean: the laws of the sparse tables: what a look-up gives after an update, and that
every update keeps the numbers strictly rising. -/

namespace Sys2Proof.Machine

theorem Tbl.get?_put_same {α : Type} (t : Tbl α) (k : Nat) (a : α) : Tbl.get? (Tbl.put t k a) k = some a := by
  induction t with
  | nil => simp [Tbl.put, Tbl.get?]
  | cons e t ih =>
    obtain ⟨j, b⟩ := e
    unfold Tbl.put
    split
    · simp [Tbl.get?]
    · split
      · simp [Tbl.get?]
      · rw [Tbl.get?, if_neg (by omega), ih]

theorem Tbl.get?_put_other {α : Type} (t : Tbl α) {k x : Nat} (a : α) (hx : x ≠ k) :
    Tbl.get? (Tbl.put t k a) x = Tbl.get? t x := by
  induction t with
  | nil => simp [Tbl.put, Tbl.get?, Ne.symm hx]
  | cons e t ih =>
    obtain ⟨j, b⟩ := e
    unfold Tbl.put
    split
    · rw [Tbl.get?, if_neg (Ne.symm hx)]
    · split
      · subst k; rw [Tbl.get?, if_neg (Ne.symm hx), Tbl.get?, if_neg (Ne.symm hx)]
      · rw [Tbl.get?, Tbl.get?, ih]

theorem Tbl.get?_modify {α : Type} (t : Tbl α) (k x : Nat) (f : α → α) :
    Tbl.get? (Tbl.modify t k f) x = if x = k then (Tbl.get? t x).map f else Tbl.get? t x := by
  induction t with
  | nil => simp [Tbl.modify, Tbl.get?]
  | cons e t ih =>
    obtain ⟨j, b⟩ := e
    rw [show Tbl.modify ((j, b) :: t) k f = (if j = k then (j, f b) else (j, b)) :: Tbl.modify t k f from rfl]
    by_cases hj : j = x
    · subst j
      by_cases hk : x = k
      · subst k; simp [Tbl.get?]
      · simp [Tbl.get?, hk]
    · by_cases hk : j = k
      · subst k; simp [Tbl.get?, hj, ih]
      · simp [Tbl.get?, hj, hk, ih]

theorem Tbl.put_wf {α : Type} (t : Tbl α) (k : Nat) (a : α) (h : Tbl.wf t = true) : Tbl.wf (Tbl.put t k a) = true := by
  induction t with
  | nil => rfl
  | cons e t ih =>
    obtain ⟨j, b⟩ := e
    unfold Tbl.put
    split
    · simp [Tbl.wf, *]
    · split
      · subst k
        cases t with
        | nil => rfl
        | cons d t => simpa [Tbl.wf] using h
      · cases t with
        | nil => simp [Tbl.put, Tbl.wf]; omega
        | cons d t =>
          obtain ⟨i, c⟩ := d
          simp only [Tbl.wf, Bool.and_eq_true, decide_eq_true_eq] at h
          have h2 := ih h.2
          revert h2
          unfold Tbl.put
          split
          · intro h2; simp [Tbl.wf] at h2 ⊢; exact ⟨by omega, h2⟩
          · split
            · intro h2; simp [Tbl.wf] at h2 ⊢; exact ⟨by omega, h2⟩
            · intro h2; simp [Tbl.wf] at h2 ⊢; exact ⟨h.1, h2⟩

end Sys2Proof.Machine
end

