-- ==== Sys2Proof/WellFormed.lean ====
section
/-! DEFINITION. WellFormed.lean: which commands and events a part can meet at all: the numbers of ports, ring sets,
objects and units stay within the counts of the spec's tables. The machine gives every command a
meaning, well formed or not. -/

namespace Sys2Proof

/-- A ring set: 4 on each of HP0 to HP2 and 1 on MP (R46). -/
def wfRs (rs : Nat) : Bool := decide (rs < 13)
/-- A host port (Table 3-1). -/
def wfPort (p : Nat) : Bool := decide (p < 4)
/-- A BAR0 offset: 26 windows of 4 MiB (R4, Table 0-4). -/
def wfOffset (o : Nat) : Bool := decide (o < 26 * 4194304)
/-- A leg (R12). -/
def wfLeg (n : Nat) : Bool := decide (n < 16384)
/-- A flue (R97). -/
def wfFlue (n : Nat) : Bool := decide (n < 65536)
/-- A DSP core: 17 in each of 16 groves. -/
def wfCore (n : Nat) : Bool := decide (n < 272)
/-- A DRAM channel (R124). -/
def wfChan (n : Nat) : Bool := decide (n < 32)
/-- An entry of the flow table. -/
def wfFlow (n : Nat) : Bool := decide (n < 1048576)
/-- A station (R304). -/
def wfSta (n : Nat) : Bool := decide (n < 1024)
/-- A radio. -/
def wfRadio (n : Nat) : Bool := decide (n < 3)
/-- A chain of the radio die. -/
def wfChain (n : Nat) : Bool := decide (n < 12)
/-- An audio port. -/
def wfAsp (n : Nat) : Bool := decide (n < 8)

/-- An Edham packet: 32 bytes of header and at most 4,064 of parameters, its ring set, its 8-bit VERSION
and its 16-bit PARAM_LEN and LEASE_ID (Table 3-5). -/
def wfCmd (c : Cmd) : Bool :=
  wfRs c.rs && decide (c.version < 256) && decide (c.paramLen < 65536) && decide (c.leaseId < 65536)
    && decide (c.params.length ≤ 4064)

/-- A ring-set descriptor (Table 3-3). -/
def wfDesc (d : RingDesc) : Bool := wfRs d.set && decide (d.sqSlots ≤ 65536) && decide (d.rplSlots ≤ 65536) && decide (d.evtSlots ≤ 65536)

/-- The operands are within the spec's counts. -/
def Instr.wellFormed : Instr → Bool
  | .commandFetch p => decide (p.opcode < 65536) && wfCmd p.cmd
  | .timedCommandStart => true
  | .devInfo c => wfCmd c
  | .devRegWrite c => wfCmd c
  | .devAbort c => wfCmd c
  | .queryProgress c => wfCmd c
  | .leaseAcquire c => wfCmd c
  | .leaseRenew c => wfCmd c
  | .leaseRelease c => wfCmd c
  | .leaseBreak c => wfCmd c
  | .devEventRoute c => wfCmd c
  | .devPortPriv c => wfCmd c
  | .devRegRead c => wfCmd c
  | .devEcho c => wfCmd c
  | .devReset c => wfCmd c
  | .commandResetStart => true
  | .ringSetEnable writer port _ d => wfPort writer && wfPort port && wfDesc d
  | .ringSetDisable writer port _ d => wfPort writer && wfPort port && wfDesc d
  | .ringSetDrained rs => wfRs rs
  | .sqTailDoorbell port rs tail => wfPort port && wfRs rs && decide (tail < 65536)
  | .rplHeadDoorbell port rs head => wfPort port && wfRs rs && decide (head < 65536)
  | .evtHeadDoorbell port rs head => wfPort port && wfRs rs && decide (head < 65536)
  | .hpiRsIntMaskWrite rs _ => wfRs rs
  | .hpiRsIntStatusClear rs _ => wfRs rs
  | .intHoldoffExpiry rs vec => wfRs rs && decide (vec < 2)
  | .devAlarmClear _ => true
  | .otpResetCauseClear _ => true
  | .fabMissSumClear index _ => decide (index < 3)
  | .dsxCHistClear _ => true
  | .tmuQFlagsClear queue _ => decide (queue < 11)
  | .selectRegisterWrite offset _ => wfOffset offset
  | .ignoredDirectWrite port offset _ => wfPort port && wfOffset offset
  | .rcRegisterRead offset => wfOffset offset
  | .latchingWordRead offset => wfOffset offset
  | .bar2Access port _ _ data count => decide (port < 3) && decide (data.length ≤ 64) && decide (count ≤ 64)
  | .bar2MapSwitch port => decide (port < 3)
  | .leaseExpired id => decide (id < 65536)
  | .legCreate c => wfCmd c
  | .legStart c => wfCmd c
  | .legModify c => wfCmd c
  | .legHold c => wfCmd c
  | .legResume c => wfCmd c
  | .legClose c => wfCmd c
  | .legDrainComplete leg => wfLeg leg
  | .legQuery c => wfCmd c
  | .confCreate c => wfCmd c
  | .confJoin c => wfCmd c
  | .confLeave c => wfCmd c
  | .confClose c => wfCmd c
  | .confQuery c => wfCmd c
  | .mixPlanSet c => wfCmd c
  | .mixRoleSet c => wfCmd c
  | .mixRouteSet c => wfCmd c
  | .mixParamLoad c => wfCmd c
  | .mixQuery c => wfCmd c
  | .blockBoundary inputs => inputs.all fun i => wfLeg i.leg
  | .jbRelease leg => wfLeg leg
  | .jbTargetRecompute leg => wfLeg leg
  | .voiceDecodeFrame v => wfLeg v.leg
  | .voiceEncodeFrame conf _ member => decide (conf < 4096) && decide ((member.getD 0) < 16384)
  | .aspConfig c => wfCmd c
  | .aspStart c => wfCmd c
  | .aspStop c => wfCmd c
  | .aspMaskSet c => wfCmd c
  | .aspTriggerArm c => wfCmd c
  | .aspQuery c => wfCmd c
  | .aspStartInstant port => wfAsp port
  | .aspFrame f => wfAsp f.port
  | .aspClockLost port => wfAsp port
  | .aspHoldFade port => wfAsp port
  | .aspRateChange port => wfAsp port
  | .aspConverged port => wfAsp port
  | .aspNoClock port => wfAsp port
  | .aspStopComplete port => wfAsp port
  | .aspPinFault port pin _ => wfAsp port && decide (pin < 4)
  | .aspPinRetry port pin _ => wfAsp port && decide (pin < 4)
  | .trigInEdge input edge => decide (input < 4) && decide (edge < 2)
  | .dspLoad c => wfCmd c
  | .dspTaskCreate c => wfCmd c
  | .dspTaskBind c => wfCmd c
  | .dspTaskParam c => wfCmd c
  | .dspTaskDelete c => wfCmd c
  | .dspQuery c => wfCmd c
  | .taskDispatch target _ => decide (target < 0x8010)
  | .bundleIssue core => wfCore core
  | .spGoPop core slot => wfCore core && decide (slot < 16)
  | .spGoPush core slot => wfCore core && decide (slot < 16)
  | .streamCommandComplete core => wfCore core
  | .coreMigration core => wfCore core
  | .push flue _ item _ => wfFlue flue && decide (item.payload.length ≤ 65536)
  | .abandon flue _ _ => wfFlue flue
  | .pop flue _ _ => wfFlue flue
  | .peek flue _ _ => wfFlue flue
  | .dropRemainder flue _ _ => wfFlue flue
  | .commit flue _ _ => wfFlue flue
  | .rewind flue _ _ => wfFlue flue
  | .flueResetComplete flue => wfFlue flue
  | .flueOpenTimeout flue => wfFlue flue
  | .flueCreate c => wfCmd c
  | .flueDelete c => wfCmd c
  | .flueQuery c => wfCmd c
  | .memPoolAssign c => wfCmd c
  | .dramRegionCreate c => wfCmd c
  | .dramRegionDelete c => wfCmd c
  | .dramTrain c => wfCmd c
  | .dramQuery c => wfCmd c
  | .dbgWindowSet c => wfCmd c
  | .sramWordAccess bank offset _ _ => decide (bank < 1536) && decide (offset < 131072)
  | .sramScrub bank row _ _ => decide (bank < 1536) && decide (row < 256)
  | .dramRequest r => decide (r.region < 4096)
  | .rowIdleClose ch _ => wfChan ch
  | .perBankRefresh ch _ _ => wfChan ch
  | .patrolScrub ch _ _ _ => wfChan ch
  | .wckTracking ch _ _ _ => wfChan ch
  | .retrainSlice ch _ _ _ _ => wfChan ch
  | .dramSetpoint ch sp _ => wfChan ch && decide (sp < 4)
  | .dramMirrorRestored region _ _ => decide (region < 4096)
  | .portConfig c => wfCmd c
  | .portQuery c => wfCmd c
  | .flowInstall c => wfCmd c
  | .flowModify c => wfCmd c
  | .flowRemove c => wfCmd c
  | .flowQuery c => wfCmd c
  | .routeSet c => wfCmd c
  | .natSet c => wfCmd c
  | .aclSet c => wfCmd c
  | .flowRehashEnd => true
  | .routeChangeDrain flow => wfFlow flow
  | .ethFrameReceive f => decide (f.iface ≤ 32)
  | .connExpiry flow => wfFlow flow
  | .ethLink iface _ _ _ => decide (iface < 32)
  | .keyWrite c => wfCmd c
  | .keyErase c => wfCmd c
  | .keyQuery c => wfCmd c
  | .macsecSaSet c => wfCmd c
  | .cipQuery c => wfCmd c
  | .keyGenerationZeroise slot _ => decide (slot < 65536)
  | .keyHoldEnd slot => decide (slot < 65536)
  | .cipherOperation o => decide (o.slot < 65536)
  | .decCreate c => wfCmd c
  | .decModify c => wfCmd c
  | .decDelete c => wfCmd c
  | .decQuery c => wfCmd c
  | .pictureDecode v => decide (v.engine < 52)
  | .reorderTimeout stream => decide (stream < 6144)
  | .keyRequestSend leg _ => wfLeg leg
  | .firRepeat stream => decide (stream < 6144)
  | .decNoKey stream => decide (stream < 6144)
  | .cmpCreate c => wfCmd c
  | .cmpLayoutSet c => wfCmd c
  | .cmpTileSet c => wfCmd c
  | .cmpOverlaySet c => wfCmd c
  | .cmpDelete c => wfCmd c
  | .cmpQuery c => wfCmd c
  | .compositionInstant comp _ => decide (comp < 512)
  | .cmpSourceLost comp tile => decide (comp < 512) && decide (tile < 64)
  | .encCreate c => wfCmd c
  | .encModify c => wfCmd c
  | .encKeyPicture c => wfCmd c
  | .encDelete c => wfCmd c
  | .encQuery c => wfCmd c
  | .encodePicture v => decide (v.engine < 26)
  | .fwdPolicySet c => wfCmd c
  | .fwdSetModify c => wfCmd c
  | .fwdQuery c => wfCmd c
  | .bweQuery c => wfCmd c
  | .bweEvaluation => true
  | .layerSwitch leg entry _ => wfLeg leg && decide (entry ≤ 16)
  | .pacingSend leg => wfLeg leg
  | .fwdBacklog leg => wfLeg leg
  | .fwdWaitKey leg entry => wfLeg leg && decide (entry ≤ 16)
  | .senderReport leg => wfLeg leg
  | .wlanRoleSet c => wfCmd c
  | .bssCreate c => wfCmd c
  | .bssDelete c => wfCmd c
  | .staAdmit c => wfCmd c
  | .staRemove c => wfCmd c
  | .staQuery c => wfCmd c
  | .twtSet c => wfCmd c
  | .wurSet c => wfCmd c
  | .scanStart c => wfCmd c
  | .wlanPpduReceive p => wfRadio p.radio
  | .reorderHoldTimeout sta tid => wfSta sta && decide (tid < 8)
  | .staProgressTimeout sta => wfSta sta
  | .staRequestTimeout sta => wfSta sta
  | .staIdleProbe sta _ => wfSta sta
  | .staLeave sta => wfSta sta
  | .dlTxopSchedule radio ac _ => wfRadio radio && decide (ac < 4)
  | .twtServicePeriod sta _ _ => wfSta sta
  | .unreachHoldExpiry sta => wfSta sta
  | .channelSwitchMove radio => wfRadio radio
  | .bssColourChange bss radio colour => decide (bss < 16) && wfRadio radio && decide (colour < 64)
  | .handshakeRetry sta => wfSta sta
  | .gtkRekey bss => decide (bss < 16)
  | .beaconTransmit bss radio => decide (bss < 16) && wfRadio radio
  | .wurBeacon => true
  | .wurWakeSend sta _ => wfSta sta
  | .wurWakeFail sta => wfSta sta
  | .beaconLoss sta radio => wfSta sta && wfRadio radio
  | .radioStateSet c => wfCmd c
  | .radioChannelSet c => wfCmd c
  | .radioPowerSet c => wfCmd c
  | .radioCal c => wfCmd c
  | .femConfig c => wfCmd c
  | .radioQuery c => wfCmd c
  | .synthLock radio _ => wfRadio radio
  | .transmitRequest radio _ _ _ _ => wfRadio radio
  | .transmitEnd radio _ => wfRadio radio
  | .synthUnlock radio => wfRadio radio
  | .clearing radio _ _ => wfRadio radio
  | .calibrationComplete radio _ => wfRadio radio
  | .aerialProbe chain _ => wfChain chain
  | .biasFault chain => wfChain chain
  | .biasRetry chain _ => wfChain chain
  | .wurFrameAccept _ id _ => decide (id < 4096)
  | .timeDomainSet c => wfCmd c
  | .timeSelect c => wfCmd c
  | .timeStep c => wfCmd c
  | .tsQueueRead c => wfCmd c
  | .ppsConfig c => wfCmd c
  | .timeQuery c => wfCmd c
  | .domainTimeout dom _ => decide (dom < 2)
  | .domainTakeover dom => decide (dom < 2)
  | .slewComplete => true
  | .refclkLost _ => true
  | .refclkRestored => true
  | .ppsOutEdge => true
  | .ppsInEdge => true
  | .tsQueueInsert queue _ _ flags => decide (queue < 11) && decide (flags < 256)
  | .capSessionCreate c => wfCmd c
  | .capFilterSet c => wfCmd c
  | .capTriggerSet c => wfCmd c
  | .capStart c => wfCmd c
  | .capStop c => wfCmd c
  | .capReadout c => wfCmd c
  | .replayLoad c => wfCmd c
  | .replayStart c => wfCmd c
  | .replayStop c => wfCmd c
  | .capQuery c => wfCmd c
  | .captureTriggerInstant session => decide (session < 16)
  | .replayPrefetch session => decide (session < 16)
  | .replayRecordSend session _ _ _ => decide (session < 16)
  | .fwLoad c => wfCmd c
  | .fwActivate c => wfCmd c
  | .fwAcceptUntested c => wfCmd c
  | .fwQuery c => wfCmd c
  | .otpRead c => wfCmd c
  | .otpProgram c => wfCmd c
  | .resetPin _ => true
  | .powerOn => true
  | .brownOut _ _ => true
  | .watchdog _ => true
  | .kindlingBoot _ => true
  | .supplyRecheck _ => true
  | .portLink port _ _ _ => wfPort port
  | .deadlineRelease d => decide (d.edge < 96)
  | .fabLinkFault junction dir _ _ => decide (junction < 256) && decide (dir < 4)
  | .fabJunctionFault junction => decide (junction < 256)
  | .fabRerouteDone _ _ => true
  | .fabDamperLong junction vc => decide (junction < 256) && decide (vc < 4)
  | .pwrStateSet c => wfCmd c
  | .pwrWakeSet c => wfCmd c
  | .pwrQuery c => wfCmd c
  | .hltQuery c => wfCmd c
  | .hltMarginQuery c => wfCmd c
  | .hltSpareQuery c => wfCmd c
  | .entryStepComplete _ => true
  | .drainTimeout => true
  | .pwrWakeEvent source => decide (source < 16)
  | .wakeStepReady _ _ => true
  | .wakeStepTimeout => true
  | .thermalHigh sensor _ => decide (sensor < 16)
  | .thermalTrip sensor _ => decide (sensor < 16)
  | .marginPlan _ _ _ => true
  | .canaryMeasure _ => true
  | .engineSelftest subsys _ _ => decide (subsys < 26)
  | .engineMigrated subsys _ _ _ => decide (subsys < 26)
  | .supplyFault _ _ _ => true
  | .synthRelockTimeout radio => wfRadio radio
  | .scanDone radio _ => wfRadio radio

end Sys2Proof
end

