-- ==== Sys2Proof/Tests/Slice0.lean ====
section
/-! SUPPORT. Tests/Slice0.lean: small tests of single steps, the ill-formed terms that WellFormed refuses, and for
every statement a state and operands that meet its hypotheses. -/

set_option maxRecDepth 100000

namespace Sys2Proof.Machine

/-! ### WellFormed: one ill-formed term for each check -/

theorem test_wf_cmd : Instr.wellFormed (.devInfo { rs := 0 }) = true := by decide
theorem test_wf_rs : Instr.wellFormed (.devInfo { rs := 13 }) = false := by decide
theorem test_wf_version : Instr.wellFormed (.devInfo { rs := 0, version := 256 }) = false := by decide
theorem test_wf_paramLen : Instr.wellFormed (.devInfo { rs := 0, paramLen := 65536 }) = false := by decide
theorem test_wf_leaseId : Instr.wellFormed (.devInfo { rs := 0, leaseId := 65536 }) = false := by decide
theorem test_wf_params : Instr.wellFormed (.devInfo { rs := 0, params := List.replicate 4065 0 }) = false := by decide +kernel
theorem test_wf_opcode : Instr.wellFormed (.commandFetch { opcode := 65536, cmd := { rs := 0 } }) = false := by decide
theorem test_wf_port : Instr.wellFormed (.portLink 4 true 16 5) = false := by decide
theorem test_wf_desc : Instr.wellFormed (.ringSetEnable 0 0 0 { set := 0, op := 1, sqSlots := 65537 }) = false := by decide
theorem test_wf_tail : Instr.wellFormed (.sqTailDoorbell 0 0 65536) = false := by decide
theorem test_wf_vec : Instr.wellFormed (.intHoldoffExpiry 0 2) = false := by decide
theorem test_wf_missSum : Instr.wellFormed (.fabMissSumClear 3 0) = false := by decide
theorem test_wf_queue : Instr.wellFormed (.tmuQFlagsClear 11 0) = false := by decide
theorem test_wf_offset : Instr.wellFormed (.rcRegisterRead (26 * 4194304)) = false := by decide
theorem test_wf_bar2 : Instr.wellFormed (.bar2Access 3 0 false [] 4) = false := by decide
theorem test_wf_bar2_size : Instr.wellFormed (.bar2Access 0 0 false [] 65) = false := by decide
theorem test_wf_lease : Instr.wellFormed (.leaseExpired 65536) = false := by decide
theorem test_wf_leg : Instr.wellFormed (.legDrainComplete 16384) = false := by decide
theorem test_wf_input_leg : Instr.wellFormed (.blockBoundary [{ leg := 16384 }]) = false := by decide
theorem test_wf_conf : Instr.wellFormed (.voiceEncodeFrame 4096 0 none) = false := by decide
theorem test_wf_asp : Instr.wellFormed (.aspStartInstant 8) = false := by decide
theorem test_wf_pin : Instr.wellFormed (.aspPinFault 0 4 1) = false := by decide
theorem test_wf_trig : Instr.wellFormed (.trigInEdge 4 0) = false := by decide
theorem test_wf_core : Instr.wellFormed (.bundleIssue 272) = false := by decide
theorem test_wf_slot : Instr.wellFormed (.spGoPop 0 16) = false := by decide
theorem test_wf_target : Instr.wellFormed (.taskDispatch 0x8010 []) = false := by decide
theorem test_wf_flue : Instr.wellFormed (.pop 65536 0 []) = false := by decide
theorem test_wf_bank : Instr.wellFormed (.sramWordAccess 1536 0 none 0) = false := by decide
theorem test_wf_row : Instr.wellFormed (.sramScrub 0 256 0 none) = false := by decide
theorem test_wf_region : Instr.wellFormed (.dramRequest { region := 4096, offset := 0, requester := 0, write := none }) = false := by decide
theorem test_wf_chan : Instr.wellFormed (.rowIdleClose 32 0) = false := by decide
theorem test_wf_setpoint : Instr.wellFormed (.dramSetpoint 0 4 0) = false := by decide
theorem test_wf_flow : Instr.wellFormed (.connExpiry 1048576) = false := by decide
theorem test_wf_iface : Instr.wellFormed (.ethLink 32 true 0 4) = false := by decide
theorem test_wf_key : Instr.wellFormed (.keyHoldEnd 65536) = false := by decide
theorem test_wf_stream : Instr.wellFormed (.reorderTimeout 6144) = false := by decide
theorem test_wf_engine : Instr.wellFormed (.pictureDecode { engine := 52 }) = false := by decide
theorem test_wf_comp : Instr.wellFormed (.compositionInstant 512 0) = false := by decide
theorem test_wf_tile : Instr.wellFormed (.cmpSourceLost 0 64) = false := by decide
theorem test_wf_enc : Instr.wellFormed (.encodePicture { engine := 26 }) = false := by decide
theorem test_wf_entry : Instr.wellFormed (.fwdWaitKey 0 17) = false := by decide
theorem test_wf_radio : Instr.wellFormed (.synthUnlock 3) = false := by decide
theorem test_wf_sta : Instr.wellFormed (.staLeave 1024) = false := by decide
theorem test_wf_tid : Instr.wellFormed (.reorderHoldTimeout 0 8) = false := by decide
theorem test_wf_ac : Instr.wellFormed (.dlTxopSchedule 0 4 []) = false := by decide
theorem test_wf_bss : Instr.wellFormed (.gtkRekey 16) = false := by decide
theorem test_wf_colour : Instr.wellFormed (.bssColourChange 0 0 64) = false := by decide
theorem test_wf_chain : Instr.wellFormed (.biasFault 12) = false := by decide
theorem test_wf_wur : Instr.wellFormed (.wurFrameAccept true 4096 0) = false := by decide
theorem test_wf_dom : Instr.wellFormed (.domainTakeover 2) = false := by decide
theorem test_wf_session : Instr.wellFormed (.replayPrefetch 16) = false := by decide
theorem test_wf_edge : Instr.wellFormed (.deadlineRelease { edge := 96 }) = false := by decide
theorem test_wf_junction : Instr.wellFormed (.fabJunctionFault 256) = false := by decide
theorem test_wf_dir : Instr.wellFormed (.fabLinkFault 0 4 0 0) = false := by decide
theorem test_wf_vc : Instr.wellFormed (.fabDamperLong 0 4) = false := by decide
theorem test_wf_source : Instr.wellFormed (.pwrWakeEvent 16) = false := by decide
theorem test_wf_sensor : Instr.wellFormed (.thermalHigh 16 0) = false := by decide
theorem test_wf_subsys : Instr.wellFormed (.engineSelftest 26 0 true) = false := by decide

/-! ### Helpers: a device that runs, a command on ring set 0, and whether it runs now -/

/-- READY, port 0 up at ADMIN, ring set 0 enabled with rings of 256 slots. -/
def up : State := { State.reset with
  boot := { State.reset.boot with ready := true }
  host := { State.reset.host with
    ports := [(0, { linkUp := true, priv := 2 })]
    rings := [(0, { phase := .enabled, sqSlots := 256, rplSlots := 256, evtSlots := 256 })] } }

/-- A command of ring set 0 with a handle and parameters. -/
def cmdOf (h : Word) (p : List Byte) : Cmd := { rs := 0, handle := h, paramLen := p.length, params := p }

/-- RunsNow as a Boolean. -/
def runsB (op : Nat) (plan : Cmd → State → Plan) (c : Cmd) (s : State) : Bool :=
  match queuedEntry op c (fetchedFor op c s) with
  | none => false
  | some e => !heldBack e (fetchedFor op c s) && !Cmd.timed e.cmd && !Cmd.dryRun e.cmd && (checksOf op plan c s e).isNone

theorem runs_of_runsB {op : Nat} {plan : Cmd → State → Plan} {c : Cmd} {s : State} (h : runsB op plan c s = true) :
    ∃ e, RunsNow op plan c s e := by
  unfold runsB at h
  split at h
  · exact absurd h (by decide)
  · rename_i e he
    simp only [Bool.and_eq_true, Bool.not_eq_true'] at h
    exact ⟨e, ⟨he, h.1.1.1, h.1.1.2⟩, h.1.2, h.2⟩

theorem test_step_front : step { up with pending := [.slewComplete] } = exec .slewComplete up := rfl

theorem test_idle_hyp : up.pending = [] ∧ up.pkt.portCmds = [] := by decide

theorem test_reset_fab : (findReg R.FAB_CTRL).isSome = true ∧ R.FAB_CTRL < 2 ^ 28 := by decide +kernel

/-- The entry a command row of `up` has once it is fetched. -/
def entry0 (op : Nat) (c : Cmd) : OutCmd := { seq := 0, opcode := op, cmd := c }

theorem test_refused_hyp :
    ComesUp 0x0202 (cmdOf 0x02000005 (leN 0 8)) up (entry0 0x0202 (cmdOf 0x02000005 (leN 0 8))) ∧
    ((checksOf 0x0202 legStartPlan (cmdOf 0x02000005 (leN 0 8)) up (entry0 0x0202 (cmdOf 0x02000005 (leN 0 8)))).map fun f => f.err.status)
      = some St.BAD_HANDLE := by
  refine ⟨⟨?_, ?_, ?_⟩, ?_⟩ <;> decide +kernel

theorem test_order_hyp : (Cmd.dryRun (cmdOf devH []) && Cmd.timed (cmdOf devH [])) = false := by decide

theorem test_dry_hyp :
    let c : Cmd := { cmdOf devH (leN 7 8) with flags := 0x10 }
    ComesUp 0x010C c up (entry0 0x010C c) ∧ Cmd.dryRun c = true ∧ (checksOf 0x010C echoPlan c up (entry0 0x010C c)).isNone = true ∧
      (match doneOf 0x010C echoPlan c up (entry0 0x010C c) with | .reply _ st _ _ _ => decide (st < 0x100) | .defer _ => false) = true := by
  refine ⟨⟨?_, ?_, ?_⟩, ?_, ?_, ?_⟩ <;> decide +kernel

/-- Two commands of ring set 0 on one leg, the first not started. -/
def two : State := { up with host := { up.host with
  cmds := [{ seq := 0, opcode := 0x0204, cmd := { rs := 0, tag := 1, handle := 0x02000001 } }
         , { seq := 1, opcode := 0x0205, cmd := { rs := 0, tag := 2, handle := 0x02000001 } }], fetched := 2 } }

theorem test_held_hyp :
    let c : Cmd := { rs := 0, tag := 2, handle := 0x02000001 }
    let e : OutCmd := { seq := 1, opcode := 0x0205, cmd := c }
    queuedEntry 0x0205 c (fetchedFor 0x0205 c two) = some e ∧ heldBack e (fetchedFor 0x0205 c two) = true := by decide +kernel

theorem test_reply_hyp : Cmd.wantReply (cmdOf devH []) = false ∧ St.OK = St.OK := by decide

theorem test_fuses_hyp : ∃ t, exec .slewComplete up = .next t := ⟨_, rfl⟩

theorem test_answer_hyp : ∀ a ∈ up.host.aborts, a.1 ≠ (entry0 0x010C (cmdOf devH [])).seq := by decide

/-- Whether a set-up state lets the command run now, for a row's plan: the witness of a row's completion statement. -/
theorem test_echo_hyp : (∃ e, RunsNow 0x010C echoPlan (cmdOf devH (leN 7 16)) up e) ∧ (cmdOf devH (leN 7 16)).params.length ≤ 4056 :=
  ⟨runs_of_runsB (by decide +kernel), by decide⟩

/-- A lease of port 0 over legs 5 and 6. -/
def leased : State := { up with
  host := { up.host with leases := [(3, { port := 0, term := 1000, ends := 9000000, objs := [0x02000005, 0x02000006] })] }
  legs := [(5, {}), (6, {})] }

theorem test_lease_hyp :
    runsB 0x0105 leaseAcquirePlan (cmdOf 0x02000005 (leN 0 4 ++ leN 1000 4)) leased = true ∧
    runsB 0x0105 leaseAcquirePlan (cmdOf 0x02000006 (leN 3 4 ++ leN 600000 4)) leased = true ∧
    runsB 0x0106 leaseRenewPlan (cmdOf devH (leN 3 4 ++ leN 100 4)) leased = true ∧
    runsB 0x0107 leaseReleasePlan (cmdOf devH (leN 3 8)) leased = true ∧
    runsB 0x0107 leaseReleasePlan (cmdOf 0x02000006 (leN 3 8)) leased = true ∧
    runsB 0x0108 leaseBreakPlan (cmdOf devH (leN 3 8)) leased = true := by decide +kernel

/-- A command of tag 9 that has not started and may be aborted. -/
def waiting9 : State := { up with host := { up.host with
  cmds := [{ seq := 0, opcode := 0x0204, cmd := { rs := 0, tag := 9, handle := 0x02000001, flags := 8 } }], fetched := 1 } }

theorem test_device_hyp :
    runsB 0x0109 eventRoutePlan (cmdOf devH (leN 0 1 ++ leN 5 3 ++ leN 0xFFFFFFFF 4)) up = true ∧
    runsB 0x010A portPrivPlan (cmdOf devH (leN 3 1 ++ leN 2 7)) up = true ∧
    runsB 0x0102 devRegWritePlan (cmdOf devH (leN 1 8 ++ leN R.FAB_CTRL 4 ++ leN 1 4 ++ leN 0 8)) up = true ∧
    ((findReg R.FAB_CTRL).any fun x => x.1.sel == 0 && x.1.base != R.HPI_RS_INT_MASK && x.1.base != R.TMU_CTRL) = true ∧
    runsB 0x010B devRegReadPlan (cmdOf devH (leN 1 8 ++ leN R.FAB_CTRL 8)) up = true ∧
    runsB 0x010D devResetPlan (cmdOf devH (leN 2 8)) up = true ∧
    runsB 0x0103 devAbortPlan (cmdOf devH (leN 0 4 ++ leN 9 4)) waiting9 = true ∧
    ((outTarget waiting9 (cmdOf devH (leN 0 4 ++ leN 9 4))).any fun x => x.phase != .running) = true := by decide +kernel

theorem test_kept_hyp : u8 (leN 12 4 ++ leN 7 4) 0 ≤ 12 ∧ (∀ x ∈ up.host.cmds, x.cmd.tag.toNat ≠ 7) ∧
    (∀ k ∈ (ringOf up 12).kept, k.tag.toNat ≠ 7) := by decide +kernel

theorem test_enable_hyp :
    descOk { set := 1, op := 1, sqBase := 0x1000, rplBase := 0x2000, evtBase := 0x3000, sqSlots := 64, rplSlots := 65536, evtSlots := 64 } = true
    ∧ up.boot.ready = true ∧ (ringOf up 1).phase = .disabled ∧ (ringOf up 1).logged = false ∧ (4 * 0 + 1) % 4 ≠ 0 ∧ (ringOf up 0).phase ≠ .disabled
    ∧ (ringOf { up with host := { up.host with rings := [(12, { phase := .draining })] } } 12).phase = .draining
    ∧ outstanding up 12 = 0 ∧ (ringOf up 12).waiting = [] := by decide +kernel

/-- Ring set 0 with packets in its rings, and a vector owed. -/
def busy : State := setRg R.HPI_RS_INT_STATUS 3 (setRg R.HPI_RS_INT_MASK 0 { up with host := { up.host with
  rings := [(0, { phase := .enabled, sqSlots := 256, rplSlots := 256, evtSlots := 256, sqTail := 10, rplTail := 3, evtTail := 2
                  hold := [50, 0], owed := [true, false] })] } })

theorem test_doorbell_hyp :
    doorbellIgnored 0 0 busy = false ∧ (255 : Nat) < (ringOf busy 0).sqSlots ∧
    headOk (ringOf busy 0).rplSlots (ringOf busy 0).rplHead (ringOf busy 0).rplTail 3 = true ∧
    headOk (ringOf busy 0).evtSlots (ringOf busy 0).evtHead (ringOf busy 0).evtTail 2 = true ∧
    (ringOf busy 0).owed.getD 0 false = true ∧ bit (rgRaw busy (R.HPI_RS_INT_STATUS + 0x30 * 0)) 0 = true ∧
    bit (rgRaw busy (R.HPI_RS_INT_MASK + 0x30 * 0)) 0 = false ∧ nextRing busy = some 0 ∧ knownOpcode 0x0101 = true ∧
    slotsOf (32 + 8) ≤ ((ringOf busy 0).sqTail + 256 - (ringOf busy 0).sqHead) % max 1 256 := by decide +kernel

theorem test_direct_hyp :
    ((findReg R.FAB_EDGE_SEL).any fun x => selectRegs.contains x.1.base) = true ∧
    ((findReg R.DEV_CMD_DONE).any fun x => x.2.2 == 0 && x.1.words == 2 && x.1.acc == .ro && !isMeasured x.1.base) = true ∧
    ((findReg R.DMC_CH_AGE_MAX).any fun x => x.2.2 == 0 && x.1.acc == .rc && x.1.sel == 0 && !isMeasured x.1.base) = true := by decide +kernel

theorem test_reset_hyp : bit (rgRaw { up with boot := { up.boot with beatFrom := some 0, resetAt := some 7 } } R.OTP_WDT) 31 = false ∧
    bits (rgRaw up R.OTP_WDT) 15 0 ≤ 65535 ∧ ({ up with boot := { up.boot with beatFrom := some 0 } } : State).boot.beatFrom ≠ none := by
  decide +kernel

/-- Legs 1 READY, 2 ACTIVE, 3 HELD, 4 CLOSING; conference 0 with member 2, on bus 0. -/
def legsUp : State := { up with
  legs := [(1, { jbMin := 20, jbMax := 200 }), (2, { state := .active, jbMin := 20, jbMax := 200, conf := some 0 })
          , (3, { state := .held, jbMin := 20, jbMax := 200 }), (4, { state := .closing })]
  confs := [(0, { members := [2] })]
  audio.legs := [(2, {})]
  audio.buses := [(0, { conf := 0, num := 0 })] }

/-- A 24-byte leg block: TYPE 0, Opus, 20 ms, mono. -/
def legBlock : List Byte := [0, 0, 40, 1] ++ List.replicate 20 0

theorem test_legs_hyp :
    runsB 0x0201 legCreatePlan (cmdOf 0x02FFFFFF legBlock) legsUp = true ∧
    runsB 0x0201 legCreatePlan (cmdOf 0x02003FFF legBlock) legsUp = true ∧
    runsB 0x0202 legStartPlan (cmdOf 0x02000001 (leN 0 8)) legsUp = true ∧
    runsB 0x0204 legHoldPlan (cmdOf 0x02000002 (leN 0 8)) legsUp = true ∧
    runsB 0x0205 legResumePlan (cmdOf 0x02000003 (leN 0 8)) legsUp = true ∧
    runsB 0x0203 legModifyPlan (cmdOf 0x02000003 (legBlock ++ leN 4 8)) legsUp = true ∧
    runsB 0x0206 legClosePlan (cmdOf 0x02000001 (leN 0 8)) legsUp = true ∧
    legDrained legsUp 4 = true := by decide +kernel

theorem test_conf_hyp :
    let route : List Byte := leN 1 2 ++ leN 0xFFFF 2 ++ leN 0 4 ++ [3, 0] ++ leN 0 2 ++ leN 0x04000002 4 ++ leN 4 2 ++ [2] ++ leN 0 5
    runsB 0x0301 confCreatePlan (cmdOf 0x03FFFFFF (leN 8 1 ++ leN 15 7)) legsUp = true ∧
    runsB 0x0302 confJoinPlan (cmdOf 0x03000000 (leN 0x02000001 4 ++ leN 2 4)) legsUp = true ∧
    runsB 0x0303 confLeavePlan (cmdOf 0x03000000 (leN 0x02000002 8)) legsUp = true ∧
    runsB 0x0304 confClosePlan (cmdOf 0x03000000 (leN 0 8)) legsUp = true ∧
    runsB 0x0310 mixPlanPlan (cmdOf 0x03000000 ([64, 7] ++ leN 5000 2 ++ leN 65456 2 ++ leN 480 2 ++ leN 20 8)) legsUp = true ∧
    runsB 0x0311 mixRolePlan (cmdOf 0x02000002 ([2, 3] ++ leN 48 6)) legsUp = true ∧
    runsB 0x0312 mixRoutePlan (cmdOf 0x03000000 route) legsUp = true ∧ u16 route 0 = 1 ∧ (routeAt route 0).op = 3 ∧
    routeWalk legsUp 0 (confOf legsUp 0).aux [routeAt route 0] 0 (routesNow legsUp 0) = none ∧
    (Tbl.get? legsUp.audio.buses (busOf legsUp 0 (routeAt route 0).bus)).isSome = true ∧
    runsB 0x0313 mixParamPlan (cmdOf 0x03000000 (leN 0 8 ++ leN 48 2 ++ leN 3 2 ++ leN 0 2 ++ leN 48 2)) legsUp = true ∧
    (Tbl.get? legsUp.audio.buses (busOf legsUp 0 0)).isSome = true := by decide +kernel

/-- Leg 2 ACTIVE in class 0 with a frame due and an egress template; a waiting set on bus 0. -/
def voiceUp : State := { legsUp with
  confs := [(0, { members := [2], classes := [(0, { bus := 0, codec := 0, rate := 12, frame := 40, channels := 1, start := 960 })] })]
  audio.legs := [(2, { cls := some 0, phase := .talker })]
  audio.jitter := [(2, { phase := .playing, pkts := [{ seq := 5, ts := 960 }], nextTs := 960 })]
  audio.buses := [(0, { conf := 0, num := 0, shadows := [{ set := {}, at_ := some 1, rs := 0, tag := 0 }] })]
  pkt.flows := [(7, { owner := 0x02000002, bytes := [4] ++ List.replicate 7 0 ++ [0xFF] ++ List.replicate 23 0 })] }

theorem test_voice_hyp :
    nowBlock voiceUp = 0 ∧ ((Tbl.get? voiceUp.audio.buses 0).map fun b => b.shadows.length) = some 1 ∧
    ((Tbl.get? voiceUp.legs 2).map fun l => (l.state, l.coded, bit l.flags 3)) = some (.active, true, false) ∧
    (jitOf voiceUp 2).phase = .playing ∧ (jitOf voiceUp 2).released = [] ∧ dtxGap (jitOf voiceUp 2) = false ∧
    ((jitOf voiceUp 2).pkts.find? (fun q => q.ts == (jitOf voiceUp 2).nextTs)).isSome = true ∧
    (jitOf { voiceUp with audio.jitter := [(2, { phase := .playing, released := [{ seq := 5, ts := 960 }] })] } 2).released ≠ [] ∧
    (Tbl.get? (confOf voiceUp 0).classes 0).isSome = true ∧ classUsers voiceUp 0 0 ≠ [] ∧ (mixOf voiceUp 2).phase = .talker ∧
    (egressOf voiceUp 2 0xFF).isSome = true := by decide +kernel

/-- Port 0 runs as a slave, 1 waits to start, 2 is IDLE, 3 is ARMED, 4 holds, 5 relocks and stops, 7 relocks after its start. -/
def aspUp : State := { up with
  asp.ports := [ (0, { phase := .running, lines := 1, slots := 2, slotBits := 32, sampleBits := 24, rate := 48000, lockRate := 48000000, started := true })
               , (1, { phase := .idle, mode := 1, lines := 2, slots := 8, slotBits := 16, sampleBits := 16, rate := 48000, startAt := some 2 })
               , (2, { phase := .idle, mode := 1, lines := 4, slots := 32, slotBits := 32, sampleBits := 24, rate := 48000 })
               , (3, { phase := .armed, mode := 1, lines := 1, slots := 2, slotBits := 32, sampleBits := 24, rate := 48000 })
               , (4, { phase := .hold, lines := 1, slots := 2, slotBits := 32, sampleBits := 24, rate := 48000, lockRate := 48000000
                       started := true, periods := List.replicate 16 20833333, pins := [(3, (0, 1, 0))] })
               , (5, { phase := .relock, rate := 48000, lockRate := 48000000, started := true, stopping := some (0, 3, 0) })
               , (7, { phase := .relock, rate := 48000, lockRate := 48000000, started := true, starter := some (0, 4) })]
  asp.arm := some { ports := 8, source := 1, edge := 0, rs := 0, tag := 2 } }

/-- An ASP_CONFIG block: master, TDM, 4 lines of 32 slots of 16 bits, 48 kHz. -/
def aspBlock : List Byte := [1, 1, 4, 32, 16, 16, 0, 0] ++ leN 48000 4 ++ [1, 0] ++ leN 0 2

theorem test_asp_cmds_hyp :
    runsB 0x0401 aspConfigPlan (cmdOf 0x04000006 aspBlock) aspUp = true ∧
    runsB 0x0401 aspConfigPlan (cmdOf 0x04000002 aspBlock) aspUp = true ∧
    runsB 0x0402 aspStartPlan (cmdOf 0x04000002 (leN 0 8)) aspUp = true ∧
    runsB 0x0403 aspStopPlan (cmdOf 0x04000003 (leN 0 8)) aspUp = true ∧ (portAt aspUp 3).phase = .armed ∧
    runsB 0x0403 aspStopPlan (cmdOf 0x04000000 (leN 0 8)) aspUp = true ∧ (portAt aspUp 0).phase ≠ .armed ∧
    runsB 0x0404 aspMaskPlan (cmdOf 0x04000000 (leN 1 8 ++ leN 3 16)) aspUp = true ∧
    runsB 0x0405 aspArmPlan (cmdOf devH ([4, 1, 0, 0] ++ leN 0 12)) { aspUp with asp.arm := none } = true ∧
    runsB 0x0405 aspArmPlan (cmdOf devH ([4, 4, 0, 0] ++ leN 0 4 ++ leN 1000000000 8)) { aspUp with asp.arm := none } = true := by decide +kernel

theorem test_asp_events_hyp :
    (portAt aspUp 1).startAt = some 2 ∧
    ((portAt aspUp 7).phase = .relock ∧ (portAt aspUp 7).starter = some (0, 4)) ∧
    (portAt aspUp 5).stopping = some (0, 3, 0) ∧
    ((portAt aspUp 0).phase = .running ∧ isGlitch (portAt aspUp 0) (framePeriod (portAt aspUp 0) { port := 0, period := 20833333 }) = false) ∧
    ((portAt aspUp 0).mode ≠ 1 ∧ (portAt aspUp 0).started = true) ∧
    ((portAt aspUp 4).phase = .hold ∧ (portAt aspUp 4).faded = false) ∧
    (stableClock (portAt aspUp 4) = true ∧ (nearRate (measRate (portAt aspUp 4))).isSome = true) ∧
    ((portAt aspUp 7).stopping = none ∧ (portAt aspUp 7).started = true) ∧
    (pinDriven (portAt aspUp 1) 0 = true ∧ Tbl.get? (portAt aspUp 1).pins 0 = none) ∧
    Tbl.get? (portAt aspUp 4).pins 3 = some (0, 1, 0) ∧
    (aspUp.asp.arm.map fun a => (a.source, a.edge, a.start)) = some (1, 0, none) := by decide +kernel

end Sys2Proof.Machine
end

section
/-! How a command row goes: it is held, refused, answered as a dry run, or it commits (R58, R59, R62). -/

namespace Sys2Proof.Machine

/-- Settles O1: `step` on a non-empty queue is its second arm. -/
theorem stepTakesTheFrontCommand : Obligations.StepTakesTheFrontCommand := by
  intro c rest s hq
  unfold step
  rw [hq]

/-! ### The start of a command -/

theorem begunAt_device (op : Nat) (plan : Cmd → State → Plan) (c : Cmd) (s : State) (e : OutCmd) :
    (begunAt op plan c s e).device = s.device :=
  (startedAs_device ..).trans (fetchedFor_device ..)

/-- An answer from the state at which a command starts leaves the device as it was before the row. -/
theorem same_finishEntry_begunAt (op : Nat) (plan : Cmd → State → Plan) (c : Cmd) (s : State) (e : OutCmd)
    (st d p : Nat) (r : List Byte) : Same s (finishEntry e st d p r (begunAt op plan c s e)) :=
  (finishEntry_device ..).trans (begunAt_device ..)

/-- A row whose command runs now is answered as its plan says. -/
theorem exec_of_reply {i : Instr} {op : Nat} {plan : Cmd → State → Plan} {c : Cmd} {s u : State} {e : OutCmd} {st d p : Nat} {r : List Byte}
    (hrow : exec i s = .next (hostCmd op plan c s)) (hr : RunsNow op plan c s e) (hd : doneOf op plan c s e = .reply u st d p r) :
    exec i s = .next (finishEntry e st d p r u) := by
  rw [hrow, hostCmd_runs hr, hd]
  rfl

/-- A check that fails is the answer (R58). -/
theorem hostCmd_refused {op : Nat} {plan : Cmd → State → Plan} {c : Cmd} {s : State} {e : OutCmd} {f : Fail}
    (h : ComesUp op c s e) (hf : checksOf op plan c s e = some f) :
    hostCmd op plan c s = finishEntry e f.err.status f.err.detail 0 f.result (begunAt op plan c s e) := by
  rw [hostCmd_comesUp h]
  unfold runPlan
  extract_lets s1
  have hc : checkAll (plan c (tick 1 (fetchedFor op c s))) e s1 = some f := hf
  rw [hc]
  rfl

/-- What a dry run answers from the state at which its command starts (R62). -/
def Done.dryAnswer (e : OutCmd) (lacks : Bool) (start : State) : Done → State
  | .reply _ status detail progress result =>
    finishEntry e status (if status < 0x100 then b2n lacks else detail) progress result start
  | .defer _ => finishEntry e St.OK (b2n lacks) 0 [] start

theorem hostCmd_dryRun {op : Nat} {plan : Cmd → State → Plan} {c : Cmd} {s : State} {e : OutCmd}
    (h : ComesUp op c s e) (hd : Cmd.dryRun e.cmd = true) (hc : checksOf op plan c s e = none) :
    hostCmd op plan c s = (doneOf op plan c s e).dryAnswer e
      (decide (privOf (begunAt op plan c s e) e.cmd < (plan c (tick 1 (fetchedFor op c s))).priv)) (begunAt op plan c s e) := by
  rw [hostCmd_comesUp h]
  unfold runPlan
  extract_lets s1 lacks
  have hn : checkAll (plan c (tick 1 (fetchedFor op c s))) e s1 = none := hc
  rw [hn]
  dsimp only
  rw [if_pos hd]
  show _ = Done.dryAnswer e lacks s1 ((plan c (tick 1 (fetchedFor op c s))).run s1)
  cases (plan c (tick 1 (fetchedFor op c s))).run s1 with
  | reply s' st d p r => rfl
  | defer s' => rfl

theorem Done.dryAnswer_device (e : OutCmd) (lacks : Bool) (start : State) (d : Done) :
    (d.dryAnswer e lacks start).device = start.device := by
  cases d with
  | reply s' st de p r => exact finishEntry_device ..
  | defer s' => exact finishEntry_device ..

/-- Settles O5: the refusal is `hostCmd_refused`, and an answer is host bookkeeping. -/
theorem aRefusedCommandChangesNothing : Obligations.ARefusedCommandChangesNothing := by
  intro op plan c s e f h hf
  have hr := hostCmd_refused (plan := plan) h hf
  refine ⟨hr, ?_⟩
  rw [hr]
  exact same_finishEntry_begunAt ..

/-- Settles O7: refused or not, a dry run only answers from the state at which it starts. -/
theorem aDryRunChangesNothing : Obligations.ADryRunChangesNothing := by
  intro op plan c s e h hd
  constructor
  · cases hc : checksOf op plan c s e with
    | some f =>
      rw [hostCmd_refused h hc]
      exact same_finishEntry_begunAt ..
    | none =>
      rw [hostCmd_dryRun h hd hc]
      exact (Done.dryAnswer_device ..).trans (begunAt_device ..)
  · intro t status detail progress result hc hdone hst
    rw [hostCmd_dryRun h hd hc, hdone]
    intro start lacks
    show finishEntry e status (if status < 0x100 then b2n (decide lacks) else detail) progress result start = _
    rw [if_pos hst]
    simp only [b2n, decide_eq_true_eq]

/-! ### Held commands (R59) -/

theorem hostCmd_held {op : Nat} (plan : Cmd → State → Plan) {c : Cmd} {s : State} {e : OutCmd}
    (hq : queuedEntry op c (fetchedFor op c s) = some e) (hh : heldBack e (fetchedFor op c s) = true) :
    hostCmd op plan c s = fetchedFor op c s := by
  unfold hostCmd
  extract_lets s1
  have hs : s1 = fetchedFor op c s := rfl
  clear_value s1
  subst hs
  rw [hq]
  dsimp only
  rw [if_pos hh]

theorem ignoresOrder_eq_false_iff (op : Nat) : ignoresOrder op = false ↔ op ≠ 0x0103 ∧ op ≠ 0x0104 := by
  simp [ignoresOrder]

/-- The earlier commands of a command's ring set that have not completed. -/
def earlierOf (e : OutCmd) (s : State) : List OutCmd :=
  s.host.cmds.filter (fun x => x.cmd.rs == e.cmd.rs && decide (x.seq < e.seq))

theorem mem_earlierOf (e x : OutCmd) (s : State) :
    x ∈ earlierOf e s ↔ x ∈ s.host.cmds ∧ x.cmd.rs = e.cmd.rs ∧ x.seq < e.seq := by
  simp [earlierOf]

theorem heldBack_iff_earlier (e : OutCmd) (s : State) : heldBack e s = true ↔
    ignoresOrder e.opcode = false ∧ ∃ x ∈ earlierOf e s,
      Cmd.ordered e.cmd = true ∨ Cmd.ordered x.cmd = true ∨ (x.cmd.handle = e.cmd.handle ∧ x.phase = .queued) := by
  have hne : (earlierOf e s != []) = true ↔ ∃ x, x ∈ earlierOf e s := by
    rw [bne_iff_ne, ne_eq, List.eq_nil_iff_forall_not_mem, not_forall_not]
  unfold heldBack
  extract_lets earlier
  change (earlier != []) = true ↔ ∃ x, x ∈ earlier at hne
  change _ ↔ _ ∧ ∃ x ∈ earlier, _
  simp only [Bool.and_eq_true, Bool.or_eq_true, Bool.not_eq_true', hne, List.any_eq_true, beq_iff_eq]
  grind

/-- Settles O8: a held command's row stops after the fetch, and `heldBack` spells R59. -/
theorem aHeldCommandWaits : Obligations.AHeldCommandWaits := by
  refine ⟨fun op plan c s e hq hh => hostCmd_held plan hq hh, fun e s => ?_⟩
  rw [heldBack_iff_earlier, ignoresOrder_eq_false_iff]
  simp only [mem_earlierOf, and_assoc]

/-! ### The order of the checks (R58, R409) -/

theorem checkOpcode_eq (p : Plan) (c : Cmd) (s : State) : checkOpcode p c s =
    if c.version ≠ 3 then some ⟨St.BAD_OPCODE, 1⟩
    else if s.boot.safeHold = true ∧ p.safe = false then some ⟨St.SAFE_HOLD, 0⟩ else none := by
  simp [checkOpcode]

theorem checkPriv_eq (p : Plan) (c : Cmd) (s : State) : checkPriv p c s =
    if Cmd.dryRun c = false ∧ privOf s c < p.priv then some ⟨St.NOT_PERMITTED, 1⟩ else none := by
  unfold checkPriv
  by_cases hd : Cmd.dryRun c = true
  · simp [hd]
  · by_cases hp : p.priv ≤ privOf s c
    · simp [hp]
    · simp [hd, hp]

/-- From the handle on, the first of the checks that fails decides. -/
theorem checkRest_eq (p : Plan) (e : OutCmd) (s : State) : checkRest p e s =
    if p.handleOk = false then some ⟨⟨St.BAD_HANDLE, 0⟩, []⟩
    else (leaseCheck s (Cmd.port e.cmd) e.cmd.leaseId p.touches <|> othersLease s (Cmd.port e.cmd) p.claims
        <|> p.leaseErr.map (fun x => ⟨x, []⟩))
      <|> (checkRetained p e.cmd s <|> p.state).map (fun x => ⟨x, []⟩) <|> (checkHeader p e s).map (fun x => ⟨x, []⟩)
      <|> p.param.map (fun x => ⟨x, []⟩) <|> p.res.map (fun x => ⟨x, []⟩) := by
  unfold checkRest
  generalize (leaseCheck s (Cmd.port e.cmd) e.cmd.leaseId p.touches <|> othersLease s (Cmd.port e.cmd) p.claims
        <|> p.leaseErr.map (fun x => (⟨x, []⟩ : Fail))) = lease
  generalize (checkRetained p e.cmd s <|> p.state) = state
  cases p.handleOk with
  | false => rfl
  | true =>
    cases lease with
    | some f => rfl
    | none =>
      cases state with
      | some x => rfl
      | none =>
        cases checkHeader p e s with
        | some x => rfl
        | none =>
          cases p.param with
          | some x => rfl
          | none => rfl

/-- Settles O6: version, SAFE_HOLD and privilege one by one, the rest by `checkRest_eq`. -/
theorem checksRunInTheOrderOfR58 : Obligations.ChecksRunInTheOrderOfR58 := by
  intro p e s hdt lease state
  unfold checkAll
  rw [checkOpcode_eq, checkPriv_eq, hdt, if_neg Bool.false_ne_true, checkRest_eq]
  by_cases hv : e.cmd.version ≠ 3
  · rw [if_pos hv, if_pos hv]
  · rw [if_neg hv, if_neg hv]
    by_cases hs : s.boot.safeHold = true ∧ p.safe = false
    · rw [if_pos hs, if_pos hs]
    · rw [if_neg hs, if_neg hs]
      by_cases hp : Cmd.dryRun e.cmd = false ∧ privOf s e.cmd < p.priv
      · rw [if_pos hp, if_pos hp]
      · rw [if_neg hp, if_neg hp]

/-! ### The answer is bookkeeping (R55, R73) -/

/-- The host interface as an answer leaves it: ports, leases, the count of fetched commands and the round robin. -/
def State.charter (s : State) : HostIf := { s.desk with cmds := [], aborts := [] }

theorem charter_of_desk {s t : State} (h : t.desk = s.desk) : t.charter = s.charter := by
  unfold State.charter
  rw [h]

theorem leases_of_charter {s t : State} (h : t.charter = s.charter) : t.host.leases = s.host.leases :=
  show t.charter.leases = s.charter.leases from h ▸ rfl

theorem ports_of_charter {s t : State} (h : t.charter = s.charter) : t.host.ports = s.host.ports :=
  show t.charter.ports = s.charter.ports from h ▸ rfl

theorem fetched_of_charter {s t : State} (h : t.charter = s.charter) : t.host.fetched = s.host.fetched :=
  show t.charter.fetched = s.charter.fetched from h ▸ rfl

theorem finishOne_desk (e : OutCmd) (st d p : Nat) (r : List Byte) (s : State) :
    (finishOne e st d p r s).desk = { s.desk with cmds := s.host.cmds.filter (fun x => x.seq != e.seq) } := by
  unfold finishOne
  extract_lets src s1 s2 s3
  have h3 : s3.desk = { s.desk with cmds := s.host.cmds.filter (fun x => x.seq != e.seq) } :=
    (modRing_desk ..).trans ((bump_desk ..).trans (settleDomains_desk ..))
  clear_value s3
  split
  · exact (sendReply_desk ..).trans h3
  · exact h3

theorem finishOne_charter (e : OutCmd) (st d p : Nat) (r : List Byte) (s : State) :
    (finishOne e st d p r s).charter = s.charter := by
  unfold State.charter
  rw [finishOne_desk]

theorem finishOne_aborts (e : OutCmd) (st d p : Nat) (r : List Byte) (s : State) :
    (finishOne e st d p r s).host.aborts = s.host.aborts := by
  show (finishOne e st d p r s).desk.aborts = s.desk.aborts
  rw [finishOne_desk]

theorem foldl_charter {α : Type} (g : State → α → State) (l : List α) (s : State)
    (h : ∀ s a, (g s a).charter = s.charter) : (l.foldl g s).charter = s.charter := by
  induction l generalizing s with
  | nil => rfl
  | cons a l ih => rw [List.foldl_cons, ih, h]

theorem finishChain_charter (n : Nat) (e : OutCmd) (st d p : Nat) (r : List Byte) (s : State) :
    (finishChain n e st d p r s).charter = s.charter := by
  induction n generalizing e st d p r s with
  | zero => exact finishOne_charter ..
  | succ n ih =>
    unfold finishChain
    refine (foldl_charter _ _ _ (fun s a => ?_)).trans (finishOne_charter ..)
    split
    · exact ih ..
    · rfl

/-- An answer leaves ports, leases and the count of fetched commands. -/
theorem finishEntry_charter (e : OutCmd) (st d p : Nat) (r : List Byte) (s : State) :
    (finishEntry e st d p r s).charter = s.charter :=
  finishChain_charter ..

/-- Where no DEV_ABORT waits for the command, its answer is one completion. -/
theorem finishEntry_of_no_abort {e : OutCmd} {s : State} (st d p : Nat) (r : List Byte)
    (h : ∀ a ∈ s.host.aborts, a.1 ≠ e.seq) : finishEntry e st d p r s = finishOne e st d p r s := by
  unfold finishEntry
  cases hn : s.host.aborts.length with
  | zero => rfl
  | succ n =>
    unfold finishChain
    extract_lets t mine
    have ha : t.host.aborts = s.host.aborts := finishOne_aborts ..
    have hmine : mine = [] := by
      unfold mine
      rw [ha, List.filter_eq_nil_iff]
      exact fun a m => by simpa using h a m
    have hkeep : t.host.aborts.filter (fun a => a.1 != e.seq) = t.host.aborts := by
      rw [ha, List.filter_eq_self]
      exact fun a m => by simpa using h a m
    rw [hmine, hkeep]
    rfl

/-- Settles O13: the device by `finishEntry_device`, the host interface by `finishEntry_charter`. -/
theorem answeringChangesOnlyBookkeeping : Obligations.AnsweringChangesOnlyBookkeeping := by
  intro e status detail progress result s t
  have hc : t.charter = s.charter := finishEntry_charter ..
  exact ⟨finishEntry_device .., leases_of_charter hc, ports_of_charter hc, fetched_of_charter hc, fun h => finishEntry_of_no_abort _ _ _ _ h⟩

end Sys2Proof.Machine
end

section
/-! Queries: each answers OK or OK_PARTIAL and leaves the state, but that it may take free values (R56). -/

namespace Sys2Proof.Machine

/-- The statuses of a query's answer. -/
def St.answered (status : Nat) : Prop := status = St.OK ∨ status = St.OK_PARTIAL

/-- The command only answers, from the state at which it started but for free values. -/
def Done.Answers (t : State) (d : Done) : Prop :=
  ∃ (n status progress : Nat) (result : List Byte), d = .reply { t with free := n } status 0 progress result ∧ St.answered status

theorem onlyAnswers_of_run {row : Cmd → Instr} {op : Nat} {plan : Cmd → State → Plan}
    (hrow : ∀ c s, exec (row c) s = .next (hostCmd op plan c s)) (h : ∀ c s t, ((plan c s).run t).Answers t) :
    OnlyAnswers row op plan := by
  intro c s e hr
  obtain ⟨n, status, progress, result, hd, hst⟩ := h c (tick 1 (fetchedFor op c s)) (begunAt op plan c s e)
  exact ⟨_, status, progress, result, rfl, hst, exec_of_reply (hrow c s) hr hd,
    (finishEntry_device ..).trans (begunAt_device op plan c s e)⟩

/-! ### The answers -/

theorem St.answered_OK : St.answered St.OK := .inl rfl

theorem itemsAnswer_answered (fixed : List Byte) (items : List (List Byte)) (start : Nat) :
    St.answered (itemsAnswer fixed items start).1 := by
  unfold itemsAnswer
  extract_lets r
  split
  · exact .inl rfl
  · exact .inr rfl

theorem recordAnswer_answered (b : List Byte) : St.answered (recordAnswer b).1 := .inl rfl

theorem answers_reply (t : State) {status : Nat} (progress : Nat) (result : List Byte) (h : St.answered status) :
    (Done.reply t status 0 progress result).Answers t :=
  ⟨t.free, status, progress, result, rfl, h⟩

theorem answers_okWith (t : State) (result : List Byte) : (Done.okWith t result).Answers t :=
  answers_reply t 1 result St.answered_OK

/-- A query that has taken one free value still only answers. -/
theorem answers_takeFree {t : State} {d : Done} (h : d.Answers (takeFree t).2) : d.Answers t := by
  obtain ⟨n, status, progress, result, hd, hst⟩ := h
  exact ⟨n, status, progress, result, hd, hst⟩

/-- A query built by `Plan.query` answers what its answer function says. -/
theorem answers_query (t : State) {op : Nat} {safe ok : Bool} {len : Nat} {param : Option Err} {answer : State → Nat × Nat × List Byte}
    (h : St.answered (answer t).1) : ((Plan.query op safe ok len param answer).run t).Answers t :=
  answers_reply t _ _ h

/-! ### The rows -/

theorem devInfoPlan_answers (c : Cmd) (s t : State) : ((devInfoPlan c s).run t).Answers t := answers_query t (recordAnswer_answered _)
theorem legQueryPlan_answers (c : Cmd) (s t : State) : ((legQueryPlan c s).run t).Answers t := answers_reply t _ _ (recordAnswer_answered _)
theorem cmpQueryPlan_answers (c : Cmd) (s t : State) : ((cmpQueryPlan c s).run t).Answers t := answers_reply t _ _ (recordAnswer_answered _)
theorem encQueryPlan_answers (c : Cmd) (s t : State) : ((encQueryPlan c s).run t).Answers t := answers_reply t _ _ (recordAnswer_answered _)
theorem fwdQueryPlan_answers (c : Cmd) (s t : State) : ((fwdQueryPlan c s).run t).Answers t := answers_reply t _ _ (recordAnswer_answered _)
theorem bweQueryPlan_answers (c : Cmd) (s t : State) : ((bweQueryPlan c s).run t).Answers t := answers_reply t _ _ (recordAnswer_answered _)
theorem portQueryPlan_answers (c : Cmd) (s t : State) : ((portQueryPlan c s).run t).Answers t := answers_reply t _ _ (recordAnswer_answered _)
theorem keyQueryPlan_answers (c : Cmd) (s t : State) : ((keyQueryPlan c s).run t).Answers t := answers_reply t _ _ (recordAnswer_answered _)
theorem hltQueryPlan_answers (c : Cmd) (s t : State) : ((hltQueryPlan c s).run t).Answers t := answers_query t (recordAnswer_answered _)
theorem hltMarginPlan_answers (c : Cmd) (s t : State) : ((hltMarginPlan c s).run t).Answers t := answers_query t (recordAnswer_answered _)
theorem hltSparePlan_answers (c : Cmd) (s t : State) : ((hltSparePlan c s).run t).Answers t := answers_query t (recordAnswer_answered _)
theorem fwQueryPlan_answers (c : Cmd) (s t : State) : ((fwQueryPlan c s).run t).Answers t := answers_reply t _ _ (recordAnswer_answered _)
theorem flueQueryPlan_answers (c : Cmd) (s t : State) : ((flueQueryPlan c s).run t).Answers t := answers_reply t _ _ (recordAnswer_answered _)
theorem confQueryPlan_answers (c : Cmd) (s t : State) : ((confQueryPlan c s).run t).Answers t := answers_query t (itemsAnswer_answered _ _ _)
theorem aspQueryPlan_answers (c : Cmd) (s t : State) : ((aspQueryPlan c s).run t).Answers t := answers_query t (itemsAnswer_answered _ _ _)
theorem pwrQueryPlan_answers (c : Cmd) (s t : State) : ((pwrQueryPlan c s).run t).Answers t := answers_query t (itemsAnswer_answered _ _ _)

theorem mixQueryPlan_answers (c : Cmd) (s t : State) : ((mixQueryPlan c s).run t).Answers t := by
  refine answers_query t ?_
  split
  · exact recordAnswer_answered _
  · exact itemsAnswer_answered _ _ _

theorem dspQueryPlan_answers (c : Cmd) (s t : State) : ((dspQueryPlan c s).run t).Answers t := by
  refine answers_query t ?_
  split
  · exact itemsAnswer_answered _ _ _
  · exact recordAnswer_answered _

theorem flowQueryPlan_answers (c : Cmd) (s t : State) : ((flowQueryPlan c s).run t).Answers t := by
  refine answers_query t ?_
  split
  · exact recordAnswer_answered _
  · exact itemsAnswer_answered _ _ _

theorem staQueryPlan_answers (c : Cmd) (s t : State) : ((staQueryPlan c s).run t).Answers t := by
  refine answers_query t ?_
  split
  · exact itemsAnswer_answered _ _ _
  · exact recordAnswer_answered _

theorem otpReadPlan_answers (c : Cmd) (s t : State) : ((otpReadPlan c s).run t).Answers t := by
  refine answers_query t ?_
  split
  · exact recordAnswer_answered _
  · exact recordAnswer_answered _

theorem dramQueryPlan_answers (c : Cmd) (s t : State) : ((dramQueryPlan c s).run t).Answers t := by
  refine answers_reply t _ _ ?_
  split
  · exact recordAnswer_answered _
  · exact recordAnswer_answered _

theorem queryProgressPlan_answers (c : Cmd) (s t : State) : ((queryProgressPlan c s).run t).Answers t := by
  refine answers_query t ?_
  split
  · exact recordAnswer_answered _
  · split
    · exact recordAnswer_answered _
    · exact recordAnswer_answered _

theorem echoPlan_answers (c : Cmd) (s t : State) : ((echoPlan c s).run t).Answers t :=
  answers_reply t _ _ (itemsAnswer_answered _ _ _)

theorem decQueryPlan_answers (c : Cmd) (s t : State) : ((decQueryPlan c s).run t).Answers t :=
  answers_takeFree (answers_okWith _ _)

theorem radioQueryPlan_answers (c : Cmd) (s t : State) : ((radioQueryPlan c s).run t).Answers t := by
  unfold radioQueryPlan
  extract_lets r
  dsimp only
  split
  · exact answers_reply t _ _ St.answered_OK
  · exact answers_takeFree (answers_reply _ _ _ St.answered_OK)

theorem timeQueryPlan_answers (c : Cmd) (s t : State) : ((timeQueryPlan c s).run t).Answers t := by
  unfold timeQueryPlan
  dsimp only
  split
  · exact answers_takeFree (answers_okWith _ _)
  · exact answers_okWith _ _

theorem capQueryPlan_answers (c : Cmd) (s t : State) : ((capQueryPlan c s).run t).Answers t := by
  unfold capQueryPlan
  extract_lets i
  dsimp only
  split
  · exact answers_reply t _ _ St.answered_OK
  · exact answers_takeFree (answers_reply _ _ _ (itemsAnswer_answered _ _ _))

/-- A walk that takes one free value after another leaves the rest of the state. -/
theorem foldl_takeFree {α β : Type} (g : β → State → α → β) (l : List α) (b : β) (s : State) :
    ∃ n, (l.foldl (fun a x => (g a.1 a.2 x, (takeFree a.2).2)) (b, s)).2 = { s with free := n } := by
  induction l generalizing b s with
  | nil => exact ⟨s.free, rfl⟩
  | cons x l ih =>
    obtain ⟨n, hn⟩ := ih (g b s x) (takeFree s).2
    exact ⟨n, hn⟩

theorem cipQueryPlan_answers (c : Cmd) (s t : State) : ((cipQueryPlan c s).run t).Answers t := by
  obtain ⟨n, hn⟩ := foldl_takeFree (fun b a p => b ++ leN (engineWord a 9 p) 4 ++ leN ((takeFree a).1 % 65536) 4)
    (List.range 50) (leN (cipStatus t) 4) t
  exact ⟨n, St.OK, 1, _, congrArg (Done.reply · St.OK 0 1 _) hn, St.answered_OK⟩

/-- Settles O14: each row's answer by `onlyAnswers_of_run`. -/
theorem queriesOnlyAnswerA : Obligations.QueriesOnlyAnswerA :=
  ⟨onlyAnswers_of_run (fun _ _ => rfl) devInfoPlan_answers,
   onlyAnswers_of_run (fun _ _ => rfl) queryProgressPlan_answers,
   onlyAnswers_of_run (fun _ _ => rfl) echoPlan_answers,
   onlyAnswers_of_run (fun _ _ => rfl) legQueryPlan_answers,
   onlyAnswers_of_run (fun _ _ => rfl) confQueryPlan_answers,
   onlyAnswers_of_run (fun _ _ => rfl) mixQueryPlan_answers,
   onlyAnswers_of_run (fun _ _ => rfl) aspQueryPlan_answers,
   onlyAnswers_of_run (fun _ _ => rfl) dspQueryPlan_answers,
   onlyAnswers_of_run (fun _ _ => rfl) decQueryPlan_answers,
   onlyAnswers_of_run (fun _ _ => rfl) cmpQueryPlan_answers,
   onlyAnswers_of_run (fun _ _ => rfl) encQueryPlan_answers,
   onlyAnswers_of_run (fun _ _ => rfl) fwdQueryPlan_answers,
   onlyAnswers_of_run (fun _ _ => rfl) bweQueryPlan_answers,
   onlyAnswers_of_run (fun _ _ => rfl) portQueryPlan_answers,
   onlyAnswers_of_run (fun _ _ => rfl) flowQueryPlan_answers⟩

/-- Settles O15: each row's answer by `onlyAnswers_of_run`. -/
theorem queriesOnlyAnswerB : Obligations.QueriesOnlyAnswerB :=
  ⟨onlyAnswers_of_run (fun _ _ => rfl) keyQueryPlan_answers,
   onlyAnswers_of_run (fun _ _ => rfl) cipQueryPlan_answers,
   onlyAnswers_of_run (fun _ _ => rfl) staQueryPlan_answers,
   onlyAnswers_of_run (fun _ _ => rfl) radioQueryPlan_answers,
   onlyAnswers_of_run (fun _ _ => rfl) timeQueryPlan_answers,
   onlyAnswers_of_run (fun _ _ => rfl) capQueryPlan_answers,
   onlyAnswers_of_run (fun _ _ => rfl) pwrQueryPlan_answers,
   onlyAnswers_of_run (fun _ _ => rfl) hltQueryPlan_answers,
   onlyAnswers_of_run (fun _ _ => rfl) hltMarginPlan_answers,
   onlyAnswers_of_run (fun _ _ => rfl) hltSparePlan_answers,
   onlyAnswers_of_run (fun _ _ => rfl) fwQueryPlan_answers,
   onlyAnswers_of_run (fun _ _ => rfl) otpReadPlan_answers,
   onlyAnswers_of_run (fun _ _ => rfl) dramQueryPlan_answers,
   onlyAnswers_of_run (fun _ _ => rfl) flueQueryPlan_answers⟩

/-! ### DEV_ECHO -/

/-- As many one-byte items as there is room for are all taken. -/
theorem takeItems_bytes (l : List Byte) (i room : Nat) (h : l.length ≤ room) :
    takeItems (l.map fun b => [b]) i room = (l, i + l.length, true) := by
  induction l generalizing i room with
  | nil => rfl
  | cons b l ih =>
    rw [List.length_cons] at h
    have hb : ([b] : List Byte).length ≤ room := (Nat.le_add_left 1 _).trans h
    rw [List.map_cons, takeItems, if_pos hb, ih (i + 1) (room - ([b] : List Byte).length) (Nat.le_sub_of_add_le h)]
    simp [Nat.add_assoc, Nat.add_comm 1]

theorem itemsAnswer_bytes (l : List Byte) (h : l.length ≤ 4056) :
    itemsAnswer [] (l.map fun b => [b]) 0 = (St.OK, l.length, l) := by
  unfold itemsAnswer
  rw [List.drop_zero, takeItems_bytes l 0 (4056 - ([] : List Byte).length) h]
  simp

/-- Settles O16: every parameter byte fits, by `itemsAnswer_bytes`. -/
theorem echoReturnsItsParameters : Obligations.EchoReturnsItsParameters := by
  intro c s e hr hlen
  have hd : doneOf 0x010C echoPlan c s e = .reply (begunAt 0x010C echoPlan c s e) St.OK 0 c.params.length c.params := by
    unfold doneOf echoPlan
    dsimp only
    rw [itemsAnswer_bytes c.params hlen]
    rfl
  exact exec_of_reply rfl hr hd

end Sys2Proof.Machine
end

section
/-! Ring sets under events and replies: what raising a cause, handing over an event and handing over a reply leave of
every ring set, and the cause register of a ring set (R49, R51, R55, R76, R412). -/

namespace Sys2Proof.Machine

/-! ### Ring sets and registers after a write -/

theorem ringOf_modRing (rs : Nat) (f : RingSet → RingSet) (s : State) (q : Nat) :
    ringOf (modRing rs f s) q = if q = rs then f (ringOf s q) else ringOf s q := by
  unfold ringOf modRing Tbl.upd Tbl.getD
  dsimp only
  by_cases h : q = rs
  · subst h
    rw [if_pos rfl, Tbl.get?_put_same]
    rfl
  · rw [if_neg h, Tbl.get?_put_other _ _ h]

theorem ringOf_modRing_same (rs : Nat) (f : RingSet → RingSet) (s : State) : ringOf (modRing rs f s) rs = f (ringOf s rs) := by
  rw [ringOf_modRing, if_pos rfl]

theorem ringOf_modRing_other {rs q : Nat} (f : RingSet → RingSet) (s : State) (h : q ≠ rs) :
    ringOf (modRing rs f s) q = ringOf s q := by
  rw [ringOf_modRing, if_neg h]

@[simp] theorem ringOf_mpWrite (o : Nat) (b : List Byte) (s : State) (q : Nat) : ringOf (mpWrite o b s) q = ringOf s q := rfl
@[simp] theorem ringOf_setRg (k v : Nat) (s : State) (q : Nat) : ringOf (setRg k v s) q = ringOf s q := rfl
@[simp] theorem ringOf_bump (k : Nat) (s : State) (q : Nat) : ringOf (bump k s) q = ringOf s q := rfl
@[simp] theorem ringOf_emit (o : Output) (s : State) (q : Nat) : ringOf (emit o s) q = ringOf s q := rfl

/-- What a change of a ring set leaves of it, it leaves of every ring set. -/
theorem modRing_frame {α : Type} (g : RingSet → α) (rs : Nat) (f : RingSet → RingSet) (s : State) (q : Nat)
    (h : ∀ r, g (f r) = g r) : g (ringOf (modRing rs f s) q) = g (ringOf s q) := by
  rw [ringOf_modRing]
  split
  · exact h _
  · rfl

theorem rgRaw_setRg_same (k v : Nat) (s : State) : rgRaw (setRg k v s) k = v % 2 ^ 64 := by
  unfold rgRaw setRg
  dsimp only
  rw [Tbl.get?_put_same]
  exact BitVec.toNat_ofNat ..

theorem rgRaw_setRg_other {k x : Nat} (v : Nat) (s : State) (h : x ≠ k) : rgRaw (setRg k v s) x = rgRaw s x := by
  unfold rgRaw setRg
  dsimp only
  rw [Tbl.get?_put_other _ _ h]

theorem rgRaw_of_regs {s t : State} (h : t.regs = s.regs) (k : Nat) : rgRaw t k = rgRaw s k := by
  unfold rgRaw
  rw [h]

/-! ### Raising a cause (R51, R412) -/

/-- A ring set without its shadow block and its vectors' holdoffs, which raising a cause may change. -/
def RingSet.causeless (r : RingSet) : RingSet := { r with shadowAt := [], hold := [], owed := [] }

/-- The host interface without ring sets and the MP ring memory. -/
def State.offRings (s : State) : HostIf := { s.host with rings := [], mpRing := [] }

theorem fireVector_causeless (rs v : Nat) (s : State) (q : Nat) :
    (ringOf (fireVector rs v s) q).causeless = (ringOf s q).causeless := by
  unfold fireVector
  extract_lets m r s1
  have h1 : (ringOf s1 q).causeless = (ringOf s q).causeless := by
    unfold s1
    split
    · exact modRing_frame RingSet.causeless _ _ _ _ fun _ => by rfl
    · rfl
  clear_value s1
  split
  · exact modRing_frame RingSet.causeless _ _ _ _ fun _ => by rfl
  · split
    · exact h1
    · exact h1

theorem writeShadow_causeless (rs : Nat) (s : State) (q : Nat) :
    (ringOf (writeShadow rs s) q).causeless = (ringOf s q).causeless := by
  unfold writeShadow
  extract_lets r lost s1
  have h1 : (ringOf s1 q).causeless = (ringOf s q).causeless :=
    modRing_frame RingSet.causeless _ _ _ _ fun _ => by rfl
  clear_value s1
  split
  · rw [ringOf_mpWrite, h1]
  · exact h1

/-- Raising a cause leaves every ring set but for shadow block and holdoffs. -/
theorem raiseCause_causeless (rs v : Nat) (s : State) (q : Nat) :
    (ringOf (raiseCause rs v s) q).causeless = (ringOf s q).causeless := by
  unfold raiseCause
  extract_lets s1 key st s2
  have h1 : (ringOf s1 q).causeless = (ringOf s q).causeless := writeShadow_causeless ..
  have h2 : (ringOf s2 q).causeless = (ringOf s q).causeless := h1
  clear_value s1 s2
  split
  · exact h1
  · split
    · exact h2
    · exact (fireVector_causeless ..).trans h2

theorem fireVector_regs (rs v : Nat) (s : State) : (fireVector rs v s).regs = s.regs := by
  unfold fireVector
  extract_lets m r s1
  have h1 : s1.regs = s.regs := by
    unfold s1
    split
    · rfl
    · rfl
  clear_value s1
  split
  · rfl
  · split
    · exact h1
    · exact h1

theorem writeShadow_regs (rs : Nat) (s : State) : (writeShadow rs s).regs = s.regs := by
  unfold writeShadow
  extract_lets r lost s1
  split
  · rfl
  · rfl

theorem fireVector_offRings (rs v : Nat) (s : State) : (fireVector rs v s).offRings = s.offRings := by
  unfold fireVector
  extract_lets m r s1
  have h1 : s1.offRings = s.offRings := by
    unfold s1
    split
    · rfl
    · rfl
  clear_value s1
  split
  · rfl
  · split
    · exact h1
    · exact h1

theorem writeShadow_offRings (rs : Nat) (s : State) : (writeShadow rs s).offRings = s.offRings := by
  unfold writeShadow
  extract_lets r lost s1
  split
  · rfl
  · rfl

/-- Raising a cause leaves the host interface but for ring sets and the MP ring memory. -/
theorem raiseCause_offRings (rs v : Nat) (s : State) : (raiseCause rs v s).offRings = s.offRings := by
  unfold raiseCause
  extract_lets s1 key st s2
  have h1 : s1.offRings = s.offRings := writeShadow_offRings ..
  have h2 : s2.offRings = s.offRings := h1
  clear_value s1 s2
  split
  · exact h1
  · split
    · exact h2
    · exact (fireVector_offRings ..).trans h2

theorem bit_eq_true_iff (x n : Nat) : bit x n = true ↔ x / 2 ^ n % 2 = 1 := by
  simp [bit]

/-- Setting a clear cause bit of a 64-bit register leaves the four cause bits and sets its own. -/
theorem bit_setBit_true {x v w : Nat} (hv : v < 4) (hw : w < 4) (hx : ¬ bit x v = true) :
    bit (setBit x v true % 2 ^ 64) w = true ↔ w = v ∨ bit x w = true := by
  have hset : setBit x v true = x + 2 ^ v := by
    simp [setBit, hx]
  rw [hset]
  simp only [bit_eq_true_iff] at hx ⊢
  interval_cases v <;> interval_cases w <;> omega

/-- Cause `w` of a ring set is pending. -/
def causePending (s : State) (rs w : Nat) : Prop := bit (rgRaw s (R.HPI_RS_INT_STATUS + 0x30 * rs)) w = true

/-- Raising cause `v` leaves `v` and what was pending pending, and no other cause. -/
theorem raiseCause_pending {v w : Nat} (hv : v < 4) (hw : w < 4) (rs : Nat) (s : State) :
    causePending (raiseCause rs v s) rs w ↔ w = v ∨ causePending s rs w := by
  have hsame : ∀ t : State, t.regs = s.regs → (causePending t rs w ↔ causePending s rs w) := fun t ht => by
    unfold causePending
    rw [rgRaw_of_regs ht]
  have hshadow : (writeShadow rs s).regs = s.regs := writeShadow_regs ..
  unfold raiseCause
  extract_lets s1 key st s2
  have hst : st = rgRaw s key := rgRaw_of_regs hshadow _
  split
  case isTrue hp =>
    rw [hsame s1 hshadow]
    rw [hst] at hp
    exact ⟨.inr, fun h => h.elim (fun e => e ▸ hp) id⟩
  case isFalse hp =>
    have h2 : causePending s2 rs w ↔ w = v ∨ causePending s rs w := by
      unfold causePending
      rw [show rgRaw s2 (R.HPI_RS_INT_STATUS + 0x30 * rs) = setBit st v true % 2 ^ 64 from rgRaw_setRg_same ..,
        bit_setBit_true hv hw hp, hst]
    split
    · exact h2
    · have h3 : rgRaw (fireVector rs v s2) (R.HPI_RS_INT_STATUS + 0x30 * rs) = rgRaw s2 _ :=
        rgRaw_of_regs (fireVector_regs ..) _
      unfold causePending at h2 ⊢
      rw [h3, h2]

/-! ### Handing over an event (R57, R76) -/

/-- A ring set without what an event handed to it may change: its event packets and tail, the count of events lost,
and what raising a cause changes. -/
def RingSet.eventless (r : RingSet) : RingSet :=
  { r.causeless with events := [], evtTail := 0, lost := 0, lostAt := 0 }

theorem eventless_of_causeless {r q : RingSet} (h : r.causeless = q.causeless) : r.eventless = q.eventless := by
  unfold RingSet.eventless
  rw [h]

theorem kept_of_eventless {r q : RingSet} (h : r.eventless = q.eventless) : r.kept = q.kept :=
  show r.eventless.kept = q.eventless.kept by rw [h]

theorem putEvent_eventless (rs : Nat) (e : Event) (s : State) (q : Nat) :
    (ringOf (putEvent rs e s) q).eventless = (ringOf s q).eventless := by
  unfold putEvent
  extract_lets r s1
  have h1 : (ringOf s1 q).eventless = (ringOf s q).eventless := by
    unfold s1
    split
    · rw [ringOf_mpWrite]
    · rfl
  clear_value s1
  exact (eventless_of_causeless (raiseCause_causeless ..)).trans
    ((modRing_frame RingSet.eventless _ _ _ _ fun _ => by rfl).trans h1)

theorem loseEvent_eventless (rs : Nat) (s : State) (q : Nat) :
    (ringOf (loseEvent rs s) q).eventless = (ringOf s q).eventless :=
  modRing_frame RingSet.eventless _ _ _ _ fun _ => by rfl

theorem flushLost_eventless (rs : Nat) (s : State) (q : Nat) :
    (ringOf (flushLost rs s) q).eventless = (ringOf s q).eventless := by
  unfold flushLost
  extract_lets r
  split
  · rfl
  · exact (putEvent_eventless ..).trans (modRing_frame RingSet.eventless _ _ _ _ fun _ => by rfl)

theorem sendEvent_eventless (rs : Nat) (e : Event) (s : State) (q : Nat) :
    (ringOf (sendEvent rs e s) q).eventless = (ringOf s q).eventless := by
  unfold sendEvent
  split
  · rfl
  · extract_lets s1
    have h1 : (ringOf s1 q).eventless = (ringOf s q).eventless := flushLost_eventless ..
    clear_value s1
    split
    · exact (loseEvent_eventless ..).trans h1
    · exact (putEvent_eventless ..).trans h1

theorem sendAll_eventless (e : Event) (l : List Nat) (s : State) (q : Nat) :
    (ringOf (sendAll e l s) q).eventless = (ringOf s q).eventless := by
  induction l generalizing s with
  | nil => rfl
  | cons a l ih =>
    unfold sendAll
    rw [ih]
    split
    · exact sendEvent_eventless ..
    · rfl

/-- Raising an event leaves every ring set but for its event packets and vectors. -/
theorem raise_eventless (k : EvKind) (h : Word) (d : List Byte) (s : State) (q : Nat) :
    (ringOf (raise k h d s) q).eventless = (ringOf s q).eventless := by
  have hm : ringOf (markFatal k s) q = ringOf s q := by
    unfold markFatal
    split
    · rfl
    · rfl
  unfold raise
  extract_lets e s1
  have h1 : ringOf s1 q = ringOf s q := hm
  clear_value s1
  rw [← h1]
  split
  · exact sendAll_eventless ..
  · unfold logBoot
    split
    · rfl
    · rfl

theorem raiseUnless_eventless (m n : Nat) (k : EvKind) (h : Word) (d : List Byte) (s : State) (q : Nat) :
    (ringOf (raiseUnless m n k h d s) q).eventless = (ringOf s q).eventless := by
  unfold raiseUnless
  split
  · rfl
  · exact raise_eventless ..

theorem settleDomains_eventless (s : State) (q : Nat) :
    (ringOf (settleDomains s) q).eventless = (ringOf s q).eventless := by
  unfold settleDomains
  generalize [0, 1, 2, 3, 4, 5] = l
  induction l generalizing s with
  | nil => rfl
  | cons d l ih =>
    rw [List.foldl_cons, ih]
    dsimp only
    split
    · rfl
    · exact (raiseUnless_eventless ..).trans rfl

/-! ### Handing over a reply (R55): the kept statuses stay (R73) -/

theorem putPacket_kept (rs n : Nat) (p : Reply) (s : State) (q : Nat) :
    (ringOf (putPacket rs n p s) q).kept = (ringOf s q).kept := by
  unfold putPacket
  extract_lets r s1
  have h1 : (ringOf s1 q).kept = (ringOf s q).kept := by
    unfold s1
    split
    · rw [ringOf_mpWrite]
    · rfl
  clear_value s1
  exact (modRing_frame RingSet.kept _ _ _ _ fun _ => by rfl).trans h1

theorem raiseCause_kept (rs v : Nat) (s : State) (q : Nat) : (ringOf (raiseCause rs v s) q).kept = (ringOf s q).kept :=
  kept_of_eventless (eventless_of_causeless (raiseCause_causeless ..))

theorem putReply_kept (rs : Nat) (p : Reply) (s : State) (q : Nat) :
    (ringOf (putReply rs p s) q).kept = (ringOf s q).kept := by
  unfold putReply
  extract_lets n r s1
  have h1 : (ringOf s1 q).kept = (ringOf s q).kept := by
    unfold s1
    split
    · rfl
    · exact putPacket_kept ..
  clear_value s1
  exact (raiseCause_kept ..).trans ((putPacket_kept ..).trans h1)

theorem drainWaiting_kept (rs n : Nat) (s : State) (q : Nat) :
    (ringOf (drainWaiting rs n s) q).kept = (ringOf s q).kept := by
  induction n generalizing s with
  | zero => rfl
  | succ n ih =>
    unfold drainWaiting
    split
    · rfl
    · split
      · exact (ih _).trans ((putReply_kept ..).trans (modRing_frame RingSet.kept _ _ _ _ fun _ => by rfl))
      · rfl

theorem sendReply_kept (rs : Nat) (p : Reply) (s : State) (q : Nat) :
    (ringOf (sendReply rs p s) q).kept = (ringOf s q).kept := by
  unfold sendReply
  split
  · exact (drainWaiting_kept ..).trans (modRing_frame RingSet.kept _ _ _ _ fun _ => by rfl)
  · rfl

theorem settleDomains_kept (s : State) (q : Nat) : (ringOf (settleDomains s) q).kept = (ringOf s q).kept :=
  kept_of_eventless (settleDomains_eventless ..)

/-! ### Final statuses (R73) -/

/-- The final status that a completion keeps. -/
def OutCmd.final (e : OutCmd) (status detail progress : Nat) : DoneCmd :=
  ⟨e.cmd.tag, status, detail, progress, if status < 0x100 then progress else e.total⟩

/-- A completion puts its final status first among the 256 kept of its ring set. -/
theorem finishOne_kept (e : OutCmd) (st d p : Nat) (r : List Byte) (s : State) (q : Nat) :
    (ringOf (finishOne e st d p r s) q).kept =
      if q = e.cmd.rs then (e.final st d p :: (ringOf s q).kept).take 256 else (ringOf s q).kept := by
  unfold finishOne
  extract_lets src s1 s2 s3
  have h1 : (ringOf s1 q).kept = (ringOf s q).kept := settleDomains_kept ..
  clear_value s1
  have h3 : (ringOf s3 q).kept =
      if q = e.cmd.rs then (e.final st d p :: (ringOf s q).kept).take 256 else (ringOf s q).kept := by
    unfold s3 s2
    rw [ringOf_modRing, ringOf_bump, ← h1]
    split
    · rfl
    · rfl
  clear_value s3
  split
  · exact (sendReply_kept ..).trans h3
  · exact h3

/-- A tag that is neither outstanding nor kept fails the parameter check at offset 5. -/
theorem targetParam_unknown {c : Cmd} {s : State} (hrs : u8 c.params 0 ≤ 12)
    (hout : ∀ x ∈ s.host.cmds, x.cmd.rs = u8 c.params 0 → x.cmd.tag.toNat ≠ u32 c.params 4)
    (hkept : ∀ k ∈ (ringOf s (u8 c.params 0)).kept, k.tag.toNat ≠ u32 c.params 4) :
    targetParam s c = some (badParam 5) := by
  have h1 : outTarget s c = none := by
    simpa [outTarget, List.find?_eq_none] using hout
  have h2 : keptTarget s c = none := by
    simpa [keptTarget, List.find?_eq_none] using hkept
  unfold targetParam
  rw [h1, h2]
  simp [firstBad, hrs]

/-- Settles O19: `finishOne_kept` for the statuses, `targetParam_unknown` for the check. -/
theorem finalStatusesAreKept : Obligations.FinalStatusesAreKept := by
  constructor
  · intro e status detail progress result s t
    refine ⟨⟨if status < 0x100 then progress else e.total, ?_⟩, fun rs hrs => ?_⟩
    · exact (finishOne_kept ..).trans (if_pos rfl)
    · exact (finishOne_kept ..).trans (if_neg hrs)
  · intro c s hrs hout hkept
    have h := targetParam_unknown hrs hout hkept
    exact ⟨h, h⟩

end Sys2Proof.Machine
end

section
/-! The set-up of ring sets (R50): what an enable, a disable and the end of a drain leave. -/

namespace Sys2Proof.Machine

/-! ### The boot log (R418) -/

/-- Handing over an event leaves pending every cause that is pending. -/
theorem putEvent_pending {w : Nat} (hw : w < 4) (rs : Nat) (e : Event) (s : State) (h : causePending s rs w) :
    causePending (putEvent rs e s) rs w := by
  unfold putEvent
  extract_lets r s1
  have h1 : causePending s1 rs w := by
    unfold s1
    split
    · exact h
    · exact h
  clear_value s1
  exact (raiseCause_pending (by omega) hw ..).2 (.inr h1)

theorem foldl_putEvent_eventless (rs : Nat) (l : List Event) (s : State) (q : Nat) :
    (ringOf (l.foldl (fun s e => putEvent rs e s) s) q).eventless = (ringOf s q).eventless := by
  induction l generalizing s with
  | nil => rfl
  | cons e l ih => rw [List.foldl_cons, ih, putEvent_eventless]

theorem foldl_putEvent_pending {w : Nat} (hw : w < 4) (rs : Nat) (l : List Event) (s : State) (h : causePending s rs w) :
    causePending (l.foldl (fun s e => putEvent rs e s) s) rs w := by
  induction l generalizing s with
  | nil => exact h
  | cons e l ih => exact ih _ (putEvent_pending hw rs e s h)

/-- The delivery of the boot log leaves every ring set but for events, vectors and the note that it was delivered. -/
theorem deliverBootLog_eventless (rs : Nat) (s : State) (q : Nat) :
    ∃ b, (ringOf (deliverBootLog rs s) q).eventless = { (ringOf s q).eventless with logged := b } := by
  unfold deliverBootLog
  split
  · rw [foldl_putEvent_eventless, ringOf_modRing]
    split
    · exact ⟨true, rfl⟩
    · exact ⟨_, rfl⟩
  · exact ⟨_, rfl⟩

theorem deliverBootLog_pending {w : Nat} (hw : w < 4) (rs : Nat) (s : State) (h : causePending s rs w) :
    causePending (deliverBootLog rs s) rs w := by
  unfold deliverBootLog
  split
  · exact foldl_putEvent_pending hw rs _ _ h
  · exact h

/-- No event is delivered where the log was delivered before, where the set is not set 0 of its port, or where the log is empty. -/
theorem deliverBootLog_evtTail {rs : Nat} {s : State}
    (h : (ringOf s rs).logged = true ∨ rs % 4 ≠ 0 ∨ (s.host.bootLog = [] ∧ s.host.bootLost = 0)) :
    (ringOf (deliverBootLog rs s) rs).evtTail = (ringOf s rs).evtTail := by
  unfold deliverBootLog
  split
  case isFalse => rfl
  case isTrue hd =>
    obtain ⟨hlog, hlost⟩ : s.host.bootLog = [] ∧ s.host.bootLost = 0 := by
      rcases h with h | h | h
      · exact absurd h hd.2
      · exact absurd hd.1 h
      · exact h
    unfold bootLogTail
    rw [hlog, if_pos hlost]
    show (ringOf (modRing rs (fun r => { r with logged := true }) s) rs).evtTail = _
    rw [ringOf_modRing_same]

/-! ### Enable and disable (R50) -/

/-- A ring set just enabled: ENABLED, ERR clear, heads and tails zero. -/
def RingSet.Fresh (r : RingSet) : Prop :=
  r.phase = .enabled ∧ r.err = 0 ∧ r.sqHead = 0 ∧ r.sqTail = 0 ∧ r.rplHead = 0 ∧ r.rplTail = 0 ∧ r.evtHead = 0

theorem fresh_of_eventless {r q : RingSet} {b : Bool} (h : q.eventless = { r.eventless with logged := b }) (hr : r.Fresh) : q.Fresh := by
  have hq : q.eventless.Fresh := by
    rw [h]
    exact hr
  exact hq

theorem enableRing_ring (rs : Nat) (d : RingDesc) (s : State) :
    (ringOf (enableRing rs d s) rs).Fresh ∧ (ringOf (enableRing rs d s) rs).evtTail = 0 ∧
      (ringOf (enableRing rs d s) rs).logged = (ringOf s rs).logged := by
  unfold enableRing
  rw [ringOf_modRing_same]
  unfold defaultFilter
  split
  · exact ⟨⟨rfl, rfl, rfl, rfl, rfl, rfl, rfl⟩, rfl, rfl⟩
  · exact ⟨⟨rfl, rfl, rfl, rfl, rfl, rfl, rfl⟩, rfl, rfl⟩

/-- A field that raising a cause does not touch. -/
theorem raiseCause_field {α : Type} (g : RingSet → α) (hg : ∀ r, g r.causeless = g r) (rs v : Nat) (s : State) (q : Nat) :
    g (ringOf (raiseCause rs v s) q) = g (ringOf s q) := by
  rw [← hg, raiseCause_causeless, hg]

/-- A refused descriptor leaves phase, heads and tails, and raises the cause of vector 3. -/
theorem refuseDesc_ring {α : Type} (g : RingSet → α) (hg : ∀ r, g r.causeless = g r) (he : ∀ (r : RingSet) code, g { r with err := code } = g r)
    (rs code : Nat) (s : State) : g (ringOf (refuseDesc rs code s) rs) = g (ringOf s rs) := by
  unfold refuseDesc
  extract_lets s1
  have h1 : g (ringOf s1 rs) = g (ringOf s rs) := modRing_frame g _ _ _ _ fun r => by
    split
    · rfl
    · exact he r code
  clear_value s1
  rw [raiseCause_field g hg, ringOf_bump, h1]

theorem refuseDesc_pending (rs code : Nat) (s : State) : causePending (refuseDesc rs code s) rs 3 :=
  (raiseCause_pending (by decide) (by decide) ..).2 (.inl rfl)

/-- The state in which a set-up descriptor of port `p` has been fetched from `addr`. -/
def setupAt (p addr : Nat) (s : State) : State := modPort p (fun q => { q with setup := addr }) s

theorem ringOf_setupAt (p addr : Nat) (s : State) (q : Nat) : ringOf (setupAt p addr s) q = ringOf s q := rfl

theorem setup_taken {p : Nat} {s : State} (hp : p < 3) (hready : s.boot.ready = true) :
    ¬ (p ≠ p ∨ 3 ≤ p ∨ ¬ s.boot.ready = true) := by
  rintro (h | h | h)
  · exact h rfl
  · omega
  · exact h hready

section
variable {p addr : Nat} {d : RingDesc} {s : State} (hp : p < 3) (hready : s.boot.ready = true) (hset : d.set ≤ 3)
include hp hready hset

/-- A port's own descriptor of one of its four sets is taken. -/
theorem setupDescriptor_enable (hop : d.op = 1) (hok : descOk d = true) : setupDescriptor p p addr d s =
    if (ringOf s (4 * p + d.set)).phase ≠ .disabled then refuseDesc (4 * p + d.set) 9 (setupAt p addr s)
    else deliverBootLog (4 * p + d.set) (raiseCause (4 * p + d.set) 3 (enableRing (4 * p + d.set) d (setupAt p addr s))) := by
  unfold setupDescriptor
  rw [if_neg (setup_taken hp hready)]
  extract_lets s1 rs
  rw [if_neg (by omega), if_pos hop, if_neg (by simp [hok])]
  rfl

theorem setupDescriptor_disable (hop : d.op = 2) : setupDescriptor p p addr d s =
    raiseCause (4 * p + d.set) 3 (modRing (4 * p + d.set) (fun r =>
      if r.phase = .enabled ∨ r.phase = .error then { r with phase := .draining } else r) (setupAt p addr s)) := by
  unfold setupDescriptor
  rw [if_neg (setup_taken hp hready)]
  extract_lets s1 rs
  rw [if_neg (by omega), if_neg (by omega), if_pos hop]
  rfl

end

/-- An enable of a DISABLED set: fresh, and without events where no boot log is delivered. -/
theorem enable_fresh (rs : Nat) (d : RingDesc) (s : State) :
    let t := deliverBootLog rs (raiseCause rs 3 (enableRing rs d s))
    (ringOf t rs).Fresh ∧ causePending t rs 3 ∧
      ((ringOf s rs).logged = true ∨ rs % 4 ≠ 0 ∨ (s.host.bootLog = [] ∧ s.host.bootLost = 0) → (ringOf t rs).evtTail = 0) := by
  intro t
  obtain ⟨hfresh, htail, hlogged⟩ := enableRing_ring rs d s
  have hcause : (ringOf (raiseCause rs 3 (enableRing rs d s)) rs).Fresh := by
    rw [raiseCause_field RingSet.Fresh fun _ => rfl]
    exact hfresh
  obtain ⟨b, hb⟩ := deliverBootLog_eventless rs (raiseCause rs 3 (enableRing rs d s)) rs
  refine ⟨fresh_of_eventless hb hcause, ?_, fun h => ?_⟩
  · exact deliverBootLog_pending (by decide) _ _ ((raiseCause_pending (by decide) (by decide) ..).2 (.inl rfl))
  · have hoff := raiseCause_offRings rs 3 (enableRing rs d s)
    rw [deliverBootLog_evtTail, raiseCause_field RingSet.evtTail fun _ => rfl, htail]
    rw [raiseCause_field RingSet.logged fun _ => rfl, hlogged]
    refine h.imp_right (Or.imp_right fun h => ?_)
    exact ⟨(congrArg HostIf.bootLog hoff).trans h.1, (congrArg HostIf.bootLost hoff).trans h.2⟩

/-- Settles O20: `enable_fresh` and `refuseDesc_ring` for an enable, the equation of `setupDescriptor` for a disable. -/
theorem ringSetsEnableAndDisable : Obligations.RingSetsEnableAndDisable := by
  refine ⟨?enable, ?disable, ?drained⟩
  case enable =>
    intro p addr d s hp hready hset hop hok rs
    have heq := setupDescriptor_enable (addr := addr) hp hready hset hop hok
    constructor
    · intro hph
      rw [if_neg (not_not.2 hph)] at heq
      obtain ⟨⟨hphase, herr, hsqh, hsqt, hrh, hrt, heh⟩, hpend, htail⟩ := enable_fresh rs d (setupAt p addr s)
      exact ⟨_, congrArg Host.Outcome.next heq, hphase, herr, hsqh, hsqt, hrh, hrt, heh, htail, hpend⟩
    · intro hph
      rw [if_pos hph] at heq
      refine ⟨_, congrArg Host.Outcome.next heq, ?_, ?_, ?_, ?_, ?_, refuseDesc_pending ..⟩
      · exact refuseDesc_ring RingSet.phase (fun _ => rfl) (fun _ _ => rfl) ..
      · exact refuseDesc_ring RingSet.sqHead (fun _ => rfl) (fun _ _ => rfl) ..
      · exact refuseDesc_ring RingSet.sqTail (fun _ => rfl) (fun _ _ => rfl) ..
      · exact refuseDesc_ring RingSet.rplTail (fun _ => rfl) (fun _ _ => rfl) ..
      · exact refuseDesc_ring RingSet.evtTail (fun _ => rfl) (fun _ _ => rfl) ..
  case disable =>
    intro p addr d s hp hready hset hop rs
    refine ⟨_, congrArg Host.Outcome.next (setupDescriptor_disable hp hready hset hop), ?_, (raiseCause_pending (by decide) (by decide) ..).2 (.inl rfl)⟩
    rw [raiseCause_field RingSet.phase fun _ => rfl, ringOf_modRing_same, ringOf_setupAt]
    split
    · rfl
    · rfl
  case drained =>
    intro rs s hph hout hwait
    refine ⟨_, congrArg Host.Outcome.next (if_pos ⟨hph, hout, hwait⟩), ?_, fun q hq => ringOf_modRing_other _ _ hq, modRing_device ..⟩
    rw [ringOf_modRing_same]

end Sys2Proof.Machine
end

section
/-! The commands on the device object: filters, privileges, registers, reset and DEV_ABORT (R64, R71, R75, R81, R83). -/

namespace Sys2Proof.Machine

/-- A row commits where every run of its plan is answered OK and leaves what `P` says. -/
theorem commits_of_run {row : Cmd → Instr} {op : Nat} {plan : Cmd → State → Plan} {P : Cmd → State → State → Prop}
    (hrow : ∀ c s, exec (row c) s = .next (hostCmd op plan c s))
    (h : ∀ c s t, ∃ u progress result, (plan c s).run t = .reply u St.OK 0 progress result ∧ P c t u) : Commits row op plan P := by
  intro c s e hr
  obtain ⟨u, progress, result, hd, hP⟩ := h c (tick 1 (fetchedFor op c s)) (begunAt op plan c s e)
  exact ⟨u, progress, result, exec_of_reply (hrow c s) hr hd, hP⟩

/-! ### DEV_EVENT_ROUTE (R75) -/

theorem eventRoutePlan_run (c : Cmd) (s t : State) : (eventRoutePlan c s).run t =
    .ok (modRing (u8 c.params 0) (fun r => { r with minSev := u8 c.params 1, mask := BitVec.ofNat 32 (u32 c.params 4) }) t) := rfl

/-! ### DEV_PORT_PRIV (R64) -/

theorem portSt_modPort (p : Nat) (f : Port → Port) (s : State) (q : Nat) :
    portSt (modPort p f s) q = if q = p then f (portSt s q) else portSt s q := by
  unfold portSt modPort Tbl.upd Tbl.getD
  dsimp only
  by_cases h : q = p
  · subst h
    rw [if_pos rfl, Tbl.get?_put_same]
    rfl
  · rw [if_neg h, Tbl.get?_put_other _ _ h]

theorem portSt_of_desk {s t : State} (h : t.desk = s.desk) (q : Nat) : portSt t q = portSt s q := by
  have hp : t.desk.ports = s.desk.ports := by rw [h]
  unfold portSt
  exact congrArg (fun l : Tbl Port => Tbl.getD l q {}) hp

/-- The state that DEV_PORT_PRIV leaves. -/
def privSet (c : Cmd) (p v : Nat) (s : State) : State :=
  if (portSt s p).priv = v then s
  else raise Ev.PORT_PRIV_CHANGED 0 (leN p 1 ++ leN (portSt s p).priv 1 ++ leN v 1 ++ leN (Cmd.port c) 1)
    (modPort p (fun q => { q with priv := v }) s)

theorem portPrivPlan_run (c : Cmd) (s t : State) :
    (portPrivPlan c s).run t = .ok (privSet c (u8 c.params 0) (u8 c.params 1) t) := by
  unfold privSet portPrivPlan
  dsimp only
  split
  · rfl
  · rfl

theorem privSet_device (c : Cmd) (p v : Nat) (s : State) : (privSet c p v s).device = s.device := by
  unfold privSet
  split
  · rfl
  · exact (raise_device ..).trans (modPort_device ..)

theorem portSt_privSet (c : Cmd) (p v : Nat) (s : State) (q : Nat) :
    portSt (privSet c p v s) q = if q = p then { portSt s q with priv := v } else portSt s q := by
  unfold privSet
  split
  case isTrue h =>
    split
    · subst q; rw [← h]
    · rfl
  case isFalse =>
    rw [portSt_of_desk (raise_desk ..), portSt_modPort]

/-! ### DEV_REG_WRITE and DEV_REG_READ (R81) -/

/-- A register that stands in no window and has no effect beyond its store takes the masked value. -/
theorem writeReg_plain {off mask value : Nat} {s : State} {r : RegRow} {i w : Nat} (hf : findReg off = some (r, i, w)) (hsel : r.sel = 0)
    (hmask : r.base ≠ R.HPI_RS_INT_MASK) (hctrl : r.base ≠ R.TMU_CTRL) :
    writeReg off mask value s = setRg (r.base + r.stride * i)
      (maskedWrite (rgRaw s (r.base + r.stride * i)) (Nat.land mask r.mask) value) s := by
  have hkey : rowKey s r i = r.base + r.stride * i := if_pos hsel
  unfold writeReg
  rw [hf]
  dsimp only
  rw [hkey, if_neg hmask, if_neg fun h => hctrl h.1]

theorem putAt_setRg (k v : Nat) (s : State) : Tbl.PutAt s.regs (setRg k v s).regs k (BitVec.ofNat 64 v) :=
  ⟨Tbl.get?_put_same .., fun _ hj => Tbl.get?_put_other _ _ hj⟩

/-- The state that DEV_REG_WRITE leaves: its entries applied in order. -/
def regWrites (c : Cmd) (s : State) : State :=
  (List.range (u16 c.params 0)).foldl (fun s k =>
    writeReg (u32 c.params (8 + 16 * k)) (u32 c.params (12 + 16 * k)) (u32 c.params (16 + 16 * k)) s) s

theorem devRegWritePlan_run (c : Cmd) (s t : State) :
    (devRegWritePlan c s).run t = .reply (regWrites c t) St.OK 0 (u16 c.params 0) [] := rfl

theorem regWrites_one {c : Cmd} (h : u16 c.params 0 = 1) (s : State) :
    regWrites c s = writeReg (u32 c.params 8) (u32 c.params 12) (u32 c.params 16) s := by
  unfold regWrites
  rw [h]
  rfl

theorem devRegReadPlan_run_one {c : Cmd} (h : u16 c.params 0 = 1) (s t : State) :
    (devRegReadPlan c s).run t =
      .reply (readReg (u32 c.params 8) t).2 St.OK 0 1 (leN (readReg (u32 c.params 8) t).1 4) := by
  unfold devRegReadPlan
  dsimp only
  rw [h]
  show Done.reply _ _ _ _ (leN _ 4 ++ []) = _
  rw [List.append_nil]
  rfl

/-! ### DEV_ABORT (R71) -/

/-- A target that has not started is aborted first. -/
theorem abortRun_not_running {c : Cmd} {s : State} {x : OutCmd} (hx : outTarget s c = some x) (hp : x.phase ≠ .running) :
    abortRun c s = .okWith (finishEntry x St.ABORTED 0 0 [] s) (abortResult St.ABORTED 0 0) := by
  unfold abortRun
  rw [hx]
  dsimp only
  rw [if_pos hp]

/-- Settles O18: each row's run by its equation, then `commits_of_run` or `exec_of_reply`. -/
theorem deviceCommandsComplete : Obligations.DeviceCommandsComplete := by
  refine ⟨?eventRoute, ?portPriv, ?regWrite, ?regRead, ?reset, ?abort⟩
  case eventRoute =>
    refine commits_of_run (fun _ _ => rfl) fun c s t => ⟨_, _, _, eventRoutePlan_run c s t, modRing_device .., ?_, ?_, ?_⟩
    · rw [ringOf_modRing_same]
    · rw [ringOf_modRing_same]
    · exact fun rs h => ringOf_modRing_other _ _ h
  case portPriv =>
    refine commits_of_run (fun _ _ => rfl) fun c s t => ⟨_, _, _, portPrivPlan_run c s t, privSet_device .., ?_, fun p hp => ?_⟩
    · rw [portSt_privSet, if_pos rfl]
    · rw [portSt_privSet, if_neg hp]
  case regWrite =>
    refine commits_of_run (fun _ _ => rfl) fun c s t =>
      ⟨_, _, _, devRegWritePlan_run c s t, fun r i w hn hf hsel hmask hctrl => ?_⟩
    rw [regWrites_one hn, writeReg_plain hf hsel hmask hctrl]
    exact ⟨rfl, putAt_setRg ..⟩
  case regRead =>
    intro c s e hr hn a
    exact exec_of_reply rfl hr (devRegReadPlan_run_one hn ..)
  case reset =>
    exact commits_of_run (fun _ _ => rfl) fun c s t => ⟨_, _, _, rfl, rfl⟩
  case abort =>
    intro c s e x hr hx hp
    exact exec_of_reply rfl hr (abortRun_not_running hx hp)

end Sys2Proof.Machine
end

section
/-! For the query rows: states and commands that run now, so that the statements about them are not empty. -/

namespace Sys2Proof.Machine

/-- A device with one object of every class that a query names, a record in the fuse store, and a command of tag 9 outstanding. -/
def stocked : State := { waiting9 with
  legs := [(2, { conf := some 0 })], confs := [(0, { members := [2] })], flues := [(0, {})]
  dsp.tasks := [(0, {})], video.decs := [(0, {})], video.comps := [(0, { conf := 0 })], video.encs := [(0, {})]
  video.fwd := [(2, {})], pkt.flows := [(0, {})], wlan.stas := [(0, {})], cap.sessions := [(0, {})]
  dram.regions := [(0, {})], fuses.recs := [(2, [{ ok := true, payload := List.replicate 48 1 }])] }

/-- With `runs_of_runsB`: every row of O14 has a command that runs now. -/
theorem queriesA_run : runsB 0x0101 devInfoPlan (cmdOf devH (leN 0 8)) stocked = true ∧
    runsB 0x0104 queryProgressPlan (cmdOf devH (leN 0 4 ++ leN 9 4)) stocked = true ∧
    runsB 0x010C echoPlan (cmdOf devH (leN 7 16)) stocked = true ∧
    runsB 0x0207 legQueryPlan (cmdOf 0x02000002 (leN 0 8)) stocked = true ∧
    runsB 0x0305 confQueryPlan (cmdOf 0x03000000 (leN 0 8)) stocked = true ∧
    runsB 0x0314 mixQueryPlan (cmdOf 0x03000000 (leN 0 8)) stocked = true ∧
    runsB 0x0406 aspQueryPlan (cmdOf 0x04000000 (leN 0 8)) stocked = true ∧
    runsB 0x0506 dspQueryPlan (cmdOf 0x05000000 (leN 0 8)) stocked = true ∧
    runsB 0x0604 decQueryPlan (cmdOf 0x06000000 []) stocked = true ∧
    runsB 0x0706 cmpQueryPlan (cmdOf 0x07000000 []) stocked = true ∧
    runsB 0x0805 encQueryPlan (cmdOf 0x08000000 []) stocked = true ∧
    runsB 0x0903 fwdQueryPlan (cmdOf 0x09000002 []) stocked = true ∧
    runsB 0x0904 bweQueryPlan (cmdOf 0x09000002 []) stocked = true ∧
    runsB 0x0A02 portQueryPlan (cmdOf devH []) stocked = true ∧
    runsB 0x0A06 flowQueryPlan (cmdOf 0x0A000000 (leN 0 8)) stocked = true := by decide +kernel

/-- With `runs_of_runsB`: every row of O15 has a command that runs now. -/
theorem queriesB_run : runsB 0x0B03 keyQueryPlan (cmdOf 0x0B000000 []) stocked = true ∧
    runsB 0x0B05 cipQueryPlan (cmdOf devH []) stocked = true ∧
    runsB 0x0C06 staQueryPlan (cmdOf 0x0C000000 (leN 0 8)) stocked = true ∧
    runsB 0x0D06 radioQueryPlan (cmdOf 0x0D000000 (leN 0 8)) stocked = true ∧
    runsB 0x0E06 timeQueryPlan (cmdOf devH (leN 0 8)) stocked = true ∧
    runsB 0x0F0A capQueryPlan (cmdOf 0x0F000000 []) stocked = true ∧
    runsB 0x1003 pwrQueryPlan (cmdOf devH (leN 0 8)) stocked = true ∧
    runsB 0x1004 hltQueryPlan (cmdOf devH (leN 0 8)) stocked = true ∧
    runsB 0x1005 hltMarginPlan (cmdOf devH (leN 0 8)) stocked = true ∧
    runsB 0x1006 hltSparePlan (cmdOf devH (leN 0 8)) stocked = true ∧
    runsB 0x1104 fwQueryPlan (cmdOf devH []) stocked = true ∧
    runsB 0x1105 otpReadPlan (cmdOf devH (leN 2 8)) stocked = true ∧
    runsB 0x1205 dramQueryPlan (cmdOf 0x13000000 []) stocked = true ∧
    runsB 0x1208 flueQueryPlan (cmdOf 0x12000000 []) stocked = true := by decide +kernel

end Sys2Proof.Machine
end

section
/-! The fuse store under every row: a command leaves of it what its plan leaves, and every row but FW_ACTIVATE, OTP_PROGRAM
and TIMED_COMMAND_START leaves it as it is (R89, R93, R94). -/

namespace Sys2Proof.Machine

/-! ### Host commands -/

/-- The plan of every opcode but FW_ACTIVATE and OTP_PROGRAM leaves the fuse store. -/
theorem planOf_fuses {op : Nat} {c : Cmd} {s : State} {p : Plan} (h : planOf op c s = some p)
    (hactivate : op ≠ 0x1102) (hprogram : op ≠ 0x1106) (t : State) : (p.run t).st.fuses = t.fuses := by
  unfold planOf at h
  split at h
  all_goals cases h
  exacts [
    devInfoPlan_fuses .., devRegWritePlan_fuses .., devAbortPlan_fuses .., queryProgressPlan_fuses ..,
    leaseAcquirePlan_fuses .., leaseRenewPlan_fuses .., leaseReleasePlan_fuses .., leaseBreakPlan_fuses ..,
    eventRoutePlan_fuses .., portPrivPlan_fuses .., devRegReadPlan_fuses .., echoPlan_fuses .., devResetPlan_fuses ..,
    legCreatePlan_fuses .., legStartPlan_fuses .., legModifyPlan_fuses .., legHoldPlan_fuses .., legResumePlan_fuses ..,
    legClosePlan_fuses .., legQueryPlan_fuses .., confCreatePlan_fuses .., confJoinPlan_fuses .., confLeavePlan_fuses ..,
    confClosePlan_fuses .., confQueryPlan_fuses .., mixPlanPlan_fuses .., mixRolePlan_fuses .., mixRoutePlan_fuses ..,
    mixParamPlan_fuses .., mixQueryPlan_fuses .., aspConfigPlan_fuses .., aspStartPlan_fuses .., aspStopPlan_fuses ..,
    aspMaskPlan_fuses .., aspArmPlan_fuses .., aspQueryPlan_fuses .., dspLoadPlan_fuses .., taskCreatePlan_fuses ..,
    taskBindPlan_fuses .., taskParamPlan_fuses .., taskDeletePlan_fuses .., dspQueryPlan_fuses .., decCreatePlan_fuses ..,
    decModifyPlan_fuses .., decDeletePlan_fuses .., decQueryPlan_fuses .., cmpCreatePlan_fuses .., cmpLayoutPlan_fuses ..,
    cmpTilePlan_fuses .., cmpOverlayPlan_fuses .., cmpDeletePlan_fuses .., cmpQueryPlan_fuses .., encCreatePlan_fuses ..,
    encModifyPlan_fuses .., encKeyPlan_fuses .., encDeletePlan_fuses .., encQueryPlan_fuses .., fwdPolicyPlan_fuses ..,
    fwdSetPlan_fuses .., fwdQueryPlan_fuses .., bweQueryPlan_fuses .., portConfigPlan_fuses .., portQueryPlan_fuses ..,
    flowInstallPlan_fuses .., flowModifyPlan_fuses .., flowRemovePlan_fuses .., flowQueryPlan_fuses ..,
    routeSetPlan_fuses .., natSetPlan_fuses .., aclSetPlan_fuses .., keyWritePlan_fuses .., keyErasePlan_fuses ..,
    keyQueryPlan_fuses .., macsecSaPlan_fuses .., cipQueryPlan_fuses .., wlanRolePlan_fuses .., bssCreatePlan_fuses ..,
    bssDeletePlan_fuses .., staAdmitPlan_fuses .., staRemovePlan_fuses .., staQueryPlan_fuses .., twtSetPlan_fuses ..,
    wurSetPlan_fuses .., scanStartPlan_fuses .., radioStatePlan_fuses .., radioChannelPlan_fuses .., radioPowerPlan_fuses ..,
    radioCalPlan_fuses .., femConfigPlan_fuses .., radioQueryPlan_fuses .., timeDomainPlan_fuses .., timeSelectPlan_fuses ..,
    timeStepPlan_fuses .., tsQueueReadPlan_fuses .., ppsConfigPlan_fuses .., timeQueryPlan_fuses .., capSessionPlan_fuses ..,
    capFilterPlan_fuses .., capTriggerPlan_fuses .., capStartPlan_fuses .., capStopPlan_fuses .., capReadoutPlan_fuses ..,
    replayLoadPlan_fuses .., replayStartPlan_fuses .., replayStopPlan_fuses .., capQueryPlan_fuses .., pwrStatePlan_fuses ..,
    pwrWakePlan_fuses .., pwrQueryPlan_fuses .., hltQueryPlan_fuses .., hltMarginPlan_fuses .., hltSparePlan_fuses ..,
    fwLoadPlan_fuses .., absurd rfl hactivate, fwAcceptPlan_fuses .., fwQueryPlan_fuses .., otpReadPlan_fuses ..,
    absurd rfl hprogram, memPoolAssignPlan_fuses .., dramRegionCreatePlan_fuses .., dramRegionDeletePlan_fuses ..,
    dramTrainPlan_fuses .., dramQueryPlan_fuses .., flueCreatePlan_fuses .., flueDeletePlan_fuses .., flueQueryPlan_fuses ..,
    dbgWindowPlan_fuses ..]

/-- The row happens and leaves the fuse store. -/
def KeepsFuses (i : Instr) (s : State) : Prop := Happens i s fun t => t.fuses = s.fuses

/-- A host command's row leaves the fuse store where its opcode's plan does. -/
theorem hostRow_keepsFuses {i : Instr} {op : Nat} {plan : Cmd → State → Plan} {c : Cmd} {s : State}
    (hrow : exec i s = .next (hostCmd op plan c s)) (hplan : ∀ c s, planOf op c s = some (plan c s))
    (hactivate : op ≠ 0x1102) (hprogram : op ≠ 0x1106) : KeepsFuses i s :=
  ⟨_, hrow, hostCmd_fuses op plan c s fun c s => planOf_fuses (hplan c s) hactivate hprogram⟩

/-! ### Rows that choose in their own definition -/

theorem ite_fuses {p : Prop} [Decidable p] {a b s : State} (ha : a.fuses = s.fuses) (hb : b.fuses = s.fuses) :
    (if p then a else b).fuses = s.fuses := by
  split
  · exact ha
  · exact hb

theorem commandFetch_keepsFuses (p : Packet) (s : State) : KeepsFuses (.commandFetch p) s := by
  refine ⟨_, rfl, ?_⟩
  split
  · rfl
  · exact fetchFrom_fuses ..

theorem voiceEncodeFrame_keepsFuses (conf cls : Nat) (member : Option Nat) (s : State) :
    KeepsFuses (.voiceEncodeFrame conf cls member) s := by
  cases member with
  | none => exact ⟨_, rfl, classFrame_fuses ..⟩
  | some i => exact ⟨_, rfl, memberFrame_fuses ..⟩

theorem flueOp_consumer_fuses {op : Nat → Flue → State → State} (h : ∀ i f s, (op i f s).fuses = s.fuses)
    (flue consumer : Nat) (copyB : List Nat) (s : State) :
    (flueOp flue copyB (consumerOp flue consumer op) s).fuses = s.fuses :=
  flueOp_fuses _ _ _ _ fun f s => consumerOp_fuses _ _ _ f s h

/-- POP and PEEK of a flue whose two copies differ answer an item that is not valid and count an empty pop. -/
theorem emptyPop_fuses {bad : Prop} [Decidable bad] {o : Output} {s t : State} (h : t.fuses = s.fuses) :
    (if bad then emit o (bump R.FLU_EMPTY_POPS t) else t).fuses = s.fuses :=
  ite_fuses ((emit_fuses ..).trans ((bump_fuses ..).trans h)) h

/-! ### Every row -/

/-- One line a row: a host command by its plan, an event by the operation it is. -/
theorem exec_keepsFuses (i : Instr) (s : State) (hactivate : ∀ c, i ≠ .fwActivate c) (hprogram : ∀ c, i ≠ .otpProgram c)
    (htimed : i ≠ .timedCommandStart) : KeepsFuses i s := by
  cases i with
  | devInfo c | devRegWrite c | devAbort c | queryProgress c | leaseAcquire c | leaseRenew c | leaseRelease c | leaseBreak c
  | devEventRoute c | devPortPriv c | devRegRead c | devEcho c | devReset c | legCreate c | legStart c | legModify c
  | legHold c | legResume c | legClose c | legQuery c | confCreate c | confJoin c | confLeave c | confClose c | confQuery c
  | mixPlanSet c | mixRoleSet c | mixRouteSet c | mixParamLoad c | mixQuery c | aspConfig c | aspStart c | aspStop c
  | aspMaskSet c | aspTriggerArm c | aspQuery c | dspLoad c | dspTaskCreate c | dspTaskBind c | dspTaskParam c
  | dspTaskDelete c | dspQuery c | flueCreate c | flueDelete c | flueQuery c | memPoolAssign c | dramRegionCreate c
  | dramRegionDelete c | dramTrain c | dramQuery c | dbgWindowSet c | portConfig c | portQuery c | flowInstall c
  | flowModify c | flowRemove c | flowQuery c | routeSet c | natSet c | aclSet c | keyWrite c | keyErase c | keyQuery c
  | macsecSaSet c | cipQuery c | decCreate c | decModify c | decDelete c | decQuery c | cmpCreate c | cmpLayoutSet c
  | cmpTileSet c | cmpOverlaySet c | cmpDelete c | cmpQuery c | encCreate c | encModify c | encKeyPicture c | encDelete c
  | encQuery c | fwdPolicySet c | fwdSetModify c | fwdQuery c | bweQuery c | wlanRoleSet c | bssCreate c | bssDelete c
  | staAdmit c | staRemove c | staQuery c | twtSet c | wurSet c | scanStart c | radioStateSet c | radioChannelSet c
  | radioPowerSet c | radioCal c | femConfig c | radioQuery c | timeDomainSet c | timeSelect c | timeStep c | tsQueueRead c
  | ppsConfig c | timeQuery c | capSessionCreate c | capFilterSet c | capTriggerSet c | capStart c | capStop c | capReadout c
  | replayLoad c | replayStart c | replayStop c | capQuery c | fwLoad c | fwAcceptUntested c | fwQuery c | otpRead c
  | pwrStateSet c | pwrWakeSet c | pwrQuery c | hltQuery c | hltMarginQuery c | hltSpareQuery c =>
    exact hostRow_keepsFuses rfl (fun _ _ => rfl) (by decide) (by decide)
  | commandFetch p => exact commandFetch_keepsFuses ..
  | timedCommandStart => exact absurd rfl htimed
  | commandResetStart => exact ⟨_, rfl, commandReset_fuses ..⟩
  | ringSetEnable writer port addr d => exact ⟨_, rfl, setupDescriptor_fuses ..⟩
  | ringSetDisable writer port addr d => exact ⟨_, rfl, setupDescriptor_fuses ..⟩
  | ringSetDrained rs => exact ⟨_, rfl, ite_fuses (modRing_fuses ..) rfl⟩
  | sqTailDoorbell port rs tail => exact ⟨_, rfl, sqTailDoorbell_fuses ..⟩
  | rplHeadDoorbell port rs head => exact ⟨_, rfl, rplHeadDoorbell_fuses ..⟩
  | evtHeadDoorbell port rs head => exact ⟨_, rfl, evtHeadDoorbell_fuses ..⟩
  | hpiRsIntMaskWrite rs value => exact ⟨_, rfl, ite_fuses rfl (intMaskWrite_fuses ..)⟩
  | hpiRsIntStatusClear rs value => exact ⟨_, rfl, ite_fuses rfl (setRg_fuses ..)⟩
  | intHoldoffExpiry rs vec => exact ⟨_, rfl, intHoldoffExpiry_fuses ..⟩
  | devAlarmClear value => exact ⟨_, rfl, ite_fuses rfl rfl⟩
  | otpResetCauseClear value => exact ⟨_, rfl, rfl⟩
  | fabMissSumClear index value => exact ⟨_, rfl, ite_fuses rfl (setRg_fuses ..)⟩
  | dsxCHistClear value => exact ⟨_, rfl, histClear_fuses ..⟩
  | tmuQFlagsClear queue value => exact ⟨_, rfl, ite_fuses rfl (setRg_fuses ..)⟩
  | selectRegisterWrite offset value => exact ⟨_, rfl, selectWrite_fuses ..⟩
  | ignoredDirectWrite port offset value => exact ⟨_, rfl, ignoredWrite_fuses ..⟩
  | rcRegisterRead offset => exact ⟨_, rfl, hostRead_fuses ..⟩
  | latchingWordRead offset => exact ⟨_, rfl, hostRead_fuses ..⟩
  | bar2Access port offset write data count => exact ⟨_, rfl, bar2Access_fuses ..⟩
  | bar2MapSwitch port => exact ⟨_, rfl, bar2MapSwitch_fuses ..⟩
  | leaseExpired id => exact ⟨_, rfl, leaseExpired_fuses ..⟩
  | legDrainComplete leg => exact ⟨_, rfl, legDrainComplete_fuses ..⟩
  | blockBoundary inputs => exact ⟨_, rfl, blockBoundary_fuses ..⟩
  | jbRelease leg => exact ⟨_, rfl, jbRelease_fuses ..⟩
  | jbTargetRecompute leg => exact ⟨_, rfl, jbTargetRecompute_fuses ..⟩
  | voiceDecodeFrame v => exact ⟨_, rfl, voiceDecode_fuses ..⟩
  | voiceEncodeFrame conf cls member => exact voiceEncodeFrame_keepsFuses ..
  | aspStartInstant port => exact ⟨_, rfl, aspStartInstant_fuses ..⟩
  | aspFrame f => exact ⟨_, rfl, aspFrame_fuses ..⟩
  | aspClockLost port => exact ⟨_, rfl, ite_fuses rfl (aspClockLost_fuses ..)⟩
  | aspHoldFade port => exact ⟨_, rfl, ite_fuses rfl (aspHoldFade_fuses ..)⟩
  | aspRateChange port => exact ⟨_, rfl, ite_fuses rfl (aspRateChange_fuses ..)⟩
  | aspConverged port => exact ⟨_, rfl, ite_fuses rfl (aspConverged_fuses ..)⟩
  | aspNoClock port => exact ⟨_, rfl, aspNoClock_fuses ..⟩
  | aspStopComplete port => exact ⟨_, rfl, aspStopComplete_fuses ..⟩
  | aspPinFault port pin cause => exact ⟨_, rfl, ite_fuses rfl (aspPinFault_fuses ..)⟩
  | aspPinRetry port pin clear => exact ⟨_, rfl, ite_fuses rfl (aspPinRetry_fuses ..)⟩
  | trigInEdge input edge => exact ⟨_, rfl, trigEdge_fuses ..⟩
  | taskDispatch target loads => exact ⟨_, rfl, taskDispatch_fuses ..⟩
  | bundleIssue core => exact ⟨_, rfl, bundleIssue_fuses ..⟩
  | spGoPop core slot => exact ⟨_, rfl, spGo_fuses ..⟩
  | spGoPush core slot => exact ⟨_, rfl, spGo_fuses ..⟩
  | streamCommandComplete core => exact ⟨_, rfl, streamStep_fuses ..⟩
  | coreMigration core => exact ⟨_, rfl, ite_fuses (coreMigration_fuses ..) rfl⟩
  | push flue producer item copyB => exact ⟨_, rfl, flueOp_fuses _ _ _ _ (pushOp_fuses _ _ _)⟩
  | abandon flue producer copyB => exact ⟨_, rfl, flueOp_fuses _ _ _ _ (abandonOp_fuses _ _)⟩
  | pop flue consumer copyB => exact ⟨_, rfl, emptyPop_fuses (flueOp_fuses _ _ _ _ (popOp_fuses _ _))⟩
  | peek flue consumer copyB => exact ⟨_, rfl, emptyPop_fuses (flueOp_consumer_fuses peekFlue_fuses ..)⟩
  | dropRemainder flue consumer copyB => exact ⟨_, rfl, flueOp_consumer_fuses dropRemainder_fuses ..⟩
  | commit flue consumer copyB => exact ⟨_, rfl, flueOp_consumer_fuses commitFlue_fuses ..⟩
  | rewind flue consumer copyB => exact ⟨_, rfl, flueOp_fuses _ _ _ _ (fun _ _ => ite_fuses (rewindFlue_fuses ..) rfl)⟩
  | flueResetComplete flue => exact ⟨_, rfl, (flueChanged_fuses ..).trans (flueResetComplete_fuses ..)⟩
  | flueOpenTimeout flue => exact ⟨_, rfl, (flueChanged_fuses ..).trans (openTimeout_fuses ..)⟩
  | sramWordAccess bank offset write badBits => exact ⟨_, rfl, sramAccess_fuses ..⟩
  | sramScrub bank row corrected uncorrectable => exact ⟨_, rfl, sramScrub_fuses ..⟩
  | dramRequest r => exact ⟨_, rfl, dramRequest_fuses ..⟩
  | rowIdleClose ch bank => exact ⟨_, rfl, rowIdleClose_fuses ..⟩
  | perBankRefresh ch bank burst => exact ⟨_, rfl, bankRefresh_fuses ..⟩
  | patrolScrub ch region offset ecc => exact ⟨_, rfl, ite_fuses rfl (patrolScrub_fuses ..)⟩
  | wckTracking ch drift temp linkEcc => exact ⟨_, rfl, wckTracking_fuses ..⟩
  | retrainSlice ch last caOk readEye writeEye => exact ⟨_, rfl, retrainSlice_fuses ..⟩
  | dramSetpoint ch sp stallNs => exact ⟨_, rfl, dramSetpoint_fuses ..⟩
  | dramMirrorRestored region slot copyMs => exact ⟨_, rfl, mirrorRestored_fuses ..⟩
  | flowRehashEnd => exact ⟨_, rfl, rehashEnd_fuses ..⟩
  | routeChangeDrain flow => exact ⟨_, rfl, (ownerAdvance_fuses ..).trans (routeDrain_fuses ..)⟩
  | ethFrameReceive f => exact ⟨_, rfl, frameReceive_fuses ..⟩
  | connExpiry flow => exact ⟨_, rfl, connExpiry_fuses ..⟩
  | ethLink iface up cause lanes => exact ⟨_, rfl, linkChange_fuses ..⟩
  | keyGenerationZeroise slot gen => exact ⟨_, rfl, (ownerAdvance_fuses ..).trans (generationDrained_fuses ..)⟩
  | keyHoldEnd slot => exact ⟨_, rfl, keyHoldEnd_fuses ..⟩
  | cipherOperation o => exact ⟨_, rfl, cipherOperation_fuses ..⟩
  | pictureDecode v => exact ⟨_, rfl, pictureDecode_fuses ..⟩
  | reorderTimeout stream => exact ⟨_, rfl, reorderTimeout_fuses ..⟩
  | keyRequestSend leg slot => exact ⟨_, rfl, keyRequestSend_fuses ..⟩
  | firRepeat stream => exact ⟨_, rfl, firRepeat_fuses ..⟩
  | decNoKey stream => exact ⟨_, rfl, decNoKey_fuses ..⟩
  | compositionInstant comp takesUs => exact ⟨_, rfl, compositionInstant_fuses ..⟩
  | cmpSourceLost comp tile => exact ⟨_, rfl, cmpSourceLost_fuses ..⟩
  | encodePicture v => exact ⟨_, rfl, encodePicture_fuses ..⟩
  | bweEvaluation => exact ⟨_, rfl, bweEvaluation_fuses ..⟩
  | layerSwitch leg entry p => exact ⟨_, rfl, layerSwitch_fuses ..⟩
  | pacingSend leg => exact ⟨_, rfl, pacingSend_fuses ..⟩
  | fwdBacklog leg => exact ⟨_, rfl, fwdBacklog_fuses ..⟩
  | fwdWaitKey leg entry => exact ⟨_, rfl, fwdWaitKey_fuses ..⟩
  | senderReport leg => exact ⟨_, rfl, senderReport_fuses ..⟩
  | wlanPpduReceive p => exact ⟨_, rfl, ppduReceive_fuses ..⟩
  | reorderHoldTimeout sta tid => exact ⟨_, rfl, reorderHoldTimeout_fuses ..⟩
  | staProgressTimeout sta => exact ⟨_, rfl, staProgressTimeout_fuses ..⟩
  | staRequestTimeout sta => exact ⟨_, rfl, staRequestTimeout_fuses ..⟩
  | staIdleProbe sta acked => exact ⟨_, rfl, staIdleProbe_fuses ..⟩
  | staLeave sta => exact ⟨_, rfl, staLeave_fuses ..⟩
  | dlTxopSchedule radio ac served => exact ⟨_, rfl, dlTxop_fuses ..⟩
  | twtServicePeriod sta id frame => exact ⟨_, rfl, twtServicePeriod_fuses ..⟩
  | unreachHoldExpiry sta => exact ⟨_, rfl, unreachHoldExpiry_fuses ..⟩
  | channelSwitchMove radio => exact ⟨_, rfl, channelSwitchMove_fuses ..⟩
  | bssColourChange bss radio colour => exact ⟨_, rfl, bssColourChange_fuses ..⟩
  | handshakeRetry sta => exact ⟨_, rfl, handshakeRetry_fuses ..⟩
  | gtkRekey bss => exact ⟨_, rfl, gtkRekey_fuses ..⟩
  | beaconTransmit bss radio => exact ⟨_, rfl, beaconTransmit_fuses ..⟩
  | wurBeacon => exact ⟨_, rfl, wurBeacon_fuses ..⟩
  | wurWakeSend sta answered => exact ⟨_, rfl, wurWakeSend_fuses ..⟩
  | wurWakeFail sta => exact ⟨_, rfl, wurWakeFail_fuses ..⟩
  | beaconLoss sta radio => exact ⟨_, rfl, beaconLoss_fuses ..⟩
  | synthLock radio v => exact ⟨_, rfl, synthLock_fuses ..⟩
  | transmitRequest radio earliest latest kind index => exact ⟨_, rfl, requestTx_fuses ..⟩
  | transmitEnd radio m => exact ⟨_, rfl, transmitEnd_fuses ..⟩
  | synthUnlock radio => exact ⟨_, rfl, synthUnlock_fuses ..⟩
  | clearing radio free temp => exact ⟨_, rfl, clearing_fuses ..⟩
  | calibrationComplete radio v => exact ⟨_, rfl, calibrationComplete_fuses ..⟩
  | aerialProbe chain rl => exact ⟨_, rfl, aerialProbe_fuses ..⟩
  | biasFault chain => exact ⟨_, rfl, biasFault_fuses ..⟩
  | biasRetry chain ok => exact ⟨_, rfl, biasRetry_fuses ..⟩
  | wurFrameAccept fcsOk id rssi => exact ⟨_, rfl, wurFrame_fuses ..⟩
  | domainTimeout dom announce => exact ⟨_, rfl, domainTimeout_fuses ..⟩
  | domainTakeover dom => exact ⟨_, rfl, domainTakeover_fuses ..⟩
  | slewComplete => exact ⟨_, rfl, slewComplete_fuses ..⟩
  | refclkLost cause => exact ⟨_, rfl, refclkLost_fuses ..⟩
  | refclkRestored => exact ⟨_, rfl, refclkRestored_fuses ..⟩
  | ppsOutEdge => exact ⟨_, rfl, ppsOutEdge_fuses ..⟩
  | ppsInEdge => exact ⟨_, rfl, ppsInEdge_fuses ..⟩
  | tsQueueInsert queue id port flags => exact ⟨_, rfl, tsInsert_fuses ..⟩
  | captureTriggerInstant session => exact ⟨_, rfl, captureTriggerInstant_fuses ..⟩
  | replayPrefetch session => exact ⟨_, rfl, replayPrefetch_fuses ..⟩
  | replayRecordSend session missed radioRefused delayUs => exact ⟨_, rfl, replayRecordSend_fuses ..⟩
  | resetPin lowNs => exact ⟨_, rfl, resetPin_fuses ..⟩
  | powerOn => exact ⟨_, rfl, fullReset_fuses ..⟩
  | brownOut rail us => exact ⟨_, rfl, ite_fuses (fullReset_fuses ..) rfl⟩
  | watchdog stuckMs => exact ⟨_, rfl, watchdog_fuses ..⟩
  | kindlingBoot v => exact ⟨_, rfl, kindlingBoot_fuses ..⟩
  | supplyRecheck vmon => exact ⟨_, rfl, supplyRecheck_fuses ..⟩
  | portLink port up lanes gen => exact ⟨_, rfl, portLink_fuses ..⟩
  | deadlineRelease d => exact ⟨_, rfl, deadlineRelease_fuses ..⟩
  | fabLinkFault junction dir link cause => exact ⟨_, rfl, fabLinkFault_fuses ..⟩
  | fabJunctionFault junction => exact ⟨_, rfl, fabJunctionFault_fuses ..⟩
  | fabRerouteDone junctions ns => exact ⟨_, rfl, fabRerouteDone_fuses ..⟩
  | fabDamperLong junction vc => exact ⟨_, rfl, fabDamperLong_fuses ..⟩
  | entryStepComplete fault => exact ⟨_, rfl, entryStep_fuses ..⟩
  | drainTimeout => exact ⟨_, rfl, drainTimeout_fuses ..⟩
  | pwrWakeEvent source => exact ⟨_, rfl, wakeSource_fuses ..⟩
  | wakeStepReady lostBanks memTemp => exact ⟨_, rfl, wakeReady_fuses ..⟩
  | wakeStepTimeout => exact ⟨_, rfl, wakeStepTimeout_fuses ..⟩
  | thermalHigh sensor reading => exact ⟨_, rfl, thermalHigh_fuses ..⟩
  | thermalTrip sensor reading => exact ⟨_, rfl, thermalTrip_fuses ..⟩
  | marginPlan rates floorRate headroom => exact ⟨_, rfl, marginPlan_fuses ..⟩
  | canaryMeasure rates => exact ⟨_, rfl, canaryMeasure_fuses ..⟩
  | engineSelftest subsys engine pass => exact ⟨_, rfl, engineSelftest_fuses ..⟩
  | engineMigrated subsys engine cause takeoverUs => exact ⟨_, rfl, engineMigrated_fuses ..⟩
  | supplyFault rail mv us => exact ⟨_, rfl, supplyFault_fuses ..⟩
  | synthRelockTimeout radio => exact ⟨_, rfl, synthRelockTimeout_fuses ..⟩
  | scanDone radio found => exact ⟨_, rfl, scanDone_fuses ..⟩
  | fwActivate c => exact absurd rfl (hactivate c)
  | otpProgram c => exact absurd rfl (hprogram c)

/-- Settles O10: by `exec_keepsFuses`, row by row. -/
theorem onlyThreeRowsWriteTheFuseStore : Obligations.OnlyThreeRowsWriteTheFuseStore := by
  intro i s t h hactivate hprogram htimed
  obtain ⟨u, hu, hfuses⟩ := exec_keepsFuses i s hactivate hprogram htimed
  rw [hu] at h
  cases h
  exact hfuses

end Sys2Proof.Machine
end

section
/-! The fuse store only grows: counters rise (R89) and a generation, once written, stands (R94). -/

namespace Sys2Proof.Machine

/-! ### Growth -/

/-- The fuse store of `t` is that of `s` with counters raised and generations added. -/
def FusesGrow (s t : State) : Prop := CountersKept s t ∧ RecordsKept s t

theorem FusesGrow.of_fuses_eq {s t : State} (h : t.fuses = s.fuses) : FusesGrow s t := by
  constructor
  · intro i
    rw [h]
  · intro type
    unfold recGens
    rw [h]

theorem FusesGrow.trans {s t u : State} (hst : FusesGrow s t) (htu : FusesGrow t u) : FusesGrow s u :=
  ⟨fun i => (hst.1 i).trans (htu.1 i), fun type => (hst.2 type).trans (htu.2 type)⟩

theorem foldl_fusesGrow {α : Type} (g : State → α → State) (l : List α) (s : State) (h : ∀ s a, FusesGrow s (g s a)) :
    FusesGrow s (l.foldl g s) := by
  induction l generalizing s with
  | nil => exact .of_fuses_eq rfl
  | cons a l ih => exact (h s a).trans (ih (g s a))

/-! ### What a command leaves of the fuse store -/

/-- The fuse store of `t` is that of `s`, or what the plan makes of it. -/
def FusesByPlan (p : Plan) (s t : State) : Prop :=
  t.fuses = s.fuses ∨ ∃ u, u.fuses = s.fuses ∧ t.fuses = (p.run u).st.fuses

theorem runPlan_fusesByPlan (p : Plan) (e : OutCmd) (s : State) : FusesByPlan p s (runPlan p e s) := by
  unfold runPlan
  extract_lets s1
  have h1 : s1.fuses = s.fuses := modEntry_fuses ..
  clear_value s1
  split
  · left
    rw [finishEntry_fuses, h1]
  · split
    · left
      split
      · rw [finishEntry_fuses, h1]
      · rw [finishEntry_fuses, h1]
    · refine .inr ⟨s1, h1, ?_⟩
      split
      case h_1 hrun => rw [hrun, finishEntry_fuses, Done_st_reply]
      case h_2 hrun => rw [hrun, Done_st_defer]

/-- A command that comes up ends refused, waits for its time, or runs its plan. -/
theorem comeUp_fusesByPlan (p : Plan) (e : OutCmd) (s : State) : FusesByPlan p s (comeUp p e s) := by
  unfold comeUp
  extract_lets s1
  have h1 : s1.fuses = s.fuses := tick_fuses ..
  clear_value s1
  unfold FusesByPlan
  rw [← h1]
  by_cases ht : (Cmd.timed e.cmd && !Cmd.dryRun e.cmd) = true
  · rw [if_pos ht]
    left
    cases checkOpcode p e.cmd s1 with
    | some x => exact finishEntry_fuses ..
    | none =>
      cases checkPriv p e.cmd s1 with
      | some x => exact finishEntry_fuses ..
      | none =>
        cases checkComeUp e.cmd s1 with
        | some x => exact finishEntry_fuses ..
        | none => exact modEntry_fuses ..
  · rw [if_neg ht]
    exact runPlan_fusesByPlan p e s1

theorem FusesGrow.of_fusesByPlan {p : Plan} {s t : State} (h : FusesByPlan p s t) (hp : ∀ u, FusesGrow u (p.run u).st) :
    FusesGrow s t := by
  obtain h | ⟨u, hu, ht⟩ := h
  · exact .of_fuses_eq h
  · exact (FusesGrow.of_fuses_eq hu).trans ((hp u).trans (.of_fuses_eq ht))

/-- A command whose plan lets the fuse store grow does so, however it goes. -/
theorem hostCmd_fusesGrow {op : Nat} {plan : Cmd → State → Plan} (c : Cmd) (s : State)
    (hp : ∀ c s u, FusesGrow u ((plan c s).run u).st) : FusesGrow s (hostCmd op plan c s) := by
  unfold hostCmd
  extract_lets s1
  have h1 : FusesGrow s s1 := .of_fuses_eq (ite_fuses (addEntry_fuses ..) rfl)
  refine h1.trans ?_
  split
  · exact .of_fuses_eq rfl
  · split
    · exact .of_fuses_eq rfl
    · exact .of_fusesByPlan (comeUp_fusesByPlan ..) (hp c _)

/-! ### FW_ACTIVATE (R89, R93) -/

/-- An entry of a list put up to `v` is never below what it was. -/
theorem getD_le_getD_set {l : List Nat} {k v : Nat} (h : l.getD k 0 ≤ v) (i : Nat) : l.getD i 0 ≤ (l.set k v).getD i 0 := by
  rw [List.getD_eq_getElem?_getD] at h
  rw [List.getD_eq_getElem?_getD, List.getD_eq_getElem?_getD, List.getElem?_set]
  by_cases hk : k = i
  · subst hk
    by_cases hlen : k < l.length
    · simpa [hlen] using h
    · simp [hlen]
  · rw [if_neg hk]

/-- The counter of one image type rises, or nothing changes. -/
theorem raiseArb_fusesGrow (type v : Nat) (s : State) : FusesGrow s (raiseArb type v s) := by
  unfold raiseArb
  split
  case isTrue hlt => exact ⟨getD_le_getD_set hlt.le, fun _ => List.prefix_rfl⟩
  case isFalse => exact .of_fuses_eq rfl

/-- The counters of several image types rise, each to what the state and its type say. -/
theorem raiseArbs_fusesGrow (types : List Nat) (v : State → Nat → Nat) (s : State) :
    FusesGrow s (types.foldl (fun s type => raiseArb type (v s type) s) s) :=
  foldl_fusesGrow _ _ s fun _ _ => raiseArb_fusesGrow ..

theorem confirmRun_fusesGrow (s : State) : FusesGrow s (confirmRun s).st := by
  unfold confirmRun
  split
  · exact .of_fuses_eq rfl
  · extract_lets s1 boot s2
    have h1 : FusesGrow s s1 := raiseArbs_fusesGrow [1, 2, 3] (fun s type => s.boot.svn.getD type 0) s
    have h2 : s2.fuses = s1.fuses := rewriteDir_fuses ..
    clear_value s2 s1
    exact h1.trans (.of_fuses_eq ((raise_fuses ..).trans h2))

/-- Of the four operations only CONFIRM writes fuses. -/
theorem activateRun_fusesGrow (c : Cmd) (s : State) : FusesGrow s (activateRun c s).st := by
  unfold activateRun
  split
  · refine .of_fuses_eq ?_
    rw [Done_st_ok]
    exact ite_fuses ((scheduleReset_fuses ..).trans (rewriteDir_fuses ..)) (rewriteDir_fuses ..)
  · exact confirmRun_fusesGrow s
  · exact .of_fuses_eq (by rw [Done_st_ok, rewriteDir_fuses])
  · exact .of_fuses_eq rfl

theorem fwActivatePlan_fusesGrow (c : Cmd) (s t : State) : FusesGrow t ((fwActivatePlan c s).run t).st :=
  activateRun_fusesGrow c t

/-! ### OTP_PROGRAM (R94, R95) -/

/-- A record's next generation is appended, whether it programs well or not. -/
theorem fusesGrow_addGen (type : Nat) (g : FuseGen) (s : State) :
    FusesGrow s { s with fuses.recs := Tbl.put s.fuses.recs type (recGens s type ++ [g]) } := by
  refine ⟨fun _ => le_rfl, fun k => ?_⟩
  by_cases hk : k = type
  · subst hk
    show recGens s k <+: (Tbl.get? (Tbl.put s.fuses.recs k _) k).getD []
    rw [Tbl.get?_put_same]
    exact List.prefix_append ..
  · show recGens s k <+: (Tbl.get? (Tbl.put s.fuses.recs type _) k).getD []
    rw [Tbl.get?_put_other _ _ hk]
    exact List.prefix_rfl

theorem programRecord_fusesGrow (type : Nat) (payload : List Byte) (s : State) :
    FusesGrow s (programRecord type payload s).st := by
  unfold programRecord
  extract_lets gens ok old s1
  have h1 : FusesGrow s s1 := fusesGrow_addGen type ⟨ok, payload⟩ s
  clear_value s1
  refine h1.trans (.of_fuses_eq ?_)
  split
  · rw [Done_st_ok, raise_fuses, bump_fuses]
  · rw [Done_st_reply]

theorem programArb_fusesGrow (payload : List Byte) (s : State) : FusesGrow s (programArb payload s).st := by
  unfold programArb
  split
  · exact .of_fuses_eq rfl
  · extract_lets s1
    have h1 : FusesGrow s s1 := raiseArbs_fusesGrow [1, 2, 3] (fun _ type => popcount (u64 payload (8 * (type - 1))) 64) s
    clear_value s1
    exact h1.trans (.of_fuses_eq (raise_fuses ..))

theorem otpProgramPlan_fusesGrow (c : Cmd) (s t : State) : FusesGrow t ((otpProgramPlan c s).run t).st := by
  unfold otpProgramPlan
  dsimp only
  split
  · exact programArb_fusesGrow ..
  · exact programRecord_fusesGrow ..

/-! ### TIMED_COMMAND_START (R60) and every step -/

theorem planOf_fusesGrow {op : Nat} {c : Cmd} {s : State} {p : Plan} (h : planOf op c s = some p) (t : State) :
    FusesGrow t (p.run t).st := by
  by_cases hactivate : op = 0x1102
  · subst hactivate
    cases h
    exact fwActivatePlan_fusesGrow c s t
  · by_cases hprogram : op = 0x1106
    · subst hprogram
      cases h
      exact otpProgramPlan_fusesGrow c s t
    · exact .of_fuses_eq (planOf_fuses h hactivate hprogram t)

theorem timedStart_fusesGrow (s : State) : FusesGrow s (timedStart s) := by
  unfold timedStart
  split
  · exact .of_fuses_eq rfl
  · split
    · exact .of_fuses_eq rfl
    · rename_i e _
      extract_lets s1
      have h1 : FusesGrow s s1 := .of_fuses_eq ((tick_fuses ..).trans (tickToNs_fuses ..))
      clear_value s1
      refine h1.trans ?_
      split
      case h_1 p hp => exact .of_fusesByPlan (runPlan_fusesByPlan p e s1) (planOf_fusesGrow hp)
      case h_2 => exact .of_fuses_eq rfl

theorem exec_fusesGrow {i : Instr} {s t : State} (h : exec i s = .next t) : FusesGrow s t := by
  by_cases htimed : i = .timedCommandStart
  · subst htimed
    cases h
    exact timedStart_fusesGrow s
  · by_cases hactivate : ∃ c, i = .fwActivate c
    · obtain ⟨c, rfl⟩ := hactivate
      cases h
      exact hostCmd_fusesGrow c s fwActivatePlan_fusesGrow
    · by_cases hprogram : ∃ c, i = .otpProgram c
      · obtain ⟨c, rfl⟩ := hprogram
        cases h
        exact hostCmd_fusesGrow c s otpProgramPlan_fusesGrow
      · exact .of_fuses_eq (onlyThreeRowsWriteTheFuseStore i s t h (not_exists.1 hactivate) (not_exists.1 hprogram) htimed)

/-- Settles O11: an idle step leaves the fuse store, and every row lets it grow. -/
theorem rollbackCountersNeverDecrease : Obligations.RollbackCountersNeverDecrease := by
  intro s t h
  unfold step at h
  cases hq : s.pending with
  | nil =>
    rw [hq] at h
    cases h
    exact FusesGrow.of_fuses_eq (idle_fuses s)
  | cons c rest =>
    rw [hq] at h
    exact FusesGrow.trans (t := { s with pending := rest }) (.of_fuses_eq rfl) (exec_fusesGrow h)

end Sys2Proof.Machine
end

section
/-! The reset state (Table 3-17, R82) and the sources of a full reset (Table 4-2). -/

namespace Sys2Proof.Machine

/-! ### Registers after reset -/

/-- After reset no register is stored, so each reads as its table row says. -/
theorem rgRaw_reset {off : Nat} (h : off < 2 ^ 28) : rgRaw State.reset off = resetOf off := by
  show resetOf (off % 2 ^ 28) = resetOf off
  rw [Nat.mod_eq_of_lt h]

theorem resetOf_of_findReg {off : Nat} {r : RegRow} {i w : Nat} (h : findReg off = some (r, i, w)) : resetOf off = r.reset := by
  unfold resetOf
  rw [h]

/-- Settles O3: by `rgRaw_reset`, the named registers by their rows. -/
theorem resetRegistersReadTheirTableValue : Obligations.ResetRegistersReadTheirTableValue :=
  ⟨fun _ _ _ _ h hoff => (rgRaw_reset hoff).trans (resetOf_of_findReg h), by decide, by decide, by decide, by decide⟩

/-! ### What the reset state holds -/

/-- Settles O4: every table of the reset state is empty, so every look-up gives its default. -/
theorem resetLeavesNothingBehind : Obligations.ResetLeavesNothingBehind :=
  ⟨fun _ => rfl, rfl, rfl, rfl, rfl, rfl, rfl, rfl, rfl, rfl, rfl, fun _ => rfl, fun _ => rfl, rfl⟩

/-- Settles O12: each of the three counters starts at 0, and the table of records is empty. -/
theorem theFuseStoreIsUnprogrammedAtReset : Obligations.TheFuseStoreIsUnprogrammedAtReset := by
  refine ⟨fun t h1 h3 => ?_, fun _ => rfl⟩
  interval_cases t
  · rfl
  · rfl
  · rfl

/-! ### Reset sources (R82, R83) -/

theorem bit_eq_testBit (x n : Nat) : bit x n = x.testBit n := by
  rw [Nat.testBit_eq_decide_div_mod_eq]
  rfl

/-- A full reset sets the bit of its cause and clears no other. -/
theorem bit_fullReset_cause (n : Nat) (s : State) (k : Nat) :
    bit (fullReset n s).boot.cause k = (bit s.boot.cause k || k == n) := by
  show bit (s.boot.cause ||| 2 ^ n) k = _
  rw [bit_eq_testBit, bit_eq_testBit, Nat.testBit_or, Nat.testBit_two_pow]
  grind

theorem resetPin_of_long {ns : Nat} (h : 1000 ≤ ns) (s : State) : resetPin ns s = fullReset 1 s := by
  unfold resetPin
  rw [if_neg (by omega), if_neg (by omega)]

theorem resetPin_of_filtered {ns : Nat} (h : ns < 50) (s : State) : resetPin ns s = s :=
  if_pos h

theorem commandReset_of_scheduled {s : State} {at_ : Nat} (h : s.boot.resetAt = some at_) :
    commandReset s = { fullReset 2 s with boot.force := s.boot.resetSlot } := by
  unfold commandReset
  rw [h]

/-- A watchdog that is not suspended acts where the heartbeat has stood still for its limit. -/
theorem watchdog_of_expired {ms : Nat} {s : State} (hrun : bit (rgRaw s R.OTP_WDT) 31 = false) (hbeat : s.boot.beatFrom ≠ none)
    (hms : bits (rgRaw s R.OTP_WDT) 15 0 ≤ ms) : watchdog ms s = fullReset 3 s := by
  unfold watchdog
  extract_lets w
  rw [if_neg]
  rintro (h | h | h)
  · exact absurd (hrun.symm.trans h) Bool.false_ne_true
  · exact hbeat h
  · exact absurd hms (Nat.not_le.2 h)

/-- Settles O23: each source is a full reset with its cause, by the equations above. -/
theorem resetSourcesAndTheirFullReset : Obligations.ResetSourcesAndTheirFullReset := by
  unfold Obligations.ResetSourcesAndTheirFullReset
  intro after
  have hfull (n : Nat) (s : State) : after n s (fullReset n s) := ⟨rfl, bit_fullReset_cause n s⟩
  refine ⟨fun s => ?_, fun ns s hns => ?_, fun ns s hns => ?_, fun s at_ hat => ?_, fun ms s hrun hbeat hms => ?_,
    fun rail us s hrail hus => ?_⟩
  · exact ⟨_, rfl, hfull 0 s, rfl⟩
  · exact ⟨_, congrArg Host.Outcome.next (resetPin_of_long hns s), hfull 1 s, rfl⟩
  · exact congrArg Host.Outcome.next (resetPin_of_filtered hns s)
  · exact ⟨_, congrArg Host.Outcome.next (commandReset_of_scheduled hat), ⟨rfl, bit_fullReset_cause 2 s⟩, rfl⟩
  · exact ⟨_, congrArg Host.Outcome.next (watchdog_of_expired hrun hbeat hms), hfull 3 s, rfl⟩
  · exact ⟨_, congrArg Host.Outcome.next (if_pos ⟨hrail, hus⟩), hfull 4 s, rfl⟩

end Sys2Proof.Machine
end

section
/-! What sending a packet, draining a flow and making a task ready leave: legs, conferences and the mixer. -/

namespace Sys2Proof.Machine

/-- An update that keeps a view of the state keeps it over a list. -/
theorem foldl_kept {σ α β : Type} (view : σ → β) (g : σ → α → σ) (l : List α) (a : σ) (h : ∀ a x, view (g a x) = view a) :
    view (l.foldl g a) = view a := by
  induction l generalizing a with
  | nil => rfl
  | cons x l ih => exact (ih _).trans (h a x)

/-- Legs, conferences and the mixer with its jitter buffers: what the rest of the device leaves to the voice rows. -/
def State.party (s : State) : Tbl Leg × Tbl Conf × Audio := (s.legs, s.confs, s.audio)

theorem party_of_device {s t : State} (h : t.device = s.device) : t.party = s.party := (congrArg State.party h :)

theorem legs_of_party {s t : State} (h : t.party = s.party) : t.legs = s.legs := congrArg Prod.fst h

@[simp] theorem emit_party (o : Output) (s : State) : (emit o s).party = s.party := rfl
@[simp] theorem bump_party (k : Nat) (s : State) : (bump k s).party = s.party := rfl
@[simp] theorem bumpBy_party (k n : Nat) (s : State) : (bumpBy k n s).party = s.party := rfl
@[simp] theorem trackMax_party (k n : Nat) (s : State) : (trackMax k n s).party = s.party := rfl
@[simp] theorem modSession_party (i : Nat) (f : Session → Session) (s : State) : (modSession i f s).party = s.party := rfl
@[simp] theorem modKey_party (k : Nat) (f : Key → Key) (s : State) : (modKey k f s).party = s.party := rfl

@[simp] theorem raise_party (k : EvKind) (h : Word) (d : List Byte) (s : State) : (raise k h d s).party = s.party :=
  party_of_device (raise_device ..)

@[simp] theorem raiseUnless_party (m n : Nat) (k : EvKind) (h : Word) (d : List Byte) (s : State) :
    (raiseUnless m n k h d s).party = s.party := party_of_device (raiseUnless_device ..)

@[simp] theorem finishRunning_party (rs : Nat) (tag : Word) (st d p : Nat) (r : List Byte) (s : State) :
    (finishRunning rs tag st d p r s).party = s.party := party_of_device (finishRunning_device ..)

@[simp] theorem leaveLeases_party (h : Word) (s : State) : (leaveLeases h s).party = s.party :=
  foldl_kept State.party _ _ _ fun _ _ => party_of_device (raiseTo_device ..)

/-! ### Capture (R360–R370) -/

@[simp] theorem ringStore_party (x : Session) (n : Nat) (s : State) : (ringStore x n s).party = s.party :=
  foldl_kept State.party _ _ _ fun _ _ => foldl_kept State.party _ _ _ fun _ _ => rfl

@[simp] theorem capLose_party (i cause ch n : Nat) (s : State) : (capLose i cause ch n s).party = s.party := by
  unfold capLose
  split
  · rfl
  · extract_lets s1 y quiet
    split
    · rfl
    · exact raiseUnless_party ..

@[simp] theorem capDone_party (i cause : Nat) (s : State) : (capDone i cause s).party = s.party := by
  unfold capDone
  split
  · rfl
  · exact raise_party ..

@[simp] theorem capStored_party (i : Nat) (r : Rec) (x y : Session) (k : Nat) (s : State) :
    (capStored i r x y k s).party = s.party := by
  unfold capStored
  extract_lets y s1 s2
  have h1 : s1.party = s.party := by simp [s1]
  have h2 : s2.party = s1.party := by unfold s2; split <;> simp
  split
  · rw [capDone_party, h2, h1]
  · rw [h2, h1]

@[simp] theorem capStarved_party (s : State) : (capStarved s).2.party = s.party := by
  unfold capStarved
  split <;> rfl

@[simp] theorem capStore_party (i : Nat) (r : Rec) (s : State) : (capStore i r s).party = s.party := by
  unfold capStore
  split
  · rfl
  · split
    · rfl
    · extract_lets ms base y
      split
      rename_i hq
      have h : _ = s.party := (congrArg (fun q => q.2.party) hq).symm.trans (capStarved_party s)
      split
      · rw [capLose_party, h]
      · split
        · rw [capLose_party, h]
        · split
          · rw [capLose_party, h]
          · rw [capStored_party, h]

@[simp] theorem capPulse_party (x : Session) (n : Nat) (s : State) : (capPulse x n s).party = s.party := by
  unfold capPulse
  split <;> rfl

@[simp] theorem capTrigger_party (i n own : Nat) (s : State) : (capTrigger i n own s).party = s.party := by
  unfold capTrigger
  split
  · rfl
  · split
    · simp
    · split
      · simp
      · split <;> simp

@[simp] theorem decideFilter_party (u : TapUnit) (l : List (Nat × CapFilter)) (s : State) :
    (decideFilter u l s).2.party = s.party := by
  induction l generalizing s with
  | nil => rfl
  | cons e l ih =>
    unfold decideFilter
    split
    · split
      · rfl
      · exact ih _
    · exact ih _

@[simp] theorem tapSession_party (u : TapUnit) (s : State) (i : Nat) : (tapSession u s i).party = s.party := by
  have hd := decideFilter_party u (s.cap.filters.filter (fun e => e.2.session == i)) s
  unfold tapSession
  split <;> rename_i hq <;> rw [hq] at hd
  · exact hd
  · simp only at hd ⊢
    split
    · exact hd
    · split
      · split <;> simp [hd]
      · split
        · simp [hd]
        · split <;> simp [hd]

@[simp] theorem tap_party (u : TapUnit) (s : State) : (tap u s).party = s.party :=
  foldl_kept State.party _ _ _ fun s i => tapSession_party u s i

/-! ### Ciphers and frames (R154, R166, R171) -/

theorem ite_freeBytes_party (p : Prop) [Decidable p] (n : Nat) (d : List Byte) (s : State) :
    (if p then freeBytes n s else (d, s)).2.party = s.party := by
  split <;> rfl

@[simp] theorem tapTransmit_party (iface bytes : Nat) (d : List Byte) (b : Bool) (f : Option Nat) (o : Word) (s : State) :
    (tapTransmit iface bytes d b f o s).party = s.party := by
  unfold tapTransmit
  split
  · rfl
  · split
    rename_i body s1 hq
    have h1 : s1.party = s.party := (congrArg (fun q => q.2.party) hq).symm.trans (ite_freeBytes_party ..)
    extract_lets one s2
    split
    rename_i wire s3 hq
    have h3 : s3.party = s2.party := (congrArg (fun q => q.2.party) hq).symm.trans (ite_freeBytes_party ..)
    exact (tap_party ..).trans (h3.trans ((tap_party ..).trans h1))

theorem warnNonce_party (k n : Nat) (s : State) : (warnNonce k n s).party = s.party := by
  unfold warnNonce
  extract_lets x w
  split
  · rfl
  · exact raiseUnless_party ..

theorem chargePipe_party (k bytes : Nat) (lingers : Bool) (s : State) : (chargePipe k bytes lingers s).party = s.party := by
  unfold chargePipe
  extract_lets x load s1 s2
  change s1.party = s.party
  unfold s1
  split <;> rfl

@[simp] theorem cipherSend_party (k bytes : Nat) (rtcp lingers : Bool) (s : State) :
    (cipherSend k bytes rtcp lingers s).2.party = s.party := by
  unfold cipherSend
  extract_lets x limit now s1 s2
  split
  · rfl
  · split
    · split
      · rfl
      · exact raise_party ..
    · exact (warnNonce_party ..).trans (chargePipe_party ..)

@[simp] theorem macsecOut_party (iface bytes what : Nat) (s : State) : (macsecOut iface bytes what s).2.party = s.party := by
  unfold macsecOut
  simp only
  split
  · rfl
  · split
    · split <;> simp
    · rfl

@[simp] theorem wlanEnqueue_party (i ac : Nat) (s : State) : (wlanEnqueue i ac s).party = s.party := by
  unfold wlanEnqueue
  split
  · rfl
  · simp only
    split
    · rfl
    · split <;> rfl
    · rfl

/-- A frame that leaves, wherever to, changes no leg, no conference and nothing of the mixer. -/
@[simp] theorem transmit_party (iface bytes what : Nat) (d : List Byte) (f : Option Nat) (o : Word) (s : State) :
    (transmit iface bytes what d f o s).party = s.party := by
  unfold transmit
  split
  · split <;> simp
  · split
    · simp only
      split <;> simp
    · rfl

/-! ### Flows, keys and tasks (R14, R111, R160, R169) -/

@[simp] theorem eraseSlot_party (k : Nat) (by_ : Nat × Word) (s : State) : (eraseSlot k by_ s).party = s.party := by
  have hzero (s : State) : (zeroiseSlot k s).party = s.party := leaveLeases_party ..
  unfold eraseSlot finishErase
  simp only
  split
  · split <;> simp [hzero]
  · rfl

@[simp] theorem legAdvance_party (i : Nat) (s : State) : (legAdvance i s).party = s.party := by
  unfold legAdvance
  split
  · rfl
  · split
    · rfl
    · split
      · rfl
      · simp only
        split
        · exact foldl_kept State.party _ _ _ fun _ _ => rfl
        · exact foldl_kept State.party _ _ _ fun _ _ => eraseSlot_party ..

@[simp] theorem updateReady_party (i : Nat) (s : State) : (updateReady i s).party = s.party := by
  have henter (t : Task) : (enterReady i t s).party = s.party := by
    unfold enterReady
    simp only [trackMax_party]
    split <;> rfl
  unfold updateReady
  split
  · rfl
  · split
    · exact henter _
    · rfl

end Sys2Proof.Machine
end

section
/-! The block boundary and the class encodes (R177, R195–R204): the block last mixed, the sets of the buses and the frame
starts of the classes, which all other work of these rows leaves alone. -/

namespace Sys2Proof.Machine

/-! ### The grid of the mixer -/

/-- What places the mixer's work in time: the block last mixed, each bus's active and waiting sets, each class's next frame. -/
structure MixGrid where
  lastBlock : Option Nat
  sets      : Nat → Option (BusSet × List ShadowSet)
  starts    : Nat → Nat → Option Nat

/-- The grid after block `n` has been mixed. -/
def MixGrid.mixed (n : Nat) (g : MixGrid) : MixGrid := { g with lastBlock := some n }

/-- The grid with other sets of bus `b`. -/
def MixGrid.setBus (b : Nat) (x : Option (BusSet × List ShadowSet)) (g : MixGrid) : MixGrid :=
  { g with sets := Function.update g.sets b x }

theorem MixGrid.setBus_self (b : Nat) (g : MixGrid) : g.setBus b (g.sets b) = g := by
  unfold MixGrid.setBus
  rw [Function.update_eq_self]

def Bus.sets (b : Bus) : BusSet × List ShadowSet := (b.active, b.shadows)

/-- The starts of a conference's classes. -/
def Conf.starts (cf : Conf) (k : Nat) : Option Nat := (Tbl.get? cf.classes k).map MixClass.start

def State.grid (s : State) : MixGrid where
  lastBlock := s.audio.lastBlock
  sets b := (Tbl.get? s.audio.buses b).map Bus.sets
  starts c := (confOf s c).starts

theorem grid_lastBlock (s : State) : s.grid.lastBlock = s.audio.lastBlock := rfl

theorem grid_sets (s : State) (b : Nat) : s.grid.sets b = (Tbl.get? s.audio.buses b).map Bus.sets := rfl

theorem grid_starts (s : State) (c k : Nat) : s.grid.starts c k = (Tbl.get? (confOf s c).classes k).map MixClass.start := rfl

theorem grid_of_party {s t : State} (h : t.party = s.party) : t.grid = s.grid :=
  congrArg (fun p : Tbl Leg × Tbl Conf × Audio => ({ lastBlock := p.2.2.lastBlock
                                                     sets := fun b => (Tbl.get? p.2.2.buses b).map Bus.sets
                                                     starts := fun c => ((Tbl.get? p.2.1 c).getD {}).starts } : MixGrid)) h

@[simp] theorem tick_grid (n : Nat) (s : State) : (tick n s).grid = s.grid := rfl

@[simp] theorem bump_grid (k : Nat) (s : State) : (bump k s).grid = s.grid := rfl

@[simp] theorem noteInput_grid (n : Nat) (inputs : List LegInput) (z : Int) (x : List Int) (i : Nat) (s : State) :
    (noteInput n inputs z x i s).grid = s.grid := rfl
@[simp] theorem takePorts_grid (s : State) : (takePorts s).grid = s.grid := rfl
@[simp] theorem dropInserts_grid (s : State) : (dropInserts s).grid = s.grid := rfl

@[simp] theorem raise_grid (k : EvKind) (h : Word) (d : List Byte) (s : State) : (raise k h d s).grid = s.grid :=
  grid_of_party (raise_party ..)

@[simp] theorem raiseUnless_grid (m n : Nat) (k : EvKind) (h : Word) (d : List Byte) (s : State) :
    (raiseUnless m n k h d s).grid = s.grid := grid_of_party (raiseUnless_party ..)

@[simp] theorem finishRunning_grid (rs : Nat) (tag : Word) (st d p : Nat) (r : List Byte) (s : State) :
    (finishRunning rs tag st d p r s).grid = s.grid := grid_of_party (finishRunning_party ..)

@[simp] theorem legAdvance_grid (i : Nat) (s : State) : (legAdvance i s).grid = s.grid := grid_of_party (legAdvance_party ..)

@[simp] theorem updateReady_grid (i : Nat) (s : State) : (updateReady i s).grid = s.grid := grid_of_party (updateReady_party ..)

theorem foldl_grid {α : Type} (g : State → α → State) (l : List α) (s : State) (h : ∀ s a, (g s a).grid = s.grid) :
    (l.foldl g s).grid = s.grid := foldl_kept State.grid g l s h

theorem Tbl.get?_each {α : Type} (t : Tbl α) (f : Nat → α → α) (k : Nat) : Tbl.get? (Tbl.each t f) k = (Tbl.get? t k).map (f k) := by
  induction t with
  | nil => rfl
  | cons e t ih =>
    rw [show Tbl.each (e :: t) f = (e.1, f e.1 e.2) :: Tbl.each t f from rfl]
    by_cases h : e.1 = k
    · subst h; simp [Tbl.get?]
    · simp [Tbl.get?, h, ih]

/-- A change of the buses that leaves their sets, and of nothing else on the grid, leaves the grid. -/
theorem eachBus_grid (f : Nat → Bus → Bus) (legs : Tbl MixLeg) (s : State) (hf : ∀ n b, (f n b).sets = b.sets := by intros; rfl) :
    ({ s with audio.legs := legs, audio.buses := Tbl.each s.audio.buses f } : State).grid = s.grid := by
  have h (b : Nat) : (Tbl.get? (Tbl.each s.audio.buses f) b).map Bus.sets = (Tbl.get? s.audio.buses b).map Bus.sets := by
    rw [Tbl.get?_each, Option.map_map]
    exact congrArg (Option.map · _) (funext (hf b))
  exact congrArg (fun g => ({ s.grid with sets := g } : MixGrid)) (funext h)

theorem modBus_grid_sets (b : Nat) (f : Bus → Bus) (s : State) :
    (modBus b f s).grid = s.grid.setBus b ((Tbl.get? s.audio.buses b).map fun x => (f x).sets) := by
  have h (x : Nat) : (modBus b f s).grid.sets x
      = Function.update s.grid.sets b ((Tbl.get? s.audio.buses b).map fun x => (f x).sets) x := by
    change (Tbl.get? (Tbl.modify s.audio.buses b f) x).map Bus.sets = _
    rw [Tbl.get?_modify]
    by_cases hx : x = b
    · subst hx; simp [Function.comp_def]
    · simp [hx, State.grid]
  exact congrArg (fun g => ({ s.grid with sets := g } : MixGrid)) (funext h)

theorem modBus_grid (b : Nat) (f : Bus → Bus) (s : State) (hf : ∀ x, (f x).sets = x.sets := by intros; rfl) :
    (modBus b f s).grid = s.grid := by
  rw [modBus_grid_sets, show (fun x => (f x).sets) = Bus.sets from funext hf]
  exact MixGrid.setBus_self b s.grid

theorem confOf_modConf (c : Nat) (f : Conf → Conf) (s : State) (x : Nat) :
    confOf (modConf c f s) x = if x = c ∧ (Tbl.get? s.confs x).isSome then f (confOf s x) else confOf s x := by
  change (Tbl.get? (Tbl.modify s.confs c f) x).getD {} = _
  rw [Tbl.get?_modify]
  by_cases hx : x = c
  · subst hx
    cases h : Tbl.get? s.confs x <;> simp [confOf, h]
  · simp [confOf, hx]

theorem modConf_grid (c : Nat) (f : Conf → Conf) (s : State) (hf : ∀ cf, (f cf).starts = cf.starts := by intros; rfl) :
    (modConf c f s).grid = s.grid := by
  have h (x : Nat) : (confOf (modConf c f s) x).starts = (confOf s x).starts := by
    rw [confOf_modConf]
    split
    · exact hf _
    · rfl
  exact congrArg (fun g => ({ s.grid with starts := g } : MixGrid)) (funext h)

/-- A change of one class that leaves its start leaves the starts. -/
theorem Conf.starts_modify (cf : Conf) (k : Nat) (f : MixClass → MixClass) (hf : ∀ m, (f m).start = m.start := by intros; rfl) :
    ({ cf with classes := Tbl.modify cf.classes k f } : Conf).starts = cf.starts := by
  funext x
  change (Tbl.get? (Tbl.modify cf.classes k f) x).map MixClass.start = _
  rw [Tbl.get?_modify]
  split
  · rw [Option.map_map]
    exact congrArg (Option.map · _) (funext hf)
  · rfl

@[simp] theorem settleClass_grid (c k : Nat) (s : State) : (settleClass c k s).grid = s.grid := by
  unfold settleClass
  split
  · exact modConf_grid _ _ _ fun cf => Conf.starts_modify ..
  · rfl

/-! ### The parts of a block boundary (R177, R189–R205) -/

@[simp] theorem fadeLeg_grid (i : Nat) (g : Rat) (s : State) : (fadeLeg i g s).grid = s.grid := by
  unfold fadeLeg
  split <;> rfl

@[simp] theorem leaveConf_grid (i : Nat) (s : State) : (leaveConf i s).grid = s.grid := by
  unfold leaveConf
  split
  · rfl
  · extract_lets s1 s2 xf
    refine (modConf_grid ..).trans ((eachBus_grid _ _ s2 ?_).trans (fadeLeg_grid ..))
    intro _ b
    split <;> rfl

@[simp] theorem closeLegs_grid (s : State) : (closeLegs s).grid = s.grid :=
  foldl_grid _ _ _ fun _ _ => (legAdvance_grid ..).trans (leaveConf_grid ..)

@[simp] theorem noteLate_grid (h : Word) (leg : Option Nat) (kind n : Nat) (s : State) : (noteLate h leg kind n s).grid = s.grid := by
  unfold noteLate
  extract_lets s1 s2
  rw [raise_grid]
  unfold s2
  split <;> rfl

@[simp] theorem passInsert_grid (o : Nat × Nat) (n xf : Nat) (x : List Int) (task : Nat) (s : State) :
    (passInsert o n xf x task s).2.grid = s.grid := by
  unfold passInsert
  split
  · rfl
  · extract_lets key src h s1
    split
    · rfl
    · extract_lets r y
      change r.2.grid = s.grid
      unfold r
      split
      · dsimp only
        split
        · rfl
        · exact raiseUnless_grid ..
      · split
        · rfl
        · exact noteLate_grid ..

@[simp] theorem passInserts_grid (o : Nat × Nat) (n xf : Nat) (l : List Nat) (x : List Int) (s : State) :
    (passInserts o n xf l x s).2.grid = s.grid :=
  foldl_kept (fun a : List Int × State => a.2.grid) _ _ _ fun _ _ => passInsert_grid ..

@[simp] theorem takeInputs_grid (n : Nat) (inputs : List LegInput) (s : State) : (takeInputs n inputs s).2.grid = s.grid := by
  refine foldl_kept (fun a : Tbl (List Int) × State => a.2.grid) _ _ _ fun a e => ?_
  refine foldl_kept (fun a : Tbl (List Int) × State => a.2.grid) _ _ _ fun a i => ?_
  dsimp only
  rw [passInserts_grid, noteInput_grid]
  split
  · exact noteLate_grid ..
  · rfl

@[simp] theorem formBus_grid (n : Nat) (eff : Tbl (List Int)) (b : Nat) (s : State) : (formBus n eff b s).grid = s.grid := by
  unfold formBus
  split
  · rfl
  · extract_lets terms k g r q xf s1 s2 s3 y s4 quiet
    have h1 : s1.grid = s.grid := by unfold s1; split <;> rfl
    have h4 : s4.grid = s.grid := by
      unfold s4 y
      exact (modBus_grid ..).trans ((passInserts_grid ..).trans h1)
    clear_value s4
    split
    · exact h4
    · split
      · exact (modBus_grid ..).trans h4
      · exact (raiseUnless_grid ..).trans ((modBus_grid ..).trans h4)

@[simp] theorem formBuses_grid (n : Nat) (eff : Tbl (List Int)) (s : State) : (formBuses n eff s).grid = s.grid :=
  foldl_grid _ _ _ fun _ _ => foldl_grid _ _ _ fun _ _ => formBus_grid ..

@[simp] theorem formOutput_grid (eff : Tbl (List Int)) (c i : Nat) (s : State) : (formOutput eff c i s).grid = s.grid := by
  unfold formOutput
  extract_lets m b
  split <;> rfl

@[simp] theorem formOutputs_grid (eff : Tbl (List Int)) (s : State) : (formOutputs eff s).grid = s.grid := by
  refine foldl_grid _ _ _ fun s e => foldl_grid _ _ _ fun s i => ?_
  split
  · exact formOutput_grid ..
  · rfl

@[simp] theorem pushInserts_grid (n : Nat) (s : State) : (pushInserts n s).grid = s.grid :=
  foldl_grid _ _ _ fun _ _ => updateReady_grid ..

@[simp] theorem passRamps_grid (s : State) : (passRamps s).grid = s.grid :=
  eachBus_grid _ _ s

@[simp] theorem startRamps_grid (s : State) : (startRamps s).grid = s.grid :=
  eachBus_grid _ _ s

@[simp] theorem tickTasks_grid (n : Nat) (s : State) : (tickTasks n s).grid = s.grid :=
  foldl_grid _ _ _ fun _ _ => updateReady_grid ..

@[simp] theorem noteTalkers_grid (c enter leave_ block : Nat) (s : State) : (noteTalkers c enter leave_ block s).grid = s.grid := by
  unfold noteTalkers
  split
  · exact raiseUnless_grid ..
  · rfl

@[simp] theorem enterTalker_grid (c n xf : Nat) (s : State) (i : Nat) : (enterTalker c n xf s i).grid = s.grid := by
  have hplain : (enterPlain c i n xf s).grid = s.grid := noteTalkers_grid ..
  unfold enterTalker
  extract_lets m
  split
  · rfl
  · exact hplain
  · rfl
  · rfl
  · split <;> rfl
  · rfl

@[simp] theorem dropTalker_grid (c n xf : Nat) (s : State) (i : Nat) : (dropTalker c n xf s i).grid = s.grid := by
  unfold dropTalker
  extract_lets m
  split
  · exact noteTalkers_grid ..
  · rfl
  · rfl
  · rfl
  · rfl

@[simp] theorem selectAll_grid (n : Nat) (s : State) : (selectAll n s).grid = s.grid := by
  refine foldl_grid _ _ _ fun s e => ?_
  extract_lets c cf set old same s1 s2
  rw [foldl_grid _ _ _ fun _ _ => enterTalker_grid .., foldl_grid _ _ _ fun _ _ => dropTalker_grid ..]
  have h1 : s1.grid = s.grid := modConf_grid ..
  unfold s2
  split
  · exact h1
  · exact h1

@[simp] theorem forgetLeft_grid (s : State) : (forgetLeft s).grid = s.grid := by
  refine foldl_grid _ _ _ fun s e => foldl_grid _ _ _ fun s i => ?_
  extract_lets m s1 src s2
  refine (foldl_grid _ _ _ fun s o => ?settle).trans ?_
  case settle =>
    split
    · exact settleClass_grid ..
    · rfl
  have h1 : s1.grid = s.grid := modConf_grid ..
  unfold s2
  split
  · exact h1
  · exact h1

/-! ### Swaps (R204) -/

/-- The sets of a bus at the start of block `n`: its oldest waiting set becomes active where it is due. -/
def takeDue (n : Nat) (x : BusSet × List ShadowSet) : BusSet × List ShadowSet :=
  match x.2 with
  | [] => x
  | w :: rest => if n < w.at_.getD n then x else (w.set, rest)

theorem swapBus_grid (n b : Nat) (s : State) :
    (swapBus n b s).grid = s.grid.setBus b ((s.grid.sets b).map (takeDue n)) := by
  have hstays (h : (s.grid.sets b).map (takeDue n) = s.grid.sets b) :
      s.grid = s.grid.setBus b ((s.grid.sets b).map (takeDue n)) := by
    rw [h, MixGrid.setBus_self]
  unfold swapBus
  split
  next hb => exact hstays (by simp [State.grid, hb])
  next bus hb =>
    have hsets : s.grid.sets b = some bus.sets := by simp [State.grid, hb]
    split
    next hw => exact hstays (by simp [hsets, takeDue, Bus.sets, hw])
    next w rest hw =>
      split
      next hlate => exact hstays (by simp [hsets, takeDue, Bus.sets, hw, hlate])
      next hdue =>
        extract_lets s1 s2
        rw [finishRunning_grid, show s2.grid = s1.grid from raiseUnless_grid .., modBus_grid_sets, hb, hsets]
        simp [takeDue, Bus.sets, hw, hdue]

theorem swapBus_sets_other {n b x : Nat} (hx : x ≠ b) (s : State) : (swapBus n b s).grid.sets x = s.grid.sets x := by
  rw [swapBus_grid]
  exact Function.update_of_ne hx ..

theorem swapBus_sets_same (n b : Nat) (s : State) : (swapBus n b s).grid.sets b = (s.grid.sets b).map (takeDue n) := by
  rw [swapBus_grid]
  exact Function.update_self ..

@[simp] theorem swapBuses_lastBlock (n : Nat) (s : State) : (swapBuses n s).grid.lastBlock = s.grid.lastBlock :=
  foldl_kept (fun s => s.grid.lastBlock) _ _ _ fun s b => congrArg MixGrid.lastBlock (swapBus_grid n b s)

/-- A bus without a waiting set keeps its active one, whatever swaps. -/
theorem foldl_swapBus_idle {n b : Nat} {a : BusSet} (l : List Nat) {s : State} (h : s.grid.sets b = some (a, [])) :
    (l.foldl (fun s x => swapBus n x s) s).grid.sets b = some (a, []) := by
  induction l generalizing s with
  | nil => exact h
  | cons x l ih =>
    refine ih ?_
    by_cases hx : b = x
    · subst hx; rw [swapBus_sets_same, h]; rfl
    · rw [swapBus_sets_other hx, h]

/-- A bus among those that swap takes its one waiting set where it is due. -/
theorem foldl_swapBus_due {n b : Nat} {a : BusSet} {w : ShadowSet} (hdue : w.at_.getD n ≤ n) {l : List Nat} (hb : b ∈ l) {s : State}
    (h : s.grid.sets b = some (a, [w])) : (l.foldl (fun s x => swapBus n x s) s).grid.sets b = some (w.set, []) := by
  induction l generalizing s with
  | nil => cases hb
  | cons x l ih =>
    by_cases hx : b = x
    · subst hx
      refine foldl_swapBus_idle l ?_
      rw [swapBus_sets_same, h]
      simp [takeDue, Nat.not_lt.2 hdue]
    · exact ih ((List.mem_cons.1 hb).resolve_left hx) ((swapBus_sets_other hx s).trans h)

theorem Tbl.mem_keys_of_get? {α : Type} {t : Tbl α} {k : Nat} {a : α} (h : Tbl.get? t k = some a) : k ∈ Tbl.keys t := by
  induction t with
  | nil => cases h
  | cons e t ih =>
    by_cases he : e.1 = k
    · subst he; exact List.mem_cons_self
    · exact List.mem_cons_of_mem _ (ih (by simpa [Tbl.get?, he] using h))

theorem swapBuses_due {n b : Nat} {a : BusSet} {w : ShadowSet} {s : State} (h : s.grid.sets b = some (a, [w]))
    (hdue : w.at_.getD n ≤ n) : (swapBuses n s).grid.sets b = some (w.set, []) := by
  obtain ⟨bus, hbus, -⟩ := Option.map_eq_some_iff.1 ((grid_sets s b).symm.trans h)
  exact foldl_swapBus_due hdue (Tbl.mem_keys_of_get? hbus) h

/-! ### BLOCK_BOUNDARY (R177) -/

theorem lastBlock_grid (n : Nat) (s : State) : ({ s with audio.lastBlock := some n } : State).grid = s.grid.mixed n := rfl

/-- The block that a BLOCK_BOUNDARY mixes: the present one where it is the first or follows the block last mixed, else the one
that has just ended. -/
def blockEnding (s : State) : Nat :=
  if nowBlock s = 0 ∨ s.audio.lastBlock = some (nowBlock s - 1) then nowBlock s else nowBlock s - 1

/-- On the grid a block boundary counts its block as mixed and then swaps; all its other work leaves the grid alone. -/
theorem blockBoundary_grid (inputs : List LegInput) (s : State) : ∃ u : State,
    u.grid = s.grid.mixed (blockEnding s) ∧
    (blockBoundary inputs s).grid = (swapBuses (blockEnding s + 1) u).grid := by
  unfold blockBoundary
  extract_lets now mixed s1 n
  have hn : n = blockEnding s := rfl
  rw [← hn]
  clear_value n

  have h1 : s1.grid = s.grid := by
    unfold s1
    split
    · exact tick_grid ..
    · rfl
  clear_value s1
  split
  rename_i eff s2 hq
  have h2 : s2.grid = s1.grid :=
    (congrArg (fun q => q.2.grid) hq).symm.trans ((takeInputs_grid ..).trans (closeLegs_grid ..))
  extract_lets s3 s4 s5 src s6 s7
  have h5 : s5.grid = s.grid := by simp [s5, s4, s3, h2, h1]
  refine ⟨startRamps s6, ?_, ?_⟩
  · exact (startRamps_grid ..).trans ((selectAll_grid ..).trans ((lastBlock_grid n s5).trans (by rw [h5])))
  · rw [tickTasks_grid, takePorts_grid, dropInserts_grid, forgetLeft_grid]

theorem blockBoundary_lastBlock (inputs : List LegInput) (s : State) :
    (blockBoundary inputs s).audio.lastBlock = some (blockEnding s) := by
  obtain ⟨u, hu, ht⟩ := blockBoundary_grid inputs s
  rw [← grid_lastBlock, ht, swapBuses_lastBlock, hu]
  rfl

/-- A bus whose one waiting set is due at the block that starts takes it (R204). -/
theorem blockBoundary_takesSet (inputs : List LegInput) {s : State} {b : Nat} {bus : Bus} {w : ShadowSet}
    (hb : Tbl.get? s.audio.buses b = some bus) (hw : bus.shadows = [w]) (hdue : w.at_.getD (blockEnding s + 1) ≤ blockEnding s + 1) :
    ∃ bus', Tbl.get? (blockBoundary inputs s).audio.buses b = some bus' ∧ bus'.active = w.set ∧ bus'.shadows = [] := by
  obtain ⟨u, hu, ht⟩ := blockBoundary_grid inputs s
  have hset : u.grid.sets b = some (bus.active, [w]) := by
    calc u.grid.sets b = (Tbl.get? s.audio.buses b).map Bus.sets := congrArg (MixGrid.sets · b) hu
      _ = some (bus.active, [w]) := by rw [hb, ← hw]; rfl
  have hafter : (blockBoundary inputs s).grid.sets b = some (w.set, []) := by rw [ht, swapBuses_due hset hdue]
  obtain ⟨bus', hbus', hsets⟩ := Option.map_eq_some_iff.1 ((grid_sets ..).symm.trans hafter)
  exact ⟨bus', hbus', congrArg Prod.fst hsets, congrArg Prod.snd hsets⟩

end Sys2Proof.Machine
end

section
/-! Voice frames: the class and individual encodes (R195–R199), the jitter buffer and the frames decoded or concealed
from it (R182–R187). -/

namespace Sys2Proof.Machine

/-! ### Frames that leave (R166, R195) -/

/-- A packet of a leg without SRTP that has a template leaves and is counted; every other leg is as before. -/
theorem sendMedia_putAt {s : State} {i slot : Nat} {l : Leg} (hleg : Tbl.get? s.legs i = some l) (hplain : bit l.flags 3 = false)
    (htemplate : (egressOf s i slot).isSome) (bytes : Nat) (rtcp : Bool) :
    Tbl.PutAt s.legs (sendMedia i slot bytes rtcp s).2.legs i { l with txPackets := satAdd 64 l.txPackets 1 } := by
  obtain ⟨e, he⟩ := Option.isSome_iff_exists.1 htemplate
  have hlegs : (sendMedia i slot bytes rtcp s).2.legs = Tbl.modify s.legs i (fun l => { l with txPackets := satAdd 64 l.txPackets 1 }) := by
    unfold sendMedia
    simp only [hleg, he, hplain, Bool.false_eq_true, if_false, if_true]
    exact legs_of_party (transmit_party ..)
  rw [hlegs]
  refine ⟨?_, fun j hj => ?_⟩
  · rw [Tbl.get?_modify, if_pos rfl, hleg]
    rfl
  · rw [Tbl.get?_modify, if_neg hj]

@[simp] theorem sendMedia_grid (leg slot bytes : Nat) (rtcp : Bool) (s : State) : (sendMedia leg slot bytes rtcp s).2.grid = s.grid := by
  unfold sendMedia
  split
  next l i f _ _ =>
    extract_lets r s1
    have h1 : r.2.grid = s.grid := by
      unfold r
      split
      · split
        · rfl
        · exact grid_of_party (cipherSend_party ..)
      · rfl
    split
    · exact (grid_of_party (transmit_party ..)).trans h1
    · exact h1
  next => rfl

@[simp] theorem sendFrame_grid (s : State) (i : Nat) : (sendFrame s i).grid = s.grid := by
  unfold sendFrame
  split
  · exact sendMedia_grid ..
  · rfl

/-- An individual encode of a talker codes a frame (R197). -/
theorem memberFrame_of_talker {c k i : Nat} {s : State} {l : Leg} (hleg : Tbl.get? s.legs i = some l) (hactive : l.state = .active)
    (hmember : i ∈ (confOf s c).members) (hcls : (mixOf s i).cls = some k) (hphase : (mixOf s i).phase = .talker) :
    memberFrame c k i s = (sendMedia i 0xFF (Config.freeValue s.free % 2048) false (takeFree (bump R.VCA_FRAMES_ENCODED s)).2).2 := by
  unfold memberFrame
  simp only [hphase, hcls]
  rw [if_pos ⟨by simp [hmember], trivial, trivial⟩]
  unfold sendFrame
  rw [if_pos]
  · rfl
  · rw [bump_legs, hleg, Option.map_some, hactive]

/-! ### Crossings (R197–R199) -/

@[simp] theorem placeEncode_grid (user weight : Nat) (s : State) : (placeEncode user weight s).grid = s.grid := by
  unfold placeEncode
  split
  rename_i l s1 hq
  have h1 : s1.grid = s.grid := by
    refine (congrArg (fun q => q.2.grid) hq).symm.trans ?_
    unfold placeUser
    dsimp only
    split <;> rfl
  refine (foldl_grid _ _ _ fun s p => ?_).trans h1
  split
  · rfl
  · exact modConf_grid _ _ _ fun cf => Conf.starts_modify ..

@[simp] theorem finishCrossing_grid (c n : Nat) (s : State) (i : Nat) : (finishCrossing c n s i).grid = s.grid := by
  unfold finishCrossing
  extract_lets m
  split
  · rfl
  · split
    · split
      · split
        · rfl
        · exact settleClass_grid ..
      · rfl
    · rfl
  · split
    · exact settleClass_grid ..
    · rfl
  · split
    · exact settleClass_grid ..
    · rfl
  · rfl

@[simp] theorem startLeaving_grid (c f w n : Nat) (s : State) (i : Nat) : (startLeaving c f w n s i).grid = s.grid := by
  unfold startLeaving
  extract_lets m
  split
  · exact noteTalkers_grid ..
  · rfl

@[simp] theorem startEntering_grid (c f w n : Nat) (s : State) (i : Nat) : (startEntering c f w n s i).grid = s.grid := by
  unfold startEntering
  extract_lets m
  split
  · exact (noteTalkers_grid ..).trans (placeEncode_grid ..)
  · split <;> rfl

@[simp] theorem startMoving_grid (c f w : Nat) (s : State) (i : Nat) : (startMoving c f w s i).grid = s.grid := by
  unfold startMoving
  extract_lets m
  split
  · exact placeEncode_grid ..
  · rfl

theorem classUsers_tick (n : Nat) (s : State) (c k : Nat) : classUsers (tick n s) c k = classUsers s c k := rfl

theorem confOf_of_confs {s t : State} (h : t.confs = s.confs) (c : Nat) : confOf t c = confOf s c := by
  unfold confOf
  rw [h]

/-- A class in use that codes a frame starts its next one a frame later (R195). -/
theorem classFrame_start {c k : Nat} {s : State} {m : MixClass} (hclass : Tbl.get? (confOf s c).classes k = some m)
    (hused : classUsers s c k ≠ []) :
    (Tbl.get? (confOf (classFrame c k s) c).classes k).map MixClass.start = some (m.start + 24 * m.frame) := by
  rw [← grid_starts]
  have hlisted : (Tbl.get? s.confs c).isSome := by
    cases h : Tbl.get? s.confs c with
    | some cf => rfl
    | none => simp [confOf, h, Tbl.get?] at hclass
  unfold classFrame
  split
  next h => cases hclass.symm.trans h
  next m' h =>
    cases hclass.symm.trans h
    extract_lets s1 f w n s2 here s3 here s4 waiting s5 s6 s7 listeners
    have hconfs : s1.confs = s.confs := tick_confs ..
    have husers : classUsers s1 c k = classUsers s c k := classUsers_tick ..
    have hcrossed : (listeners.foldl sendFrame s7).grid = s2.grid := calc
      (listeners.foldl sendFrame s7).grid = s6.grid := foldl_grid _ _ _ sendFrame_grid
      _ = s5.grid := foldl_grid _ _ _ (startMoving_grid c f w)
      _ = s4.grid := foldl_grid _ _ _ (startEntering_grid c f w (n - 1))
      _ = s3.grid := foldl_grid _ _ _ (startLeaving_grid c f w (n - 1))
      _ = s2.grid := foldl_grid _ _ _ (finishCrossing_grid c n)
    rw [husers, if_neg fun h => hused h.2, hcrossed, grid_starts, confOf_modConf, hconfs, if_pos ⟨rfl, hlisted⟩,
      Tbl.get?_modify, if_pos rfl, confOf_of_confs hconfs, hclass]
    rfl

/-! ### Jitter buffers (R182) -/

theorem jitOf_modJit (i : Nat) (f : Jitter → Jitter) (s : State) : jitOf (modJit i f s) i = f (jitOf s i) := by
  unfold jitOf modJit Tbl.getD Tbl.upd
  rw [Tbl.get?_put_same]
  rfl

theorem jitOf_of_audio {s t : State} (h : t.audio = s.audio) (i : Nat) : jitOf t i = jitOf s i := by
  unfold jitOf
  rw [h]

theorem raise_audio (k : EvKind) (h : Word) (d : List Byte) (s : State) : (raise k h d s).audio = s.audio :=
  congrArg (·.2.2) (raise_party k h d s)

theorem raiseUnless_audio (m n : Nat) (k : EvKind) (h : Word) (d : List Byte) (s : State) :
    (raiseUnless m n k h d s).audio = s.audio := congrArg (·.2.2) (raiseUnless_party m n k h d s)

@[simp] theorem jitOf_raise (k : EvKind) (h : Word) (d : List Byte) (s : State) (i : Nat) : jitOf (raise k h d s) i = jitOf s i :=
  jitOf_of_audio (raise_audio ..) i

@[simp] theorem jitOf_raiseUnless (m n : Nat) (k : EvKind) (h : Word) (d : List Byte) (s : State) (i : Nat) :
    jitOf (raiseUnless m n k h d s) i = jitOf s i := jitOf_of_audio (raiseUnless_audio ..) i

/-- Refading a leg at most changes its entry in the mixer. -/
theorem refade_cases (i : Nat) (s : State) : refade i s = s ∨ ∃ f, refade i s = modMix i f s := by
  unfold refade
  split
  · unfold fadeLeg
    split
    · exact .inr ⟨_, rfl⟩
    · exact .inl rfl
  · exact .inl rfl

/-- The device without the mixer, and without what host bookkeeping may change. -/
def State.offAudio (s : State) : State := ({ s with audio := {} } : State).device

theorem same_withAudio {s t : State} (h : t.offAudio = s.offAudio) : Same { s with audio := t.audio } t :=
  (congrArg (fun u : State => { u with audio := t.audio }) h :)

theorem offAudio_of_device {s t : State} (h : t.device = s.device) : t.offAudio = s.offAudio :=
  (congrArg (fun u : State => { u with audio := {} }) h :)

@[simp] theorem raise_offAudio (k : EvKind) (h : Word) (d : List Byte) (s : State) : (raise k h d s).offAudio = s.offAudio :=
  offAudio_of_device (raise_device ..)

@[simp] theorem raiseUnless_offAudio (m n : Nat) (k : EvKind) (h : Word) (d : List Byte) (s : State) :
    (raiseUnless m n k h d s).offAudio = s.offAudio := offAudio_of_device (raiseUnless_device ..)

/-! ### JB_RELEASE and JB_TARGET_RECOMPUTE (R182, R183, R185, R188) -/

/-- The packet due of an ACTIVE leg goes to its engine (R182). -/
theorem jbRelease_due {i : Nat} {s : State} {l : Leg} {p : JbPkt} (hleg : Tbl.get? s.legs i = some l) (hactive : l.state = .active)
    (hanchored : (jitOf s i).phase ≠ .idle) (hfree : (jitOf s i).released = [])
    (hdue : (jitOf s i).pkts.find? (fun q => q.ts == (jitOf s i).nextTs) = some p) :
    ∃ n, jbRelease i s = modJit i (fun j => { j with
      pkts := j.pkts.filter (· != p), released := [p], played := (p.seq :: j.played).take 1024 }) (tick n s) := by
  unfold jbRelease
  split
  next h => cases hleg.symm.trans h
  next l' h =>
    cases hleg.symm.trans h
    extract_lets j s1
    rw [if_neg (by simp [j, hanchored, hactive, hfree])]
    split
    next hnone => cases hdue.symm.trans hnone
    next p' hsome =>
      cases hdue.symm.trans hsome
      exact ⟨_, rfl⟩

/-- The target of a leg's jitter buffer, beside the device without the mixer. -/
def State.aim (i : Nat) (s : State) : Nat × State := ((jitOf s i).target, s.offAudio)

theorem modJit_aim (i : Nat) (f : Jitter → Jitter) (s : State) (hf : ∀ j, (f j).target = j.target := by intros; rfl) :
    (modJit i f s).aim i = s.aim i :=
  congrArg (·, s.offAudio) ((congrArg Jitter.target (jitOf_modJit i f s)).trans (hf _))

theorem modMix_aim (i j : Nat) (f : MixLeg → MixLeg) (s : State) : (modMix j f s).aim i = s.aim i := rfl

theorem raiseUnless_aim (m n : Nat) (k : EvKind) (h : Word) (d : List Byte) (i : Nat) (s : State) :
    (raiseUnless m n k h d s).aim i = s.aim i := by
  unfold State.aim
  rw [jitOf_raiseUnless, raiseUnless_offAudio]

/-- A resynchronisation keeps the target (log entry 64). -/
theorem resync_aim (i cause : Nat) (s : State) : (resync i cause s).aim i = s.aim i :=
  (raiseUnless_aim ..).trans ((modMix_aim ..).trans (modJit_aim ..))

theorem followTarget_aim (i : Nat) (l : Leg) (s : State) : (followTarget i l s).aim i = s.aim i := by
  unfold followTarget
  extract_lets j m goal f quiet gap
  split
  rename_i s1 hq
  extract_lets move
  have h1 : s1.aim i = s.aim i := (congrArg (fun q => q.2.aim i) hq).symm
  split
  · exact (modJit_aim ..).trans h1
  · exact (modJit_aim ..).trans h1

/-- The target is that of R183, also where the sender's drift resynchronises the buffer in the same row. -/
theorem jbTargetRecompute_aim {i : Nat} {s : State} {l : Leg} (hleg : Tbl.get? s.legs i = some l) (hcoded : l.coded = true)
    (hanchored : (jitOf s i).phase ≠ .idle) :
    (jbTargetRecompute i s).aim i = (jbTarget l (jitOf s i) (nowNs s), s.offAudio) := by
  unfold jbTargetRecompute
  split
  next h => cases hleg.symm.trans h
  next l' h =>
    cases hleg.symm.trans h
    extract_lets j s1
    rw [if_neg (by simp [j, hanchored, hcoded])]
    have h1 : s1.aim i = (jbTarget l (jitOf s i) (nowNs s), s.offAudio) :=
      (followTarget_aim ..).trans (congrArg (·, s.offAudio) (congrArg Jitter.target (jitOf_modJit i _ s)))
    split
    rename_i v s2 hq
    have h2 : s2.aim i = s1.aim i := (congrArg (fun q => q.2.aim i) hq).symm
    extract_lets d bad s3
    have h3 : s3.aim i = s2.aim i := modJit_aim ..
    rw [← h1, ← h2, ← h3]
    split
    · split
      · exact resync_aim ..
      · rfl
    · rfl

/-! ### VOICE_DECODE_FRAME (R179, R184, R186, R187) -/

/-- A leg's jitter buffer, beside the device without the mixer. -/
def State.voice (i : Nat) (s : State) : Jitter × State := (jitOf s i, s.offAudio)

theorem modJit_voice (i : Nat) (f : Jitter → Jitter) (s : State) : (modJit i f s).voice i = (f (s.voice i).1, (s.voice i).2) :=
  congrArg (·, s.offAudio) (jitOf_modJit i f s)

theorem modMix_voice (i j : Nat) (f : MixLeg → MixLeg) (s : State) : (modMix j f s).voice i = s.voice i := rfl

theorem bump_voice (k i : Nat) (s : State) : (bump k s).voice i = s.voice i := rfl

theorem raise_voice (k : EvKind) (h : Word) (d : List Byte) (i : Nat) (s : State) : (raise k h d s).voice i = s.voice i := by
  unfold State.voice
  rw [jitOf_raise, raise_offAudio]

theorem refade_voice (i j : Nat) (s : State) : (refade j s).voice i = s.voice i := by
  obtain h | ⟨f, h⟩ := refade_cases j s <;> rw [h]
  rfl

/-- A decoded frame ends a run of concealment. -/
theorem decodedFrame_voice (i : Nat) (s : State) : (decodedFrame i s).voice i =
    ({ jitOf s i with phase := .playing, conceal := 0, longSaid := false }, s.offAudio) := by
  unfold decodedFrame
  extract_lets s1 s2 f
  have h2 : s2.voice i = _ := (modMix_voice ..).trans ((bump_voice ..).trans (modJit_voice ..))
  split
  · extract_lets goal
    split
    · exact h2
    · exact (refade_voice ..).trans h2
  · exact h2

/-- A concealed frame is counted and lengthens the run of concealment (R186). -/
theorem concealFrame_voice (i : Nat) (l : Leg) (s : State) : ∃ said, (concealFrame i l s).voice i =
    ({ jitOf s i with
        phase := .concealing, concealed := satAdd 64 (jitOf s i).concealed 1, conceal := (jitOf s i).conceal + l.frame
        longSaid := said }, s.offAudio) := by
  unfold concealFrame
  extract_lets s1 j s2 s3
  have h1 : s1.voice i = _ := (bump_voice ..).trans (modJit_voice ..)
  split
  · exact ⟨_, h1⟩
  · have h2 : s3.voice i = _ := (modMix_voice ..).trans (modJit_voice ..)
    refine ⟨true, (raise_voice ..).trans (h2.trans ?_)⟩
    rw [h1]
    rfl

/-- A released frame of full length is decoded. -/
theorem voiceDecode_full {v : VoiceFrame} {s : State} {l : Leg} (hleg : Tbl.get? s.legs v.leg = some l) (hactive : l.state = .active)
    (hanchored : (jitOf s v.leg).phase ≠ .idle) (hreleased : (jitOf s v.leg).released ≠ []) (hlength : l.frame ≤ v.length) :
    voiceDecode v s = decodedFrame v.leg (advanceFrame v.leg (frameSamples v.length) s) := by
  obtain ⟨p, rest, hp⟩ := List.exists_cons_of_ne_nil hreleased
  unfold voiceDecode
  simp only [hleg, hactive, hanchored, hp, Nat.not_lt.2 hlength, ne_eq, not_true_eq_false, or_self, if_false]

/-- A missing frame that no DTX explains is concealed. -/
theorem voiceDecode_missing {v : VoiceFrame} {s : State} {l : Leg} (hleg : Tbl.get? s.legs v.leg = some l) (hactive : l.state = .active)
    (hanchored : (jitOf s v.leg).phase ≠ .idle) (hmissing : (jitOf s v.leg).released = []) (hdtx : v.dtx = false)
    (hgap : dtxGap (jitOf s v.leg) = false) :
    voiceDecode v s = concealFrame v.leg l (advanceFrame v.leg (frameSamples l.frame) s) := by
  unfold voiceDecode
  simp only [hleg, hactive, hanchored, hmissing, hdtx, hgap, ne_eq, not_true_eq_false, or_self, Bool.or_self, Bool.false_eq_true,
    if_false]

/-- Settles O26: the equations and frames above, clause by clause. -/
theorem blocksAndVoiceFramesComplete : Obligations.BlocksAndVoiceFramesComplete := by
  unfold Obligations.BlocksAndVoiceFramesComplete
  refine ⟨fun inputs s => ?_, fun leg s l p hleg hactive hanchored hfree hdue => ?_, fun leg s l hleg hcoded hanchored => ?_,
    fun v s l hleg hactive hanchored hreleased hlength => ?_, fun v s l hleg hactive hanchored hmissing hdtx hgap => ?_,
    fun c k s m hclass hused => ?_, fun c k i s l hleg hactive hplain htemplate hmember hcls hphase => ?_⟩
  · exact ⟨_, rfl, blockBoundary_lastBlock inputs s, fun b bus w hb hw hdue => blockBoundary_takesSet inputs hb hw hdue⟩
  · obtain ⟨n, ht⟩ := jbRelease_due hleg hactive hanchored hfree hdue
    refine ⟨_, congrArg Host.Outcome.next ht, ?_⟩
    rw [jitOf_modJit]
    exact ⟨rfl, by simp, by simp, rfl⟩
  · obtain ⟨htarget, hrest⟩ := Prod.ext_iff.1 (jbTargetRecompute_aim hleg hcoded hanchored)
    exact ⟨_, rfl, htarget, same_withAudio hrest⟩
  · obtain ⟨hj, hrest⟩ := Prod.ext_iff.1 (decodedFrame_voice v.leg (advanceFrame v.leg (frameSamples v.length) s))
    refine ⟨_, congrArg Host.Outcome.next (voiceDecode_full hleg hactive hanchored hreleased hlength), ?_⟩
    rw [show jitOf (decodedFrame _ _) v.leg = _ from hj, advanceFrame, jitOf_modJit]
    exact ⟨rfl, rfl, rfl, rfl, same_withAudio hrest⟩
  · obtain ⟨said, hvoice⟩ := concealFrame_voice v.leg l (advanceFrame v.leg (frameSamples l.frame) s)
    obtain ⟨hj, hrest⟩ := Prod.ext_iff.1 hvoice
    refine ⟨_, congrArg Host.Outcome.next (voiceDecode_missing hleg hactive hanchored hmissing hdtx hgap), ?_⟩
    rw [show jitOf (concealFrame _ _ _) v.leg = _ from hj, advanceFrame, jitOf_modJit]
    exact ⟨rfl, rfl, rfl, same_withAudio hrest⟩
  · exact ⟨classFrame c k s, rfl, classFrame_start hclass hused⟩
  · exact ⟨_, congrArg Host.Outcome.next (memberFrame_of_talker hleg hactive hmember hcls hphase),
      sendMedia_putAt (s := (takeFree (bump R.VCA_FRAMES_ENCODED s)).2) hleg hplain htemplate _ _⟩

end Sys2Proof.Machine
end

section
/-! Audio serial ports (R230–R247): what a change of one port leaves, and the device as one port meets it. -/

namespace Sys2Proof.Machine

/-! ### Ports after a change -/

theorem putAt_put {α : Type} (t : Tbl α) (k : Nat) (a : α) : Tbl.PutAt t (Tbl.put t k a) k a :=
  ⟨Tbl.get?_put_same .., fun _ hj => Tbl.get?_put_other _ _ hj⟩

theorem putAt_modAsp (n : Nat) (f : AspPort → AspPort) (s : State) :
    Tbl.PutAt s.asp.ports (modAsp n f s).asp.ports n (f (portAt s n)) :=
  putAt_put ..

theorem portAt_of_get? {s : State} {n : Nat} {a : AspPort} (h : Tbl.get? s.asp.ports n = some a) : portAt s n = a := by
  unfold portAt Tbl.getD
  rw [h]
  rfl

theorem portAt_modAsp_same (n : Nat) (f : AspPort → AspPort) (s : State) : portAt (modAsp n f s) n = f (portAt s n) :=
  portAt_of_get? (putAt_modAsp n f s).1

/-- The same from a state whose ports are those of `s`. -/
theorem putAt_modAsp_of_asp {s u : State} (h : u.asp = s.asp) (n : Nat) (f : AspPort → AspPort) :
    Tbl.PutAt s.asp.ports (modAsp n f u).asp.ports n (f (portAt s n)) := by
  have hput := putAt_modAsp n f u
  unfold portAt at hput
  rwa [h] at hput

theorem portAt_of_device {s t : State} (h : t.device = s.device) (n : Nat) : portAt t n = portAt s n :=
  (congrArg (portAt · n) h :)

theorem fab_of_device {s t : State} (h : t.device = s.device) : t.fab = s.fab := (congrArg State.fab h :)

theorem asp_of_device {s t : State} (h : t.device = s.device) : t.asp = s.asp := (congrArg State.asp h :)

/-! ### The device from one port -/

/-- The device as a port meets it: the port, the other ports, the mixer, the fabric, and all the rest but host bookkeeping. -/
structure PortScene where
  port   : AspPort
  others : Nat → Option AspPort
  audio  : Audio
  fab    : Fab
  rest   : State

def State.scene (n : Nat) (s : State) : PortScene where
  port := portAt s n
  others m := if m = n then none else Tbl.get? s.asp.ports m
  audio := s.audio
  fab := s.fab
  rest := ({ s with asp := {}, audio := {}, fab := {} } : State).device

theorem scene_of_device {s t : State} (h : t.device = s.device) (n : Nat) : t.scene n = s.scene n :=
  (congrArg (State.scene n) h :)

theorem others_of_scene {s t : State} {n : Nat} (h : (t.scene n).others = (s.scene n).others) (m : Nat) (hm : m ≠ n) :
    Tbl.get? t.asp.ports m = Tbl.get? s.asp.ports m := by
  have ho := congrFun h m
  simpa only [State.scene, if_neg hm] using ho

theorem same_of_scene {s t : State} {n : Nat} (h : (t.scene n).rest = (s.scene n).rest) :
    Same { s with asp := t.asp, audio := t.audio, fab := t.fab } t :=
  (congrArg (fun u : State => { u with asp := t.asp, audio := t.audio, fab := t.fab }) h :)

/-- Where of the scene only the port, the mixer and the fabric change: the other ports, the port, and the frame. -/
theorem left_of_scene {s t : State} {n : Nat} {p : AspPort} {a : Audio} {x : Fab}
    (h : t.scene n = { s.scene n with port := p, audio := a, fab := x }) :
    (∀ m, m ≠ n → Tbl.get? t.asp.ports m = Tbl.get? s.asp.ports m) ∧ portAt t n = p ∧
      Same { s with asp := t.asp, audio := a, fab := x } t := by
  obtain rfl : t.audio = a := congrArg PortScene.audio h
  obtain rfl : t.fab = x := congrArg PortScene.fab h
  exact ⟨others_of_scene (congrArg PortScene.others h :), congrArg PortScene.port h,
    same_of_scene (n := n) (congrArg PortScene.rest h :)⟩

/-- The same where the fabric stays. -/
theorem left_of_scene_audio {s t : State} {n : Nat} {p : AspPort} {a : Audio} (h : t.scene n = { s.scene n with port := p, audio := a }) :
    (∀ m, m ≠ n → Tbl.get? t.asp.ports m = Tbl.get? s.asp.ports m) ∧ portAt t n = p ∧
      Same { s with asp := t.asp, audio := t.audio } t := by
  obtain rfl : t.audio = a := congrArg PortScene.audio h
  exact left_of_scene h

/-- The same where the mixer stays. -/
theorem left_of_scene_fab {s t : State} {n : Nat} {p : AspPort} {x : Fab} (h : t.scene n = { s.scene n with port := p, fab := x }) :
    (∀ m, m ≠ n → Tbl.get? t.asp.ports m = Tbl.get? s.asp.ports m) ∧ portAt t n = p ∧
      Same { s with asp := t.asp, fab := t.fab } t := by
  obtain rfl : t.fab = x := congrArg PortScene.fab h
  exact left_of_scene h

section
variable (n : Nat) (s : State)

@[simp] theorem tick_scene (k : Nat) : (tick k s).scene n = s.scene n := rfl
@[simp] theorem tickTo_scene (k : Nat) : (tickTo k s).scene n = s.scene n := tick_scene ..
@[simp] theorem tickToNs_scene (k : Nat) : (tickToNs k s).scene n = s.scene n := tick_scene ..
@[simp] theorem setRg_scene (k v : Nat) : (setRg k v s).scene n = s.scene n := rfl
@[simp] theorem bump_scene (k : Nat) : (bump k s).scene n = s.scene n := rfl
@[simp] theorem emit_scene (o : Output) : (emit o s).scene n = s.scene n := rfl

@[simp] theorem raise_scene (k : EvKind) (h : Word) (d : List Byte) : (raise k h d s).scene n = s.scene n :=
  scene_of_device (raise_device ..) n

@[simp] theorem raiseUnless_scene (m b : Nat) (k : EvKind) (h : Word) (d : List Byte) :
    (raiseUnless m b k h d s).scene n = s.scene n := scene_of_device (raiseUnless_device ..) n

@[simp] theorem finishRunning_scene (rs : Nat) (tag : Word) (st d p : Nat) (r : List Byte) :
    (finishRunning rs tag st d p r s).scene n = s.scene n := scene_of_device (finishRunning_device ..) n

@[simp] theorem finishAll_scene (l : List (Nat × Word)) (st d p : Nat) : (finishAll l st d p s).scene n = s.scene n :=
  foldl_kept (State.scene n) _ _ _ fun _ _ => finishRunning_scene ..

@[simp] theorem modAsp_scene (f : AspPort → AspPort) : (modAsp n f s).scene n = { s.scene n with port := f (s.scene n).port } := by
  have hothers (m : Nat) : ((modAsp n f s).scene n).others m = (s.scene n).others m := by
    unfold State.scene
    dsimp only
    split
    · rfl
    · exact (putAt_modAsp n f s).2 m ‹_›
  have hport : ((modAsp n f s).scene n).port = f (s.scene n).port := portAt_modAsp_same n f s
  exact congrArg₂ (fun p o => { s.scene n with port := p, others := o }) hport (funext hothers)

@[simp] theorem arm_scene (a : Option AspArm) : ({ s with asp.arm := a } : State).scene n = s.scene n := rfl

@[simp] theorem modMix_scene (i : Nat) (f : MixLeg → MixLeg) :
    (modMix i f s).scene n = { s.scene n with audio := (modMix i f s).audio } := rfl

@[simp] theorem flushRelease_scene (e : Nat) :
    (flushRelease e s).scene n = { s.scene n with fab := (flushRelease e s).fab } := rfl

@[simp] theorem deadlineMiss_scene (e u r l i : Nat) :
    (deadlineMiss e u r l i s).scene n = { s.scene n with fab := (deadlineMiss e u r l i s).fab } := by
  unfold deadlineMiss
  extract_lets s1 s2 key s3 fresh
  split
  · rw [fab_of_device (raiseUnless_device ..), raiseUnless_scene]
    rfl
  · rfl

end

/-- A change that touches of the scene only the mixer, over a list. -/
theorem foldl_scene_audio {α : Type} {n : Nat} {g : State → α → State}
    (h : ∀ s a, (g s a).scene n = { s.scene n with audio := (g s a).audio }) (l : List α) (s : State) :
    (l.foldl g s).scene n = { s.scene n with audio := (l.foldl g s).audio } := by
  induction l generalizing s with
  | nil => rfl
  | cons a l ih => rw [List.foldl_cons, ih, h]

/-- What no change of a leg's entry in the mixer touches, refading a port's legs leaves. -/
theorem refadePort_kept {β : Type} (view : State → β) (h : ∀ i f s, view (modMix i f s) = view s) (n : Nat) (s : State) :
    view (refadePort n s) = view s :=
  foldl_kept view _ _ _ fun s i => by
    obtain h0 | ⟨f, h0⟩ := refade_cases i s
    · rw [h0]
    · rw [h0, h]

@[simp] theorem refadePort_scene (n k : Nat) (s : State) :
    (refadePort k s).scene n = { s.scene n with audio := (refadePort k s).audio } := by
  have h := refadePort_kept (fun s => { s.scene n with audio := {} }) (fun _ _ _ => rfl) k s
  exact (congrArg (fun v : PortScene => { v with audio := (refadePort k s).audio }) h :)

/-- A port that has started waits for no answer any more. -/
@[simp] theorem portStarted_scene (n : Nat) (s : State) :
    (portStarted n s).scene n = { s.scene n with port := { (s.scene n).port with starter := none } } := by
  unfold portStarted
  extract_lets a
  split
  next h =>
    have hp : { (s.scene n).port with starter := none } = (s.scene n).port := by
      rw [← h]
      rfl
    rw [hp]
  next rs tag h =>
    split
    · exact modAsp_scene ..
    · exact (finishRunning_scene ..).trans (modAsp_scene ..)

/-- HOLD is entered: the port stands in HOLD, and its transmit release entries are gone (R244). -/
theorem enterHold_scene (n cause : Nat) (s : State) : (enterHold n cause s).scene n =
    { s.scene n with
      port := { (s.scene n).port with phase := .hold, holdAt := s.clock.cycles, byPin := cause == 1, faded := false, periods := [] }
      fab := (flushRelease (aspTxEdge n) s).fab } := by
  unfold enterHold
  simp only [raise_scene, bump_scene, modAsp_scene, flushRelease_scene]
  rfl

/-! ### Several ports -/

theorem mem_portsOf (mask n : Nat) : n ∈ portsOf mask ↔ n < 8 ∧ bit mask n = true := by
  simp [portsOf]

theorem nodup_portsOf (mask : Nat) : (portsOf mask).Nodup := List.nodup_range.filter _

/-- The ports of a mask, changed one after the other. -/
def modPorts (mask : Nat) (f : AspPort → AspPort) (s : State) : State := (portsOf mask).foldl (fun s n => modAsp n f s) s

theorem foldl_modAsp_get? (f : AspPort → AspPort) {l : List Nat} (hl : l.Nodup) (s : State) (n : Nat) :
    Tbl.get? (l.foldl (fun s n => modAsp n f s) s).asp.ports n
      = if n ∈ l then some (f (portAt s n)) else Tbl.get? s.asp.ports n := by
  induction l generalizing s with
  | nil => rfl
  | cons m l ih =>
    obtain ⟨hm, hl⟩ := List.nodup_cons.1 hl
    rw [List.foldl_cons, ih hl]
    by_cases hn : n = m
    · subst hn
      rw [if_neg hm, if_pos List.mem_cons_self, (putAt_modAsp n f s).1]
    · have hget := (putAt_modAsp m f s).2 n hn
      have hport : portAt (modAsp m f s) n = portAt s n := congrArg (·.getD {}) hget
      simp [hn, hget, hport]

theorem modPorts_get? (mask : Nat) (f : AspPort → AspPort) (s : State) (n : Nat) :
    Tbl.get? (modPorts mask f s).asp.ports n
      = if n < 8 ∧ bit mask n = true then some (f (portAt s n)) else Tbl.get? s.asp.ports n := by
  rw [modPorts, foldl_modAsp_get? f (nodup_portsOf mask)]
  simp only [mem_portsOf]

theorem portAt_modPorts (mask : Nat) (f : AspPort → AspPort) (s : State) (n : Nat) :
    portAt (modPorts mask f s) n = if n < 8 ∧ bit mask n = true then f (portAt s n) else portAt s n := by
  unfold portAt Tbl.getD
  rw [modPorts_get?]
  split <;> rfl

theorem modPorts_eq (mask : Nat) (f : AspPort → AspPort) (s : State) :
    modPorts mask f s = { s with asp.ports := (modPorts mask f s).asp.ports } :=
  foldl_kept (fun t : State => ({ t with asp.ports := (modPorts mask f s).asp.ports } : State)) _ (portsOf mask) s fun _ _ => rfl

/-! ### The arm (R237) -/

/-- The arm once its trigger has come at an instant. -/
def AspArm.fired (ns : Nat) (a : AspArm) : AspArm :=
  { a with start := some (blockFrom (ns + 100000)), trig := BitVec.ofNat 64 (shortOf ns) }

/-- A port of an arm whose trigger has come at an instant. -/
def AspPort.startedBy (a : AspArm) (ns : Nat) (p : AspPort) : AspPort :=
  { p with startAt := some (blockFrom (ns + 100000)), starter := some (a.rs, a.tag), trig := some (BitVec.ofNat 64 (shortOf ns)) }

theorem fireArm_of_waiting {s : State} {a : AspArm} (ha : s.asp.arm = some a) (hstart : a.start = none) (ns : Nat) :
    fireArm ns s = modPorts a.ports (AspPort.startedBy a ns) { s with asp.arm := some (a.fired ns) } := by
  unfold fireArm
  rw [ha]
  dsimp only
  rw [hstart]
  rfl

end Sys2Proof.Machine
end

section
/-! The commands of the audio serial ports (R236, R237, R239, R242): ASP_CONFIG, START, STOP, MASK_SET and TRIGGER_ARM. -/

namespace Sys2Proof.Machine

/-! ### Rows whose answer comes later -/

theorem cmd_of_queuedEntry {op : Nat} {c : Cmd} {s : State} {e : OutCmd} (h : queuedEntry op c s = some e) : e.cmd = c := by
  have hfound := List.find?_some h
  simp only [Bool.and_eq_true, beq_iff_eq] at hfound
  exact hfound.2

/-- A row whose command runs now and starts work leaves what its plan says. -/
theorem exec_of_defer {i : Instr} {op : Nat} {plan : Cmd → State → Plan} {c : Cmd} {s u : State} {e : OutCmd}
    (hrow : exec i s = .next (hostCmd op plan c s)) (hr : RunsNow op plan c s e) (hd : doneOf op plan c s e = .defer u) :
    exec i s = .next u := by
  rw [hrow, hostCmd_runs hr, hd]
  rfl

/-- A row begins where its plan, made of a state and run once the command's entry is marked, starts work that leaves the outstanding
commands and what `P` says. -/
theorem begins_of_run {row : Cmd → Instr} {op : Nat} {plan : Cmd → State → Plan} {P : Cmd → State → State → Prop}
    (hrow : ∀ c s, exec (row c) s = .next (hostCmd op plan c s))
    (h : ∀ c s k f, Cmd.timed c = false → ∃ u, (plan c s).run (modEntry k f s) = .defer u ∧
      u.host.cmds = (modEntry k f s).host.cmds ∧ P c (modEntry k f s) u) : Begins row op plan P := by
  intro c s e hr
  have htimed : Cmd.timed c = false := by
    obtain ⟨⟨hq, -, ht⟩, -, -⟩ := hr
    rwa [cmd_of_queuedEntry hq] at ht
  obtain ⟨u, hd, hcmds, hP⟩ := h c (tick 1 (fetchedFor op c s)) e.seq _ htimed
  exact ⟨u, exec_of_defer (hrow c s) hr hd, hcmds, hP⟩

/-! ### Slot masks under a format (R236, Table 10-4) -/

theorem slotOn_cutMasks (lines slots : Nat) (m : List Nat) {ch : Nat} (hch : ch < 128) :
    slotOn (cutMasks lines slots m) ch = (decide (ch / 32 < lines) && decide (ch % 32 < slots) && slotOn m ch) := by
  have hline : (cutMasks lines slots m).getD (ch / 32) 0 = if ch / 32 < lines then m.getD (ch / 32) 0 % 2 ^ slots else 0 := by
    have h4 : ch / 32 < 4 := by omega
    simp [cutMasks, List.getD_eq_getElem?_getD, h4]
  unfold slotOn
  rw [hline]
  by_cases hl : ch / 32 < lines
  · simp [bit_eq_testBit, hl]
  · simp [bit_eq_testBit, hl]

/-- The masks of a port that leaves DISABLED have every slot of the format. -/
theorem slotOn_full {slots ch : Nat} (hch : ch < 128) (hslot : ch % 32 < slots) :
    slotOn (List.replicate 4 (2 ^ slots - 1)) ch = true := by
  have h4 : ch / 32 < 4 := by omega
  unfold slotOn
  rw [List.getD_eq_getElem?_getD, List.getElem?_replicate, if_pos h4, bit_eq_testBit]
  simp [hslot]

/-- A mask that ASP_CONFIG leaves: within the format, full from DISABLED and otherwise as it was. -/
theorem slotOn_configured (p : Prop) [Decidable p] (lines slots : Nat) (m : List Nat) {ch : Nat} (hch : ch < 128) :
    slotOn (cutMasks lines slots (if p then List.replicate 4 (2 ^ slots - 1) else m)) ch
      = (decide (ch / 32 < lines) && decide (ch % 32 < slots) && (decide p || slotOn m ch)) := by
  rw [slotOn_cutMasks _ _ _ hch]
  by_cases hp : p
  · rw [if_pos hp]
    by_cases hs : ch % 32 < slots
    · rw [slotOn_full hch hs]
      simp [hp]
    · simp [hs]
  · simp [hp]

/-! ### ASP_START (R237) -/

/-- An ASP_START that is not TIMED waits for the first block boundary at least 100 µs on. -/
theorem aspStartPlan_run {c : Cmd} (htimed : Cmd.timed c = false) (s t : State) : (aspStartPlan c s).run t =
    .defer (modAsp (hIdx c.handle) (fun a => { a with
      startAt := some (blockFrom (nowNs t + 100000)), starter := some (c.rs, c.tag), trig := none }) t) := by
  unfold aspStartPlan
  dsimp only
  rw [htimed, if_neg Bool.false_ne_true]

/-! ### ASP_STOP (R239) -/

/-- A port that is no longer ARMED. -/
def AspPort.disarmed (a : AspPort) : AspPort := { a with phase := .idle, startAt := none, starter := none }

/-- A port is disarmed, and `a` is what is left of the arm. -/
def disarmTo (n : Nat) (a : Option AspArm) (s : State) : State :=
  { s with asp := { ports := Tbl.upd s.asp.ports n {} AspPort.disarmed, arm := a } }

theorem disarm_device (n : Nat) (s : State) : ∃ a, (disarm n s).device = (disarmTo n a s).device := by
  unfold disarm
  extract_lets s1
  split
  · exact ⟨s1.asp.arm, rfl⟩
  · split
    · exact ⟨none, finishRunning_device ..⟩
    · exact ⟨_, rfl⟩

/-- Disarming a port of a state that is `s` but for bookkeeping changes that port and the arm. -/
theorem disarm_left {s u : State} (hdev : u.device = s.device) (n : Nat) :
    Same { s with asp := (disarm n u).asp } (disarm n u) ∧
      Tbl.PutAt s.asp.ports (disarm n u).asp.ports n (portAt s n).disarmed := by
  obtain ⟨a, h⟩ := disarm_device n u
  have hs : (disarm n u).device = (disarmTo n a s).device := h.trans (congrArg (fun v => (disarmTo n a v).device) hdev :)
  rw [asp_of_device hs]
  exact ⟨hs, putAt_modAsp ..⟩

theorem aspStopPlan_armed {c : Cmd} {s : State} (h : (portAt s (hIdx c.handle)).phase = .armed) (t : State) :
    (aspStopPlan c s).run t = .okWith (disarm (hIdx c.handle) t) (leN (portAt s (hIdx c.handle)).frame 4 ++ leN 0 4) :=
  if_pos h

/-- The state in which an ASP_START that still waits for its port has been answered ABORTED. -/
def starterAborted (a : AspPort) (s : State) : State :=
  match a.starter with
  | some (rs, tag) => finishRunning rs tag St.ABORTED 0 0 [] s
  | none => s

theorem starterAborted_device (a : AspPort) (s : State) : (starterAborted a s).device = s.device := by
  unfold starterAborted
  split
  · exact finishRunning_device ..
  · rfl

/-- The port of an ASP_STOP fades to zero over 2 ms from cycle `at_` on. -/
def AspPort.stopFrom (rs : Nat) (tag : Word) (at_ : Nat) (a : AspPort) : AspPort :=
  { a with stopping := some (rs, tag, at_), starter := none, txFade := a.txFade.moveTo 0 (a.rate / 500) 0 }

theorem aspStopPlan_fades {c : Cmd} {s : State} (h : (portAt s (hIdx c.handle)).phase ≠ .armed) (t : State) :
    let u := starterAborted (portAt s (hIdx c.handle)) t
    (aspStopPlan c s).run t =
      .defer (refadePort (hIdx c.handle) (modAsp (hIdx c.handle) (AspPort.stopFrom c.rs c.tag u.clock.cycles) u)) :=
  if_neg h

theorem refadePort_asp (n : Nat) (s : State) : (refadePort n s).asp = s.asp :=
  refadePort_kept State.asp (fun _ _ _ => rfl) ..

theorem refadePort_offAudio (n : Nat) (s : State) : (refadePort n s).offAudio = s.offAudio :=
  refadePort_kept State.offAudio (fun _ _ _ => rfl) ..

/-- A port changes and its legs refade: beside the port, only the mixer changes. -/
theorem refadePort_modAsp_left {s u : State} (hdev : u.device = s.device) (n : Nat) (f : AspPort → AspPort) :
    let t := refadePort n (modAsp n f u)
    Same { s with asp.ports := t.asp.ports, audio := t.audio } t ∧ Tbl.PutAt s.asp.ports t.asp.ports n (f (portAt s n)) := by
  intro t
  have hmod : (modAsp n f u).device = (modAsp n f s).device := (congrArg (modAsp n f) hdev :)
  have hasp : t.asp = (modAsp n f s).asp := (refadePort_asp ..).trans (asp_of_device hmod)
  have hoff : t.offAudio = (modAsp n f s).offAudio := (refadePort_offAudio ..).trans (offAudio_of_device hmod)
  rw [hasp]
  exact ⟨same_withAudio hoff, putAt_modAsp ..⟩

/-! ### ASP_TRIGGER_ARM (R237) -/

/-- The arm that ASP_TRIGGER_ARM holds. -/
def armOf (c : Cmd) : AspArm := { ports := u8 c.params 0, source := u8 c.params 1, edge := u8 c.params 2, rs := c.rs, tag := c.tag }

/-- The named ports ARMED, and the arm held. -/
def armedBy (c : Cmd) (s : State) : State :=
  { modPorts (u8 c.params 0) (fun a => { a with phase := .armed }) s with asp.arm := some (armOf c) }

/-- The same with the arm's instant given at once. -/
def armedAt (c : Cmd) (ns : Nat) (s : State) : State :=
  modPorts (u8 c.params 0) (AspPort.startedBy (armOf c) ns) { armedBy c s with asp.arm := some ((armOf c).fired ns) }

/-- What ASP_TRIGGER_ARM leaves: source 4 gives the instant. -/
def armed (c : Cmd) (ns : Nat) (s : State) : State := if u8 c.params 1 = 4 then armedAt c ns s else armedBy c s

theorem aspArmPlan_run (c : Cmd) (s t : State) :
    (aspArmPlan c s).run t = .defer (armed c (nearestNs s (u64 c.params 8)).toNat t) := by
  show Done.defer (if _ then fireArm _ (armedBy c t) else armedBy c t) = _
  rw [fireArm_of_waiting (a := armOf c) rfl rfl]
  rfl

theorem armedBy_eq (c : Cmd) (s : State) : armedBy c s = { s with asp := (armedBy c s).asp } := by
  unfold armedBy
  rw [modPorts_eq]

theorem armed_eq (c : Cmd) (ns : Nat) (s : State) : armed c ns s = { s with asp := (armed c ns s).asp } := by
  unfold armed
  split
  · unfold armedAt
    rw [modPorts_eq, armedBy_eq]
  · exact armedBy_eq c s

theorem armedBy_phase (c : Cmd) (s : State) {n : Nat} (hn : n < 8) :
    (portAt (armedBy c s) n).phase = if bit (u8 c.params 0) n then .armed else (portAt s n).phase := by
  have h : portAt (armedBy c s) n = _ := portAt_modPorts ..
  rw [h, apply_ite AspPort.phase]
  simp only [hn, true_and]

theorem armed_phase (c : Cmd) (ns : Nat) (s : State) {n : Nat} (hn : n < 8) :
    (portAt (armed c ns s) n).phase = if bit (u8 c.params 0) n then .armed else (portAt s n).phase := by
  unfold armed
  split
  · unfold armedAt
    rw [portAt_modPorts, ← armedBy_phase c s hn]
    split
    · rfl
    · rfl
  · exact armedBy_phase c s hn

/-- A port that is not named keeps what it holds. -/
theorem armed_other (c : Cmd) (ns : Nat) (s : State) {n : Nat} (h : 8 ≤ n ∨ bit (u8 c.params 0) n = false) :
    Tbl.get? (armed c ns s).asp.ports n = Tbl.get? s.asp.ports n := by
  have hn : ¬ (n < 8 ∧ bit (u8 c.params 0) n = true) := by
    rintro ⟨h8, hbit⟩
    rcases h with h | h
    · omega
    · exact Bool.false_ne_true (h.symm.trans hbit)
  have hby : Tbl.get? (armedBy c s).asp.ports n = Tbl.get? s.asp.ports n := (modPorts_get? ..).trans (if_neg hn)
  unfold armed
  split
  · unfold armedAt
    rw [modPorts_get?, if_neg hn]
    exact hby
  · exact hby

theorem armed_arm (c : Cmd) (ns : Nat) (s : State) :
    (armed c ns s).asp.arm = some (if u8 c.params 1 = 4 then (armOf c).fired ns else armOf c) := by
  unfold armed
  split
  · unfold armedAt
    rw [modPorts_eq]
  · rfl

/-- Settles O27: each row's run by its equation, then the rule of `modAsp` or `modPorts`. -/
theorem audioPortCommandsComplete : Obligations.AudioPortCommandsComplete := by
  unfold Obligations.AudioPortCommandsComplete
  refine ⟨?config, ?start, ?stopArmed, ?stopFades, ?mask, ?arm⟩
  case config =>
    refine commits_of_run (fun _ _ => rfl) fun c s t => ⟨_, _, _, rfl, rfl, ?_, fun ch hch => ?_⟩
    · rw [portAt_modAsp_same]
      exact putAt_modAsp ..
    · rw [portAt_modAsp_same]
      exact ⟨slotOn_configured _ _ _ _ hch, slotOn_configured _ _ _ _ hch⟩
  case start =>
    exact begins_of_run (fun _ _ => rfl) fun c s k f htimed => ⟨_, aspStartPlan_run htimed .., rfl, rfl, putAt_modAsp ..⟩
  case stopArmed =>
    intro c s e hr harmed
    have hdev := begunAt_device 0x0403 aspStopPlan c s e
    have hport := portAt_of_device hdev (hIdx c.handle)
    exact ⟨_, _, _, exec_of_reply rfl hr (aspStopPlan_armed ((congrArg AspPort.phase hport).trans harmed) _), disarm_left hdev _⟩
  case stopFades =>
    intro c s e hr harmed
    have hdev := begunAt_device 0x0403 aspStopPlan c s e
    have hport := portAt_of_device hdev (hIdx c.handle)
    have hdone : doneOf 0x0403 aspStopPlan c s e = _ :=
      aspStopPlan_fades (fun h => harmed ((congrArg AspPort.phase hport).symm.trans h)) _
    obtain ⟨hsame, hput⟩ := refadePort_modAsp_left ((starterAborted_device ..).trans hdev) (hIdx c.handle) _
    exact ⟨_, exec_of_defer rfl hr hdone, hsame, _, hput⟩
  case mask => exact begins_of_run (fun _ _ => rfl) fun c s k f _ => ⟨_, rfl, rfl, rfl, putAt_modAsp ..⟩
  case arm =>
    refine begins_of_run (fun _ _ => rfl) fun c s k f _ => ⟨_, aspArmPlan_run .., ?_⟩
    refine ⟨congrArg (·.host.cmds) (armed_eq ..), armed_eq .., fun n => armed_phase _ _ _, fun n => armed_other _ _ _, _,
      armed_arm .., ?_⟩
    split
    · exact ⟨rfl, rfl, rfl, rfl, rfl, rfl⟩
    · exact ⟨rfl, rfl, rfl, rfl, rfl, rfl⟩

end Sys2Proof.Machine
end

section
/-! The events of the audio serial ports (R230–R247): start instants, frames, clocks, pins and trigger edges. -/

namespace Sys2Proof.Machine

/-! ### Starting and stopping (R238, R239) -/

/-- A port at its start instant in block `b`. -/
def AspPort.begun (b : Nat) (a : AspPort) : AspPort :=
  { a with
    phase := if a.mode = 1 then .running else .relock
    startAt := none, startBlock := b % 2 ^ 32, frame := 0, started := false, periods := [], unread := 0, faded := false
    lockRate := a.rate * 1000, lastStart := b * 1000000000, txFade := if a.mode = 1 then { cur := 1, goal := 1 } else {} }

theorem aspStartInstant_scene {n b : Nat} {s : State} (hstart : (portAt s n).startAt = some b) :
    ∃ w a, (aspStartInstant n s).scene n =
      { s.scene n with port := { (portAt s n).begun b with starter := w }, audio := a } := by
  unfold aspStartInstant
  extract_lets p
  split
  next h => cases hstart.symm.trans h
  next b' h =>
    cases hstart.symm.trans h
    extract_lets s1 s2 s3 src s4 s5
    have h2 : s2.scene n = s.scene n := by
      unfold s2
      split
      · exact (setRg_scene ..).trans (tickToNs_scene ..)
      · exact tickToNs_scene ..
    have h4 : s4.scene n = { s.scene n with port := (portAt s n).begun b } := by
      refine (arm_scene ..).trans ((modAsp_scene ..).trans ?_)
      rw [h2]
      rfl
    have h5 : s5.scene n = { s.scene n with port := (portAt s n).begun b, audio := s5.audio } := by
      refine (refadePort_scene ..).trans ?_
      rw [emit_scene, h4]
    split
    · exact ⟨none, s5.audio, by rw [portStarted_scene, h5]⟩
    · exact ⟨_, s5.audio, h5⟩

/-- A slave that does not run a second after its start answers so and goes on waiting for its clock. -/
theorem aspNoClock_eq {n rs : Nat} {tag : Word} {s : State} (hphase : (portAt s n).phase = .relock)
    (hstarter : (portAt s n).starter = some (rs, tag)) : ∃ k, aspNoClock n s =
      finishRunning rs tag St.ASP_NO_CLOCK n 0 [] (modAsp n (fun a => { a with starter := none }) (tick k s)) := by
  unfold aspNoClock
  extract_lets a
  rw [if_neg (not_not.2 hphase)]
  split
  next h => cases hstarter.symm.trans h
  next h =>
    cases hstarter.symm.trans h
    exact ⟨_, rfl⟩

/-- The end of a stop leaves the port IDLE, its rings and release entries empty. -/
theorem aspStopComplete_eq {n rs at_ : Nat} {tag : Word} {s : State} (hstopping : (portAt s n).stopping = some (rs, tag, at_)) :
    ∃ k, aspStopComplete n s = finishRunning rs tag St.OK 0 1 (leN (portAt s n).frame 4 ++ leN 0 4)
      (modAsp n (fun a => { a with
        phase := .idle, stopping := none, faded := false, byPin := false, started := false, periods := [], unread := 0
        rxRing := [], txRing := [], lastRx := [], lastTx := [] })
        (flushRelease (aspMclkEdge n) (flushRelease (aspTxEdge n) (tick k s)))) := by
  unfold aspStopComplete
  extract_lets a
  split
  next h => cases hstopping.symm.trans h
  next h =>
    cases hstopping.symm.trans h
    exact ⟨_, rfl⟩

/-! ### Frames (R240–R243) -/

/-- A port's phase, frame count and masks: what moving the samples of a frame does not touch. -/
def AspPort.face (a : AspPort) : AspPort :=
  { phase := a.phase, frame := a.frame, started := a.started, pendMask := a.pendMask, txMask := a.txMask, rxMask := a.rxMask }

/-- The scene without samples, mixer and fabric: the halves of a frame leave it alone. -/
def PortScene.framed (v : PortScene) : PortScene := { v with port := v.port.face, audio := {}, fab := {} }

/-- The latest mask that waits for a direction, or the old one. -/
def latestMask (waiting : List MaskSet) (tx : Bool) (old : List Nat) : List Nat :=
  (((waiting.filter fun m => m.tx == tx).getLast?).map MaskSet.masks).getD old

theorem latestMask_tx (waiting : List MaskSet) (old : List Nat) :
    latestMask waiting true old = ((waiting.filter MaskSet.tx).getLast?.map MaskSet.masks).getD old := by
  simp only [latestMask, beq_true]

theorem latestMask_rx (waiting : List MaskSet) (old : List Nat) :
    latestMask waiting false old = ((waiting.filter fun m => !m.tx).getLast?.map MaskSet.masks).getD old := by
  simp only [latestMask, beq_false]

/-- The port with the latest waiting mask of a direction. -/
def AspPort.takeMask (waiting : List MaskSet) (tx : Bool) (a : AspPort) : AspPort :=
  if tx then { a with txMask := latestMask waiting true a.txMask } else { a with rxMask := latestMask waiting false a.rxMask }

theorem latestMask_none {waiting : List MaskSet} {tx : Bool} (h : (waiting.filter fun m => m.tx == tx).getLast? = none)
    (old : List Nat) : latestMask waiting tx old = old := by
  rw [latestMask, h]
  rfl

theorem latestMask_some {waiting : List MaskSet} {tx : Bool} {m : MaskSet}
    (h : (waiting.filter fun m => m.tx == tx).getLast? = some m) (old : List Nat) : latestMask waiting tx old = m.masks := by
  rw [latestMask, h]
  rfl

/-- A frame start gives a direction its latest waiting mask, and answers every mask that waited (R242). -/
theorem applyMask_scene (n : Nat) (waiting : List MaskSet) (s : State) (tx : Bool) : (applyMask n waiting s tx).scene n =
    { s.scene n with port := (portAt s n).takeMask waiting tx, audio := (applyMask n waiting s tx).audio } := by
  unfold applyMask AspPort.takeMask
  extract_lets mine
  split
  next h =>
    cases tx
    · rw [latestMask_none h]
      rfl
    · rw [latestMask_none h]
      rfl
  next m h =>
    rw [refadePort_scene, finishAll_scene, raiseUnless_scene, bump_scene, modAsp_scene]
    cases tx
    · rw [latestMask_some h]
      rfl
    · rw [latestMask_some h]
      rfl

theorem applyMask_framed (n : Nat) (waiting : List MaskSet) (s : State) (tx : Bool) : ((applyMask n waiting s tx).scene n).framed =
    { (s.scene n).framed with port := (s.scene n).framed.port.takeMask waiting tx } := by
  rw [applyMask_scene]
  cases tx
  · rfl
  · rfl

theorem modAsp_framed {n : Nat} {f g : AspPort → AspPort} (h : ∀ a, (f a).face = g a.face) (s : State) :
    ((modAsp n f s).scene n).framed = { (s.scene n).framed with port := g (s.scene n).framed.port } := by
  rw [modAsp_scene]
  exact congrArg (fun p => { (s.scene n).framed with port := p }) (h (s.scene n).port)

theorem frameIn_framed (n : Nat) (f : AudioFrame) (s : State) : ((frameIn n f s).scene n).framed = (s.scene n).framed := by
  unfold frameIn
  extract_lets a chs short full held xs s1 s2
  have h1 : s1.scene n = s.scene n := by
    unfold s1
    split
    · exact bump_scene ..
    · rfl
  have h2 : s2.scene n = s.scene n := by
    unfold s2
    split
    · exact (bump_scene ..).trans h1
    · exact h1
  split
  · rw [h2]
  · rw [bump_scene, modAsp_scene, h2]
    rfl

theorem frameOut_framed (n : Nat) (f : AudioFrame) (s : State) : ((frameOut n f s).scene n).framed = (s.scene n).framed := by
  unfold frameOut
  extract_lets a chs ys lost s1 s2
  have h1 : (s1.scene n).framed = (s.scene n).framed := by
    unfold s1
    split
    · unfold aspUnderrun
      rw [deadlineMiss_scene, bump_scene]
      rfl
    · rfl
  rw [bump_scene, modAsp_scene, ← h1]
  rfl

/-- The face of a running port after a frame (R240, R242). -/
def AspPort.nextFace (a : AspPort) : AspPort :=
  { a.face with
    started := true, pendMask := [], frame := (a.frame + 1) % 2 ^ 32
    txMask := latestMask a.pendMask true a.txMask, rxMask := latestMask a.pendMask false a.rxMask }

theorem aspFrame_framed {f : AudioFrame} {s : State} (hn : f.port < 8)
    (hphase : (portAt s f.port).phase = .running ∨ (portAt s f.port).phase = .relock)
    (hglitch : (portAt s f.port).mode = 0 → (portAt s f.port).started = true → (portAt s f.port).phase = .running →
      isGlitch (portAt s f.port) (framePeriod (portAt s f.port) f) = false) :
    ((aspFrame f s).scene f.port).framed = { (s.scene f.port).framed with port := (portAt s f.port).nextFace } := by
  unfold aspFrame
  extract_lets n a live p at_ s1 s2 s3 s4
  have hlive : live = true := by
    rcases hphase with h | h
    · simp [live, a, n, h]
    · simp [live, a, n, h]
  have hhold : a.phase ≠ .hold := by
    rcases hphase with h | h
    · exact fun hh => by cases h.symm.trans hh
    · exact fun hh => by cases h.symm.trans hh
  have hquiet : ¬ (a.mode = 0 ∧ a.started = true ∧ a.phase = .running ∧ isGlitch a p = true) := by
    rintro ⟨hm, hs, hr, hg⟩
    exact Bool.false_ne_true ((hglitch hm hs hr).symm.trans hg)
  have hgoes : ¬ (8 ≤ n ∨ ¬ live = true) := by
    rintro (h | h)
    · exact absurd hn (Nat.not_lt.2 h)
    · exact h hlive
  rw [if_neg hgoes, if_neg hhold, if_neg hquiet]
  have h2 : (s2.scene n).framed = { (s.scene n).framed with port := { a.face with started := true } } := by
    unfold s2
    rw [modAsp_framed (g := fun p => { p with started := true }) (fun _ => rfl), show s1.scene n = s.scene n from tickToNs_scene ..]
    rfl
  have hwaiting : (portAt s2 n).pendMask = a.pendMask := by
    rw [show portAt s2 n = _ from portAt_modAsp_same .., show portAt s1 n = a from portAt_of_device (tick_device ..) n]
  have h3 : (s3.scene n).framed = { (s.scene n).framed with
      port := (({ a.face with started := true } : AspPort).takeMask a.pendMask false).takeMask a.pendMask true } := by
    unfold s3
    rw [hwaiting]
    show ((applyMask n _ (applyMask n _ s2 false) true).scene n).framed = _
    rw [applyMask_framed, applyMask_framed, h2]
  have h4 : (s4.scene n).framed = { (s3.scene n).framed with port := { (s3.scene n).framed.port with pendMask := [] } } :=
    (frameOut_framed ..).trans ((frameIn_framed ..).trans
      (modAsp_framed (g := fun p => { p with pendMask := [] }) (fun _ => rfl) s3))
  rw [show f.port = n from rfl, modAsp_framed (g := fun p => { p with frame := (p.frame + 1) % 2 ^ 32 }) (fun _ => rfl), h4, h3]
  rfl

/-! ### Lost and restored clocks (R244, R245) -/

theorem aspClockLost_scene {n : Nat} {s : State} (hslave : (portAt s n).mode ≠ 1)
    (hphase : (portAt s n).phase = .running ∨ (portAt s n).phase = .relock) (hstarted : (portAt s n).started = true) :
    ∃ at_ x, (aspClockLost n s).scene n = { s.scene n with
      port := { portAt s n with phase := .hold, holdAt := at_, byPin := false, faded := false, periods := [] }, fab := x } := by
  unfold aspClockLost
  extract_lets a
  have hgoes : ¬ (a.mode = 1 ∨ (a.phase ≠ .running ∧ a.phase ≠ .relock) ∨ ¬ a.started = true) := by
    rintro (h | ⟨hr, hl⟩ | h)
    · exact hslave h
    · exact hphase.elim hr hl
    · exact h hstarted
  rw [if_neg hgoes, enterHold_scene, tickToNs_scene]
  exact ⟨_, _, rfl⟩

theorem mixOf_modMix (i : Nat) (f : MixLeg → MixLeg) (s : State) (j : Nat) :
    mixOf (modMix i f s) j = if j = i then f (mixOf s j) else mixOf s j := by
  unfold mixOf modMix Tbl.getD Tbl.upd
  dsimp only
  split
  next h =>
    subst h
    rw [Tbl.get?_put_same]
    rfl
  next h => rw [Tbl.get?_put_other _ _ h]

theorem moveTo_goal (g : Rat) (n w : Nat) (r : Ramp) : (r.moveTo g n w).goal = g := by
  unfold Ramp.moveTo
  split
  · rfl
  · rfl

/-- The contribution of a leg of a port fades to zero (R244). -/
def fadeOut (s : State) (i : Nat) : State :=
  modMix i (fun m => { m with fade := m.fade.moveTo 0 96 (untilSample s (nowSample s)) }) s

theorem fadeOut_goal {s : State} {i j : Nat} (h : j = i ∨ (mixOf s j).fade.goal = 0) : (mixOf (fadeOut s i) j).fade.goal = 0 := by
  unfold fadeOut
  rw [mixOf_modMix]
  split
  next => exact moveTo_goal ..
  next hj => exact h.resolve_left hj

theorem foldl_fadeOut_goal (l : List Nat) (s : State) (j : Nat) (h : j ∈ l ∨ (mixOf s j).fade.goal = 0) :
    (mixOf (l.foldl fadeOut s) j).fade.goal = 0 := by
  induction l generalizing s with
  | nil => exact h.resolve_left List.not_mem_nil
  | cons i l ih =>
    refine ih _ ?_
    rcases h with h | h
    · exact (List.mem_cons.1 h).symm.imp_right fun h => fadeOut_goal (.inl h)
    · exact .inr (fadeOut_goal (.inr h))

/-- The end of HOLD_MS marks the port, and every leg of it fades to zero. -/
theorem aspHoldFade_eq {n : Nat} {s : State} (hphase : (portAt s n).phase = .hold) (hfaded : (portAt s n).faded = false) :
    ∃ due, aspHoldFade n s = (portLegs s n).foldl fadeOut (modAsp n (fun a => { a with faded := true }) (tickTo due s)) := by
  unfold aspHoldFade
  extract_lets a
  rw [if_neg]
  · exact ⟨_, rfl⟩
  · rintro (h | h)
    · exact h hphase
    · exact Bool.false_ne_true (hfaded.symm.trans h)

theorem aspHoldFade_scene {n : Nat} {s : State} (hphase : (portAt s n).phase = .hold) (hfaded : (portAt s n).faded = false) :
    ∃ a, (aspHoldFade n s).scene n = { s.scene n with port := { portAt s n with faded := true }, audio := a } := by
  obtain ⟨due, h⟩ := aspHoldFade_eq hphase hfaded
  rw [h, foldl_scene_audio (g := fadeOut) (fun s i => modMix_scene ..), modAsp_scene, tickTo_scene]
  exact ⟨_, rfl⟩

/-- Sixteen stable periods near a supported rate take a slave in HOLD, or running at another rate, to RELOCK (R244). -/
theorem aspRateChange_scene {n : Nat} {s : State} (hslave : (portAt s n).mode ≠ 1) (hstable : stableClock (portAt s n) = true)
    (hnear : (nearRate (measRate (portAt s n))).isSome = true)
    (hphase : (portAt s n).phase = .hold ∨ ((portAt s n).phase = .running ∧ rateDiffers (portAt s n) (measRate (portAt s n)) = true)) :
    (aspRateChange n s).scene n =
      { s.scene n with port := { portAt s n with phase := .relock, lockRate := measRate (portAt s n) } } := by
  unfold aspRateChange
  extract_lets a r told s1 s2
  have htold (k : Nat) (s : State) : (told k s).scene n = s.scene n := raise_scene ..
  have hfar : ¬ (nearRate r).isNone = true := by
    rw [Option.isNone_iff_eq_none, ← ne_eq, Option.ne_none_iff_isSome]
    exact hnear
  have hgoes : ¬ (a.mode = 1 ∨ ¬ stableClock a = true) := by
    rintro (h | h)
    · exact hslave h
    · exact h hstable
  rw [if_neg hgoes]
  by_cases hhold : a.phase = .hold
  · have h2 : s2.scene n = s.scene n := by
      unfold s2
      split
      · exact (htold ..).trans (raise_scene ..)
      · exact raise_scene ..
    rw [if_pos hhold, if_neg hfar, bump_scene, modAsp_scene, h2]
    rfl
  · rw [if_neg hhold, if_pos (hphase.resolve_left hhold), if_neg hfar, bump_scene, modAsp_scene, htold]
    rfl

/-- The converged converter makes the port RUNNING and fades both directions in (R245). -/
theorem aspConverged_scene {n : Nat} {s : State} (hphase : (portAt s n).phase = .relock) (hstarted : (portAt s n).started = true)
    (hstopping : (portAt s n).stopping = none) : ∃ rate a, (aspConverged n s).scene n = { s.scene n with
      port := { portAt s n with
        phase := .running, faded := false, unread := 0, lockRate := rate
        txFade := ({} : Ramp).moveTo 1 ((portAt s n).rate / 500) 0, starter := none }
      audio := a } := by
  unfold aspConverged
  extract_lets a s1 s2
  have hgoes : ¬ (a.phase ≠ .relock ∨ ¬ a.started = true ∨ a.stopping.isSome = true) := by
    rintro (h | h | h)
    · exact h hphase
    · exact h hstarted
    · rw [show a.stopping = none from hstopping] at h
      cases h
  have h2 : s2.scene n = { s1.scene n with audio := s2.audio } := foldl_scene_audio (fun s i => modMix_scene ..) _ _
  rw [if_neg hgoes, portStarted_scene, refadePort_scene, h2, modAsp_scene]
  exact ⟨_, _, rfl⟩

/-! ### Pins (R246, R247) -/

/-- A shorted driven pin is released; a clock pin takes a running port to HOLD. -/
theorem aspPinFault_scene {n pin : Nat} {s : State} (cause : Nat) (hdriven : pinDriven (portAt s n) pin = true)
    (hfree : Tbl.get? (portAt s n).pins pin = none) : ∃ at_ q x,
      (aspPinFault n pin cause s).scene n = { s.scene n with port := q, fab := x } ∧
      q.pins = Tbl.put (portAt s n).pins pin (cause % 2, 0, at_) ∧
      q.phase = if pin < 2 ∧ (portAt s n).phase = .running then .hold else (portAt s n).phase := by
  unfold aspPinFault
  extract_lets a s1 s2
  have hgoes : ¬ (¬ pinDriven a pin = true ∨ Tbl.has a.pins pin = true) := by
    rintro (h | h)
    · exact h hdriven
    · rw [Tbl.has, hfree] at h
      cases h
  have h2 : s2.scene n = { s.scene n with
      port := { portAt s n with pins := Tbl.put (portAt s n).pins pin (cause % 2, 0, s.clock.cycles + retryCycles s) } } :=
    (raiseUnless_scene ..).trans ((bump_scene ..).trans (modAsp_scene ..))
  rw [if_neg hgoes]
  split
  · rw [enterHold_scene, h2]
    exact ⟨_, _, _, rfl, rfl, rfl⟩
  · exact ⟨_, _, _, h2, rfl, rfl⟩

/-- A retry takes the pin back where the fault has gone, and counts on where it has not. -/
theorem aspPinRetry_scene {n pin cause fails at_ : Nat} {s : State} (clear : Bool)
    (hpin : Tbl.get? (portAt s n).pins pin = some (cause, fails, at_)) :
    ∃ again q, (aspPinRetry n pin clear s).scene n = { s.scene n with port := q } ∧
      q.pins = if clear then Tbl.del (portAt s n).pins pin else Tbl.put (portAt s n).pins pin (cause, fails + 1, again) := by
  unfold aspPinRetry
  extract_lets a
  split
  next h => cases hpin.symm.trans h
  next h =>
    cases hpin.symm.trans h
    extract_lets s1 s2 s3 s4
    cases clear with
    | true =>
      have h3 : s3.scene n = { s.scene n with port := { portAt s n with pins := Tbl.del (portAt s n).pins pin } } :=
        (raiseUnless_scene ..).trans (modAsp_scene ..)
      rw [if_pos rfl]
      split
      · rw [bump_scene, modAsp_scene, raise_scene, h3]
        exact ⟨0, _, rfl, rfl⟩
      · exact ⟨0, _, h3, rfl⟩
    | false =>
      rw [if_neg Bool.false_ne_true, bump_scene, modAsp_scene, tickTo_scene]
      exact ⟨_, _, rfl, rfl⟩

/-! ### Trigger edges (R237) -/

theorem ringStore_asp (x : Session) (n : Nat) (s : State) : (ringStore x n s).asp = s.asp :=
  foldl_kept State.asp _ _ _ fun _ _ => foldl_kept State.asp _ _ _ fun _ _ => rfl

theorem capPulse_asp (x : Session) (n : Nat) (s : State) : (capPulse x n s).asp = s.asp := by
  unfold capPulse
  split
  · rfl
  · rfl

/-- A trigger of a capture session leaves the audio ports alone. -/
theorem capTrigger_asp (i n own : Nat) (s : State) : (capTrigger i n own s).asp = s.asp := by
  unfold capTrigger
  split
  · rfl
  · split
    · rw [capPulse_asp, asp_of_device (raiseUnless_device ..), ringStore_asp, modSession_asp]
    · split
      · rw [capPulse_asp, ringStore_asp, modSession_asp]
      · split
        · rfl
        · rfl

theorem wakeEvent_asp (b during : Nat) (s : State) : (wakeEvent b during s).asp = s.asp :=
  asp_of_device (raiseUnless_device ..)

/-- A wake source leaves the audio ports alone: an entry has none that runs, and in COLD kindling only starts (R383). -/
theorem wakeSource_asp (b : Nat) (s : State) : (wakeSource b s).asp = s.asp := by
  unfold wakeSource
  split
  · rfl
  · extract_lets s1
    have h1 : s1.asp = s.asp := by
      unfold s1
      split
      · exact tick_asp ..
      · rfl
    split
    · exact (wakeEvent_asp ..).trans h1
    · exact h1
    · split
      · exact h1
      · exact (wakeEvent_asp ..).trans h1
    · exact h1

/-- Of the audio ports an edge on TRIG_IN moves what the arm's edge moves. -/
theorem trigEdge_asp {input edge : Nat} (hin : input < 4) (hedge : edge < 2) (s : State) :
    (trigEdge input edge s).asp = (aspTrigIn input edge s).asp := by
  unfold trigEdge
  rw [if_neg (by omega)]
  extract_lets s1 hit s2
  have h2 : s2.asp = s1.asp := foldl_kept State.asp _ _ _ fun _ _ => capTrigger_asp ..
  split
  · exact (wakeSource_asp ..).trans h2
  · exact h2

/-- The edge that an arm waits for gives all its ports the same start block. -/
theorem aspTrigIn_of_awaited {input edge : Nat} {s : State} {a : AspArm} (ha : s.asp.arm = some a) (hsource : a.source = input)
    (hedge : a.edge = edge) (hstart : a.start = none) : ∃ v, aspTrigIn input edge s = modPorts a.ports (AspPort.startedBy a (nowNs s))
      { setRg R.ASP_TRIG_LAST v s with asp.arm := some (a.fired (nowNs s)) } := by
  unfold aspTrigIn
  rw [ha]
  dsimp only
  rw [if_pos ⟨hsource, hedge, hstart⟩, fireArm_of_waiting (s := setRg R.ASP_TRIG_LAST _ s) ha hstart]
  exact ⟨_, rfl⟩

theorem trigEdge_of_awaited {input edge : Nat} {s : State} {a : AspArm} (hin : input < 4) (hlt : edge < 2) (ha : s.asp.arm = some a)
    (hsource : a.source = input) (hedge : a.edge = edge) (hstart : a.start = none) :
    (trigEdge input edge s).asp.arm = some (a.fired (nowNs s)) ∧ ∀ n, n < 8 → Tbl.get? (trigEdge input edge s).asp.ports n =
      if bit a.ports n = true then some ((portAt s n).startedBy a (nowNs s)) else Tbl.get? s.asp.ports n := by
  obtain ⟨v, h⟩ := aspTrigIn_of_awaited ha hsource hedge hstart
  rw [trigEdge_asp hin hlt, h]
  refine ⟨by rw [modPorts_eq], fun n hn => ?_⟩
  rw [modPorts_get?]
  simp only [hn, true_and]
  rfl

/-- Settles O28: the scene, or the equation, of each event above. -/
theorem audioPortEventsComplete : Obligations.AudioPortEventsComplete := by
  unfold Obligations.AudioPortEventsComplete
  intro others
  refine ⟨?start, ?noClock, ?stopped, ?frame, ?lost, ?holdFade, ?rate, ?converged, ?pinFault, ?pinRetry, ?edge⟩
  case start =>
    intro n s b hstart
    obtain ⟨w, a, h⟩ := aspStartInstant_scene hstart
    obtain ⟨hothers, hport, hsame⟩ := left_of_scene_audio h
    refine ⟨_, rfl, hothers, ?_⟩
    rw [hport]
    exact ⟨rfl, rfl, rfl, rfl, rfl, hsame⟩
  case noClock =>
    intro n s rs tag hphase hstarter
    obtain ⟨k, h⟩ := aspNoClock_eq hphase hstarter
    exact ⟨_, congrArg Host.Outcome.next h, rfl, rfl, putAt_modAsp_of_asp (tick_asp ..) ..⟩
  case stopped =>
    intro n s rs tag at_ hstopping
    obtain ⟨k, h⟩ := aspStopComplete_eq hstopping
    exact ⟨_, congrArg Host.Outcome.next h, rfl, rfl,
      putAt_modAsp_of_asp (u := flushRelease _ (flushRelease _ (tick k s))) rfl ..⟩
  case frame =>
    intro f s hn hphase hglitch
    have h := aspFrame_framed hn hphase hglitch
    have hfield {α : Type} (g : AspPort → α) : g (portAt (aspFrame f s) f.port).face = g (portAt s f.port).nextFace :=
      congrArg (fun v => g v.port) h
    refine ⟨_, rfl, others_of_scene (congrArg PortScene.others h :), hfield AspPort.phase, hfield AspPort.frame,
      hfield AspPort.started, hfield AspPort.pendMask, (hfield AspPort.txMask).trans ?_, (hfield AspPort.rxMask).trans ?_,
      same_of_scene (n := f.port) (congrArg PortScene.rest h :)⟩
    · exact latestMask_tx ..
    · exact latestMask_rx ..
  case lost =>
    intro n s hn hslave hphase hstarted
    obtain ⟨at_, x, h⟩ := aspClockLost_scene hslave hphase hstarted
    obtain ⟨hothers, hport, hsame⟩ := left_of_scene_fab h
    refine ⟨_, congrArg Host.Outcome.next (if_neg (by omega)), hothers, ?_⟩
    rw [hport]
    exact ⟨rfl, rfl, rfl, hsame⟩
  case holdFade =>
    intro n s hn hphase hfaded
    obtain ⟨a, h⟩ := aspHoldFade_scene hphase hfaded
    obtain ⟨hothers, hport, hsame⟩ := left_of_scene_audio h
    obtain ⟨due, heq⟩ := aspHoldFade_eq hphase hfaded
    refine ⟨_, congrArg Host.Outcome.next (if_neg (by omega)), hothers, ?_, ?_, fun i hi => ?_, hsame⟩
    · rw [hport]
      exact hphase
    · rw [hport]
    · rw [heq]
      exact foldl_fadeOut_goal _ _ _ (.inl hi)
  case rate =>
    intro n s hn hslave hstable hnear hphase
    obtain ⟨hothers, hport, hsame⟩ := left_of_scene (aspRateChange_scene hslave hstable hnear hphase)
    refine ⟨_, congrArg Host.Outcome.next (if_neg (by omega)), hothers, ?_⟩
    rw [hport]
    exact ⟨rfl, rfl, hsame⟩
  case converged =>
    intro n s hn hphase hstarted hstopping
    obtain ⟨rate, a, h⟩ := aspConverged_scene hphase hstarted hstopping
    obtain ⟨hothers, hport, hsame⟩ := left_of_scene_audio h
    refine ⟨_, congrArg Host.Outcome.next (if_neg (by omega)), hothers, ?_⟩
    rw [hport]
    exact ⟨rfl, rfl, moveTo_goal .., hsame⟩
  case pinFault =>
    intro n pin cause s hn hdriven hfree
    obtain ⟨at_, q, x, h, hpins, hphase⟩ := aspPinFault_scene cause hdriven hfree
    obtain ⟨hothers, hport, hsame⟩ := left_of_scene_fab h
    refine ⟨_, congrArg Host.Outcome.next (if_neg (by omega)), hothers, ?_⟩
    rw [hport, hpins]
    exact ⟨⟨at_, putAt_put ..⟩, hphase, hsame⟩
  case pinRetry =>
    intro n pin clear s cause fails at_ hn hpin
    obtain ⟨again, q, h, hpins⟩ := aspPinRetry_scene clear hpin
    obtain ⟨hothers, hport, hsame⟩ := left_of_scene h
    refine ⟨_, congrArg Host.Outcome.next (if_neg (by omega)), hothers, hsame, ?_⟩
    rw [hport, hpins]
    split
    · rfl
    · exact ⟨again, putAt_put ..⟩
  case edge =>
    intro input edge s a hin hlt ha hsource hedge hstart
    obtain ⟨harm, hports⟩ := trigEdge_of_awaited hin hlt ha hsource hedge hstart
    refine ⟨_, rfl, congrArg (Option.map AspArm.start) harm, fun n hn => ?_⟩
    have hget := hports n hn
    split
    next hbit =>
      rw [if_pos hbit] at hget
      rw [portAt_of_get? hget]
      exact ⟨rfl, rfl⟩
    next hbit => rwa [if_neg hbit] at hget

end Sys2Proof.Machine
end

section
/-! The step on an empty queue: one cycle of the timebase edge clock passes (R344, log entry 5). -/

namespace Sys2Proof.Machine

theorem step_of_emptyQueue {s : State} (hq : s.pending = []) : step s = .next (idle s) := by
  unfold step
  rw [hq]

/-- Only a PORT_CONFIG that runs can time out (R148). -/
theorem portTimeouts_of_noneRunning {s : State} (hp : s.pkt.portCmds = []) : portTimeouts s = s := by
  unfold portTimeouts
  rw [hp, List.filter_nil, List.foldl_nil]

theorem idle_of_noneRunning {s : State} (hp : s.pkt.portCmds = []) : idle s = tick 1 s :=
  portTimeouts_of_noneRunning ((congrArg _ (tick_pkt 1 s)).trans hp)

/-- Settles O2: with no PORT_CONFIG to time out, an idle step is one tick, and a tick moves the clock alone. -/
theorem idleStepLetsOneCyclePass : Obligations.IdleStepLetsOneCyclePass := by
  intro s hq hp
  have hstep : step s = .next (tick 1 s) := (step_of_emptyQueue hq).trans (congrArg _ (idle_of_noneRunning hp))
  exact ⟨tick 1 s, hstep, rfl, rfl⟩

end Sys2Proof.Machine
end
